-- ==== Sys2Proof/Word.lean ====
section
/-!
DEFINITION. Sys2Proof/Word.lean: the words of the IXM-6410, the ranges that name its units, and the small enumerations
that commands carry as operands. Numbers of units are `Fin` types, so a command cannot name a die, core, stack or port
that the module does not have.
-/
namespace Sys2Proof

/-- One byte. -/
abbrev Byte := BitVec 8

/-- One register word (R11). -/
abbrev Word := BitVec 32

/-- One 64-bit word. -/
abbrev Dword := BitVec 64

/-- A die index, row × 10 + column (R22). -/
abbrev Die := Fin 100

/-- A compute die by its ordinal (R24). -/
abbrev ComputeDie := Fin 64

/-- A memory die, and its DRAM stack, by its ordinal (R24). -/
abbrev Stack := Fin 16

/-- A Bough die by its ordinal (R24). -/
abbrev Bough := Fin 14

/-- A physical core of the module: compute die ordinal × 18 + core number on the die (R44). -/
abbrev PhysCore := Fin 1152

/-- A fabric port, 0 to 41 (R335). -/
abbrev Port := Fin 42

/-- A moment, in units of 100 ps: a reference tick is 64 units, a mesh cycle 5, a 50 MHz cycle 200. -/
abbrev Time := Nat

/-- Sparse data by key, in the canonical form of `Machine.mapWf`. -/
abbrev Map (α : Type) := List (Nat × α)

/-- Who makes a register access. Each writer of a queue window has its own staging buffer (R57); a fabric requester
is a core of a node, as its TAG names it (R343). -/
inductive Requester where
  | host
  | trunk0
  | trunk99
  | bmc
  | fabric (node : Fin 65536) (die : Fin 128) (core : Fin 32)
deriving DecidableEq, Repr

/-- What the ECC check of a memory die found while an access ran (R290): the 64-byte lines uncorrectable, and those corrected, by line number in
the stack; a line with both of its codewords corrected stands twice. -/
structure LineEcc where
  bad : List Nat
  corrected : List Nat
deriving DecidableEq, Repr

/-- What a planned access finds at its memory die: whether read data is ready in time, and its own ECC check (R281, R290). -/
structure PlanFound where
  ready : Bool
  lines : LineEcc
deriving DecidableEq, Repr

/-- The corrected and the uncorrectable codewords of a link error window (R330). -/
structure FecWindow where
  fixed : Nat
  uncorr : Nat
deriving DecidableEq, Repr

/-- What an ECC check found while a command ran (R442): the queue or bank entry uncorrectable, the scratchpad words found
uncorrectable, and the number of words corrected; and, as the engine presents its accesses to the banks, the meetings with requesters ahead of it,
each by their number (R48). For a request to a memory die: what its own check found, and whether planned read data is ready in time (R281, R290). -/
structure Ecc where
  entryBad : Bool
  badWords : List Nat
  corrected : Nat
  met : List Nat
  lines : LineEcc := { bad := [], corrected := [] }
  ready : Bool := true
deriving DecidableEq, Repr

/-- A planned flit: its payload, and whether it is marked poisoned (R31). -/
structure Flit where
  poison : Bool
  bytes : List Byte
deriving DecidableEq, Repr

/-- What happens at a router of the dynamic class (R30): a message of the die itself enters, or a dynamic cycle forwards; the
outputs in the list (0 north, 1 east, 2 south, 3 west) meet a CRC mismatch at the receiving router. -/
inductive DynAct where
  | enter (dst : Die) (payload : List Byte)
  | forward (crcBad : List (Fin 4))
deriving DecidableEq, Repr

/-- A batch slot change (R168): node of the submitting module, job tag, job slot, new state, PREFILL_LEN. -/
structure SlotChg where
  node : Nat
  job : Nat
  slot : Nat
  newState : Nat
  len : Nat
deriving DecidableEq, Repr

/-- What an EXCHANGE sends to the slice agreement (R179, R185): the module's node number, its level, its pending slot changes, and the
time of its boundary in reference ticks as the modules measure it against each other, later boundaries higher. -/
structure Xchg where
  node : Nat
  level : Nat
  changes : List SlotChg
  boundary : Int
deriving DecidableEq, Repr

/-- An access that reaches a scratchpad through the die crossbar (R46): the byte within the slot, the bytes of a write or the length
of a read, and the numbers of the poisoned 64-bit words of the written data, counted from its first byte. -/
structure XbarAccess where
  off : Nat
  write : Bool
  len : Nat
  data : List Byte
  poison : List Nat
deriving DecidableEq, Repr

/-- A completion that returns for a fabric request (R343 to R350): the generation of its slot, error code (0 for none), data,
the numbers of its poisoned 64-bit words (R47), and the late flag. -/
structure Resp where
  generation : Nat
  err : Nat
  data : List Byte
  poison : List Nat
  late : Bool
deriving DecidableEq, Repr

/-- A jump report (R115): job tag, layer, step, frame, whether a recomputation is asked, and whether the step it reports was one. -/
structure JumpRep where
  job : Fin 256
  layer : Fin 1024
  step : Nat
  frame : Nat
  recompute : Bool
  inRecompute : Bool
deriving DecidableEq, Repr

/-- A step notice (R182): job tag, layer, frame, the layer's state, as far as whether it is in RECOMPUTE or WIDE and whether it is NORMAL, and whether
the step is replayed. -/
structure StepNote where
  job : Fin 256
  layer : Fin 1024
  frame : Nat
  wide : Bool
  normal : Bool
  replay : Bool
deriving DecidableEq, Repr

/-- What die 0 forwards of a step notice or a jump report (R115, R182): either, to the dies of its module and to die 0 of the nodes named. -/
structure Forward where
  note : Option StepNote
  jump : Option JumpRep
  dies : List Nat
  nodes : List Nat
deriving DecidableEq, Repr

/-- What the sampler has of a job slot in a step (R260, R261): job, slot, the FP32 logit row over the vocabulary, and whether the tracker reads the
token record as poisoned (R443). -/
structure TokenRec where
  job : Fin 256
  slot : Fin 4096
  logits : List Word
  poison : Bool
deriving DecidableEq, Repr

/-- The step statistics words of a routed layer (R231): job, layer, OVERFLOWS, DROPS, NAN_ROWS and LANES_USED. -/
structure RouteStat where
  job : Fin 256
  layer : Fin 1024
  overflows : Nat
  drops : Nat
  nanRows : Nat
  lanes : Nat
deriving DecidableEq, Repr

/-- How the CXL device answers an access (R294, R304): whether it fails on the link, and the 64-byte lines of the access that it reports poisoned. -/
structure CxlOut where
  fail : Bool
  poison : List Nat
deriving DecidableEq, Repr

/-- A link flit (R312): TYPE, FIRST, the sender's frame number, POISON, SEQ and the payload used. -/
structure LinkFlit where
  kind : Nat
  first : Bool
  frame : Nat
  poison : Bool
  seq : Nat
  payload : List Byte
deriving DecidableEq, Repr

/-- What a port's training finds (R319, R331): lanes locked, t1 in units of 0.5 ns, whether retained coefficients were used, and whether the
FEC uncorrectable limit was exceeded. -/
structure Train where
  locked : BitVec 8
  t1 : Nat
  retained : Bool
  uncorr : Bool
deriving DecidableEq, Repr

/-- A PROOF flit with the verdicts of its certificate checks (R484). -/
structure Proof where
  membershipOk : Bool
  chainOk : Bool
  sigOk : Bool
  svn : Nat
  nonce : Nat
  node : Nat
  port : Nat
  isSwitch : Bool
  digest : BitVec 128
deriving DecidableEq, Repr

/-- What a sample finds at a power blade (R523): its voltage in 10 mV, the current in 0.1 A that the module would draw from it without a limit, whether
BLADE_SENSE is mated, and whether the input capacitance behind it is charged. -/
structure BladeIn where
  volts : Nat
  amps : Nat
  sense : Bool
  charged : Bool
deriving DecidableEq, Repr

/-- A 10 µs sample: the input power in W, and what it finds at the two blades (R403, R523). -/
structure PowerIn where
  watts : Nat
  bladeA : BladeIn
  bladeB : BladeIn
deriving DecidableEq, Repr

/-- What the Taproot die measures at the end of a controller millisecond (R389, R410, R414): input voltage in 10 mV, current in 0.1 A, whether each
blade carries current, the coolant inlet, and junction readings by die and sensor, temperatures in units of 0.0625 °C. -/
structure MsIn where
  volts : Nat
  amps : Nat
  blade0 : Bool
  blade1 : Bool
  coolant : Int
  sensors : List (Die × Fin 4 × Int)
deriving DecidableEq, Repr

/-- A fabric request, response or control message with its header (R343). -/
structure FabMsg where
  dest : Nat
  src : Nat
  offset : Nat
  op : Nat
  cls : Nat
  len : Nat
  job : Nat
  hops : Nat
  tag : Nat
  expiry : Nat
  status : Nat
  data : List Byte
  poison : List Nat
deriving DecidableEq, Repr

/-- A failure that a self-test finds (R447): the die, KIND, the unit, the address and the bit. -/
structure TestFail where
  die : Die
  kind : Fin 16
  unit : Fin 32
  addr : Nat
  bit : Nat
deriving DecidableEq, Repr

/-- What carries a start on (R427, R429): the write of START_CMD by the driver or the tray BMC; the end of a step without results of its own; the
end of step 3 with the verdict of the power-up self-tests (R477), of step 4 with the pool found (4 GiB units, devices, ways, R501), of 8a with
frequencies measured in 25 MHz units (R399), edges whose lane repair failed and failures, of 8b with failures, and of 8c. -/
inductive StartEv where
  | command (bmc : Bool)
  | stepEnds
  | bootEnds (ok : Bool)
  | linksEnd (pool devices ways : Nat)
  | testsEnd (measured : List (PhysCore × Nat)) (edges : List (Die × Fin 4)) (fails : List TestFail)
  | dramEnds (fails : List TestFail)
  | portsEnd
deriving DecidableEq, Repr

/-- What a firmware image's header says, and the verdicts of its checks (R479). -/
structure FwImage where
  len : Nat
  chainOk : Bool
  sigOk : Bool
  digestOk : Bool
  svn : Nat
  word : BitVec 128
  digest : List Byte
deriving DecidableEq, Repr

/-- A request to the Heartwood die with what it carries (R482): the verdicts of signatures and unwrappings are operands. -/
inductive SvcReq where
  | status
  | authChallenge
  | authRespond (ok extension : Bool)
  | logout
  | verifyFirmware (img : FwImage)
  | verifySignature (n : Nat) (ok : Bool)
  | unwrapInstall (die : Die) (keyId : Nat) (key : BitVec 256) (salt : Nat) (ok : Bool)
  | clearKeys
  | linkSign (data : List Byte)
  | linkVerify (ok : Bool)
  | quote (nonce : List Byte)
  | random (n : Nat)
  | importKek (slot : Fin 8) (id : Nat) (key : BitVec 256) (ok : Bool)
  | importAppliance (data : List Byte) (ok : Bool)
  | advanceFloor
  | servicePermit
  | debugUnlock (tokenOk : Bool)
  | zeroise
deriving DecidableEq, Repr

/-- A decision of a membership round (R462, R464): its coordinator, the lost modules, the START_EPOCH at which frames restart, and the fault
that it answers: its class, and NODE, DETAIL and EDGE as R459 lays them out. -/
structure Decision where
  coord : Nat
  lost : List Nat
  epoch : Nat
  cls : Nat
  node : Nat
  detail : Nat
  edge : Nat
deriving DecidableEq, Repr

/-- What a control message carries (R361, R362): the capture frame of a snapshot, the frame of a reset, or bytes for a die. -/
inductive CtlMsg where
  | capture (seq frame : Nat)
  | resetAt (seq frame : Nat)
  | plain (die : Die) (bytes : List Byte)
deriving DecidableEq, Repr

end Sys2Proof
end

