-- ==== Sys2Proof/Syntax.lean ====
section
/-!
DEFINITION. Sys2Proof/Syntax.lean: the commands of the block, one constructor per row of spec/opcode_table.json. The first operand of
each is the moment at which it happens (log entry 1).
-/
namespace Sys2Proof

/-- A command. -/
inductive Instr where
  /-- REGISTER_WRITE (R10). A write to a register field that has no row of its own, acting as its access code states. -/
  | registerWrite (t : Time) (who : Requester) (off : Nat) (v : Word)
  /-- MISALIGNED_REGISTER_ACCESS (R11). A register access that is not a naturally aligned 32-bit word returns 0xFFFF_FFFF or is discarded, and records 0x1001. -/
  | misalignedRegisterAccess (t : Time) (off size : Nat) (isWrite : Bool)
  /-- SOFT_RESET (R538). A write of PAGE_CTRL.SOFT_RESET resets the block state and named header registers, then applies the rest of the write. -/
  | softReset (t : Time) (die : Die) (page : Fin 256) (v : Word)
  /-- POWER_REQ_WRITE (R14). A write of PAGE_CTRL.POWER_REQ starts a block power-state transition, or is refused with 0x1002 for a reserved code. -/
  | powerReqWrite (t : Time) (die : Die) (page : Fin 256) (v : Word)
  /-- POWER_TRANSITION_COMPLETE (R14). A block power transition completes, and POWER_STATE takes the requested value. -/
  | powerTransitionComplete (t : Time) (die : Die) (page : Fin 256)
  /-- PAGE_LOCK (R15). A write that sets PAGE_LOCK.LOCK locks the page's ENABLE, SOFT_RESET and RW block registers until the die is reset. -/
  | pageLock (t : Time) (die : Die) (page : Fin 256) (v : Word)
  /-- IRQ_STATUS_CLEAR (R18). A W1C write clears IRQ_STATUS bits; clearing ERR also clears ERR_CODE and ERR_INFO. -/
  | irqStatusClear (t : Time) (die : Die) (page : Fin 256) (v : Word)
  /-- IRQ_FORCE (R19). A write of IRQ_FORCE sets IRQ_STATUS bits under Service permission, or is discarded with 0x8001. -/
  | irqForce (t : Time) (die : Die) (page : Fin 256) (v : Word)
  /-- CNT_CLR (R17). A write of CNTn_CLR clears an event counter. -/
  | cntClr (t : Time) (die : Die) (page : Fin 256) (v : Word)
  /-- LO_READ_LATCH (R16). A read of a LO half of a 64-bit counter copies the HI half into its latch. -/
  | loReadLatch (t : Time) (die : Die) (page : Fin 256) (off : Fin 4096)
  /-- PLANNED_FLIT (R29). A planned mesh flit is received and forwarded by a router in its planned cycle, as the schedule table names. -/
  | plannedFlit (t : Time) (die : Die) (inp : Fin 5) (crcOk entryOk : Bool)
  /-- DYNAMIC_MESSAGE (R30). A dynamic message enters a router and is forwarded one hop per dynamic cycle under dimension-ordered, round-robin packing. -/
  | dynamicMessage (t : Time) (die : Die) (act : DynAct)
  /-- EDGE_MARKED_DOWN (R32). After 8 consecutive dynamic CRC failures, an edge is marked down, error 0x4022 is recorded and TK0 is told. -/
  | edgeMarkedDown (t : Time) (die : Die) (edge : Fin 4)
  /-- SCHED_SWAP_ARM (R34). A write of SCHED_CTRL.SWAP_ARM arms a schedule bank swap at the next frame boundary. -/
  | schedSwapArm (t : Time) (die : Die) (v : Word)
  /-- MAP_NEXT_ARM (R45). A write of CORE.MAP_NEXT with ARM arms a logical-to-physical mapping change for the next frame boundary. -/
  | mapNextArm (t : Time) (c : PhysCore) (v : Word)
  /-- CROSSBAR_ACCESS (R46). A scratchpad read or write arrives through the die crossbar and is performed 14 cycles after it left. -/
  | crossbarAccess (t : Time) (die : ComputeDie) (logical : Fin 16) (a : XbarAccess) (ecc : Ecc)
  /-- DESCRIPTOR_ENQUEUE (R57). A write of W15 to a queue window enters the descriptor into its queue, or discards it with 0x1023 when the queue is full. -/
  | descriptorEnqueue (t : Time) (who : Requester) (c : PhysCore) (q : Fin 4) (v : Word)
  /-- MMA (R107). Matrix multiply-accumulate of A times B transpose into an accumulator set, optionally zeroing the set first. -/
  | mma (t : Time) (c : PhysCore) (ecc : Ecc)
  /-- ACC_STORE (R71). Writes an accumulator set, scaled and biased, to the scratchpad in C_FMT, plain or paged. -/
  | accStore (t : Time) (c : PhysCore) (ecc : Ecc)
  /-- ACC_ZERO (R67). Sets every element of an accumulator set to +0 and clears its poison. -/
  | accZero (t : Time) (c : PhysCore) (ecc : Ecc)
  /-- MXE_NOP (R81). MXE no-operation command. -/
  | mxeNop (t : Time) (c : PhysCore) (ecc : Ecc)
  /-- ADD (R73). VXE element-wise addition D := S0 + S1. -/
  | add (t : Time) (c : PhysCore) (ecc : Ecc)
  /-- SUB (R73). VXE element-wise subtraction D := S0 − S1. -/
  | sub (t : Time) (c : PhysCore) (ecc : Ecc)
  /-- MUL (R73). VXE element-wise multiplication D := S0 × S1. -/
  | mul (t : Time) (c : PhysCore) (ecc : Ecc)
  /-- FMA (R73). VXE fused multiply-add D := S0 × S1 + D. -/
  | fma (t : Time) (c : PhysCore) (ecc : Ecc)
  /-- MAX (R541). VXE element-wise maximum of S0 and S1. -/
  | max (t : Time) (c : PhysCore) (ecc : Ecc)
  /-- MIN (R541). VXE element-wise minimum of S0 and S1. -/
  | min (t : Time) (c : PhysCore) (ecc : Ecc)
  /-- SCALE (R540). VXE multiplication of S0 by the FP32 constant IMM. -/
  | scale (t : Time) (c : PhysCore) (ecc : Ecc)
  /-- CONVERT (R99). VXE conversion of S0 to D_FMT under the rounding and saturation that IMM selects. -/
  | convert (t : Time) (c : PhysCore) (ecc : Ecc)
  /-- EXP (R73). VXE half-rate exponential. -/
  | exp (t : Time) (c : PhysCore) (ecc : Ecc)
  /-- RECIP (R73). VXE half-rate reciprocal. -/
  | recip (t : Time) (c : PhysCore) (ecc : Ecc)
  /-- RSQRT (R73). VXE half-rate reciprocal square root. -/
  | rsqrt (t : Time) (c : PhysCore) (ecc : Ecc)
  /-- TANH (R73). VXE half-rate hyperbolic tangent. -/
  | tanh (t : Time) (c : PhysCore) (ecc : Ecc)
  /-- SILU (R73). VXE half-rate SiLU. -/
  | silu (t : Time) (c : PhysCore) (ecc : Ecc)
  /-- GELU (R73). VXE half-rate GELU in tanh form. -/
  | gelu (t : Time) (c : PhysCore) (ecc : Ecc)
  /-- ROW_SUM (R74). VXE reduction writing the sum of each row in fixed order. -/
  | rowSum (t : Time) (c : PhysCore) (ecc : Ecc)
  /-- ROW_MAX (R541). VXE reduction writing the maximum of each row. -/
  | rowMax (t : Time) (c : PhysCore) (ecc : Ecc)
  /-- ROW_SQSUM (R541). VXE reduction writing the sum of squares of each row. -/
  | rowSqsum (t : Time) (c : PhysCore) (ecc : Ecc)
  /-- CUMSUM (R74). VXE sequential cumulative sum within each row. -/
  | cumsum (t : Time) (c : PhysCore) (ecc : Ecc)
  /-- NORM2 (R541). VXE 2-norm of the whole tile, written to D[0][0]. -/
  | norm2 (t : Time) (c : PhysCore) (ecc : Ecc)
  /-- TOPK (R74). VXE selection of the k largest values of each row and their column indices. -/
  | topk (t : Time) (c : PhysCore) (ecc : Ecc)
  /-- GATHER_ROWS (R75). VXE gather of S0 rows selected by the INT32 indices in S1. -/
  | gatherRows (t : Time) (c : PhysCore) (ecc : Ecc)
  /-- RNG (R262). VXE keyed uniform random numbers in [0, 1) from per-row seeds. -/
  | rng (t : Time) (c : PhysCore) (ecc : Ecc)
  /-- MATCH (R540). VXE test of each INT32 element against the first IMM entries of its S1 row. -/
  | matchEntries (t : Time) (c : PhysCore) (ecc : Ecc)
  /-- VXE_NOP (R73). VXE no-operation command. -/
  | vxeNop (t : Time) (c : PhysCore) (ecc : Ecc)
  /-- COPY_IN (R76). MVE copy of rows from a remote fabric address into the local scratchpad. -/
  | copyIn (t : Time) (c : PhysCore) (ecc : Ecc)
  /-- COPY_OUT (R76). MVE copy of rows from the local scratchpad to a remote fabric address. -/
  | copyOut (t : Time) (c : PhysCore) (ecc : Ecc)
  /-- GATHER_IN (R78). MVE gather of remote rows selected by an index list into local rows. -/
  | gatherIn (t : Time) (c : PhysCore) (ecc : Ecc)
  /-- SCATTER_OUT (R78). MVE scatter of local rows to remote rows selected by an index list. -/
  | scatterOut (t : Time) (c : PhysCore) (ecc : Ecc)
  /-- LOAD (R76). MVE naturally aligned load of 8 to 64 bytes from a remote address. -/
  | load (t : Time) (c : PhysCore) (ecc : Ecc)
  /-- STORE (R76). MVE naturally aligned store of 8 to 64 bytes to a remote address. -/
  | store (t : Time) (c : PhysCore) (ecc : Ecc)
  /-- FETCH_ADD (R345). MVE atomic fetch-add of OPERAND0 at the home. -/
  | fetchAdd (t : Time) (c : PhysCore) (ecc : Ecc)
  /-- SWAP (R345). MVE atomic swap with OPERAND0 at the home. -/
  | swap (t : Time) (c : PhysCore) (ecc : Ecc)
  /-- COMPARE_AND_SWAP (R345). MVE atomic compare-and-swap of OPERAND0 and OPERAND1 at the home. -/
  | compareAndSwap (t : Time) (c : PhysCore) (ecc : Ecc)
  /-- SIGNED_MINIMUM (R345). MVE atomic signed minimum at the home. -/
  | signedMinimum (t : Time) (c : PhysCore) (ecc : Ecc)
  /-- SIGNED_MAXIMUM (R345). MVE atomic signed maximum at the home. -/
  | signedMaximum (t : Time) (c : PhysCore) (ecc : Ecc)
  /-- UNSIGNED_MINIMUM (R345). MVE atomic unsigned minimum at the home. -/
  | unsignedMinimum (t : Time) (c : PhysCore) (ecc : Ecc)
  /-- UNSIGNED_MAXIMUM (R345). MVE atomic unsigned maximum at the home. -/
  | unsignedMaximum (t : Time) (c : PhysCore) (ecc : Ecc)
  /-- FENCE_LOCAL (R353). MVE fence over the requests whose homes lie on the requester's die. -/
  | fenceLocal (t : Time) (c : PhysCore) (ecc : Ecc)
  /-- FENCE_NODE (R353). MVE fence over the requests whose homes lie on the requester's module. -/
  | fenceNode (t : Time) (c : PhysCore) (ecc : Ecc)
  /-- FENCE_GLOBAL (R353). MVE fence over the requests to all homes. -/
  | fenceGlobal (t : Time) (c : PhysCore) (ecc : Ecc)
  /-- FENCE_COMPLETE (R353). A fence completes once every earlier request in its scope has completed or is orphaned. -/
  | fenceComplete (t : Time) (c : PhysCore)
  /-- MVE_NOP (R81). MVE no-operation command. -/
  | mveNop (t : Time) (c : PhysCore) (ecc : Ecc)
  /-- FILL (R80). MOU fill of LENGTH bytes with the repeated PATTERN. -/
  | fill (t : Time) (c : PhysCore) (ecc : Ecc)
  /-- MOU_COPY (R80). MOU copy of LENGTH bytes within the core's scratchpad. -/
  | mouCopy (t : Time) (c : PhysCore) (ecc : Ecc)
  /-- MOU_NOP (R80). MOU no-operation command. -/
  | mouNop (t : Time) (c : PhysCore) (ecc : Ecc)
  /-- COMMAND_RETIRE (R62). A command retires: its scoreboard entries are released and its ISS and notify counts are raised. -/
  | commandRetire (t : Time) (c : PhysCore) (q : Fin 4)
  /-- MVE_REQUEST_GENERATE (R77). The MVE generates its next fabric request, or pauses at the 512-request limit until room appears. -/
  | mveRequestGenerate (t : Time) (c : PhysCore) (ecc : Ecc)
  /-- MVE_REQUEST_COMPLETION (R79). A completion returns for an outstanding MVE request and is applied as delivered, errors included. -/
  | mveRequestCompletion (t : Time) (c : PhysCore) (slot : Fin 512) (resp : Resp)
  /-- CONTEXT_ASSIGN (R50). A write of CTXn_CTRL with ASSIGN makes a context VALID and starts its zero-fill, or is refused with 0x1022. -/
  | contextAssign (t : Time) (c : PhysCore) (n : Fin 16) (v : Word)
  /-- CONTEXT_RELEASE (R50). A write of CTXn_CTRL with RELEASE clears VALID, or is refused with 0x1022 while REFS is not zero. -/
  | contextRelease (t : Time) (c : PhysCore) (n : Fin 16) (v : Word)
  /-- CONTEXT_OWNER_WRITE (R50). A write of CTXn_CTRL OWNER with no action bit stores the owner, or is refused while the context is VALID. -/
  | contextOwnerWrite (t : Time) (c : PhysCore) (n : Fin 16) (v : Word)
  /-- CONTEXT_FILL_DONE (R51). A context zero-fill ends and FILLING clears. -/
  | contextFillDone (t : Time) (c : PhysCore)
  /-- SB_HW_CLR (R86). A write to SB_HW_CLR clears the scoreboard HIGH_WATER. -/
  | sbHwClr (t : Time) (c : PhysCore) (v : Word)
  /-- MVE_HW_CLR (R88). A write to MVE_HW_CLR clears MVE_OUTSTANDING.HIGH_WATER. -/
  | mveHwClr (t : Time) (c : PhysCore) (v : Word)
  /-- NORM_VERDICT (R110). At the verdict tick the watch unit reads a sample word, writes the consumed marker and takes a verdict. -/
  | normVerdict (t : Time) (die : ComputeDie) (entry : Fin 16) (fp32 : Bool)
  /-- JUMP_REPORT (R115). A jump report reaches the request trackers, which hold the step's tokens when a recomputation is asked. -/
  | jumpReport (t : Time) (die : Die) (r : JumpRep)
  /-- STEP_NOTICE (R182). A step notice reaches a die, carrying the layer state and whether the step is to be replayed. -/
  | stepNotice (t : Time) (die : Die) (n : StepNote)
  /-- NW_CTRL_WRITE (R121). A write of NW_CTRL; EN from 0 to 1 loads WARM_LEFT, and the change takes effect at the next frame boundary. -/
  | nwCtrlWrite (t : Time) (die : ComputeDie) (v : Word)
  /-- PLAN_LOAD (R143). The firmware places and checks every section on every module of the slice, then arms all swaps or discards the plan. -/
  | planLoad (t : Time) (u : Fin 256) (file : List Byte) (othersOk sigOk : Bool) (words : List (Fin 65536 × BitVec 128)) (eligible returned : List Nat)
  /-- INJECTION_ENQUEUE (R146). A request's planned flits enter the injection queue of their output, waiting while it is full. -/
  | injectionEnqueue (t : Time) (die : Die) (o : Fin 5) (f : Flit)
  /-- LATE_INJECTION_FLIT (R146). A planned flit that arrives after its injection cycle is discarded and counted. -/
  | lateInjectionFlit (t : Time) (die : Die) (o : Fin 5)
  /-- SYNC_PULSE (R149). A rack frame-sync pulse begins a sync epoch, or sets OUT_OF_STEP with 0x4043 when EPOCH_TICK is not 0. -/
  | syncPulse (t : Time)
  /-- SYNC_PULSE_MISSING (R149). A sync pulse is missing at the epoch end; after 16 in a row OUT_OF_STEP is set. -/
  | syncPulseMissing (t : Time)
  /-- FRAME_SEQUENCER_START (R150). An armed frame sequencer begins frame 0 at tick 0 of START_EPOCH. -/
  | frameSequencerStart (t : Time)
  /-- FRAME_BOUNDARY (R152). At a frame boundary the frame number advances, swaps take effect, stretch and gap are fixed, slot changes and replays are applied and the first segment starts. -/
  | frameBoundary (t : Time)
  /-- SLOT (R157). A SLOT entry opens a slot of the given types and length. -/
  | slot (t : Time) (die : Die) (entryOk : Bool)
  /-- PUSH (R160). A PUSH entry writes its descriptors, variant-selected and slot-masked, into a core queue. -/
  | push (t : Time) (die : Die) (entryOk : Bool)
  /-- PUSH_DESCRIPTOR_ENTER (R160). A descriptor held at a full queue or a waking core enters its queue. -/
  | pushDescriptorEnter (t : Time) (die : ComputeDie) (k : Fin 18)
  /-- WAKE (R163). A WAKE entry starts the clocks of the units in UNIT_MASK. -/
  | wake (t : Time) (die : Die) (entryOk : Bool)
  /-- GATE (R163). A GATE entry stops the clocks of the units in UNIT_MASK. -/
  | gate (t : Time) (die : Die) (entryOk : Bool)
  /-- CORE_GATED_WHEN_IDLE (R163). A unit that had work in progress at GATE is gated once it is idle. -/
  | coreGatedWhenIdle (t : Time) (c : PhysCore)
  /-- UNIT_WAKE_COMPLETE (R395). A woken unit becomes usable after its wake latency. -/
  | unitWakeComplete (t : Time) (die : Die) (u : Fin 18)
  /-- REFRESH (R285). A REFRESH entry refreshes the bank sets of REF_SET for 24 ticks. -/
  | refresh (t : Time) (die : Die) (entryOk : Bool)
  /-- TEST (R445). A TEST entry starts or resumes a self-test slice on a unit. -/
  | test (t : Time) (die : Die) (entryOk : Bool)
  /-- JUMP (R155). A JUMP entry evaluates its condition and, if taken, changes the successor segment. -/
  | jump (t : Time) (die : Die) (entryOk : Bool)
  /-- REPORT (R175). A REPORT entry sends the die's stretch levels to die 0. -/
  | report (t : Time) (die : Die) (entryOk : Bool)
  /-- REPORT_RECEIVED (R175). Die 0 receives a die's REPORT and keeps its DIE level. -/
  | reportReceived (t : Time) (src : Die) (level : Fin 32)
  /-- EXCHANGE (R179). Die 0's EXCHANGE forms the module level and sends it, pending slot changes and boundary time to the slice agreement. -/
  | exchange (t : Time) (entryOk : Bool) (boundary : Int)
  /-- AGREEMENT_RESULT (R179). The agreement result A(F) with TARGET, accepted slot changes and gap bits reaches a die. -/
  | agreementResult (t : Time) (die : Die) (frame : Nat) (xs : List Xchg)
  /-- SLOT_CHANGE_SUBMIT (R168). A write of SLOT_CHG1 queues a slot change, or is discarded with 0x1043 when the queue is full. -/
  | slotChangeSubmit (t : Time) (v : Word)
  /-- FRAME_RUN_ARM (R189). A write of RUN 1 while stopped arms a start for START_EPOCH, or is refused with 0x1041. -/
  | frameRunArm (t : Time) (die : Die) (v : Word)
  /-- FRAME_RUN_DISARM (R189). A write of RUN 0 while a start is armed disarms it. -/
  | frameRunDisarm (t : Time) (die : Die) (v : Word)
  /-- FRAME_STOP (R189). A write of RUN 0 while frames run stops the sequencer at the next boundary. -/
  | frameStop (t : Time) (die : Die) (v : Word)
  /-- PROG_SWAP_ARM (R188). A write of PROG_CTRL.SWAP_ARM arms a frame program bank swap. -/
  | progSwapArm (t : Time) (die : Die) (v : Word)
  /-- SEAL_PAGE (R196). The firmware seals a completed cache page: converts it, copies it to its frame and raises SEALED_LIMIT. -/
  | sealPage (t : Time) (job : Fin 256) (slot : Fin 4096) (layer : Fin 1024) (group : Fin 64) (page : Fin 16384) (inTime : Bool)
  /-- LOCAL_SEQUENCE_NOT_EXTENDED (R192). A local sequence about to append position 262,144 is drained, parked and unparked into the spread class. -/
  | localSequenceNotExtended (t : Time) (job : Fin 256) (slot : Fin 4096)
  /-- PARITY_REGION_WRITE (R223). A write of an XRn parity region register, refused with 0x1051 when it overlaps an enabled region. -/
  | parityRegionWrite (t : Time) (stack : Stack) (n : Fin 8) (isLen : Bool) (v : Word)
  /-- GENERATE (R256). A GENERATE submission is checked and admitted to a job slot, or waits or completes with an error. -/
  | generate (t : Time) (k : Fin 2) (entry param : List Byte) (graft : Option (List Nat))
  /-- CANCEL (R266). A CANCEL submission ends an open request, or completes with 0xA047. -/
  | cancel (t : Time) (k : Fin 2) (entry : List Byte)
  /-- PARK (R215). A PARK submission drains a slot, seals and moves its cache to Tier 2 and completes with reason 6. -/
  | park (t : Time) (k : Fin 2) (entry : List Byte)
  /-- PARK_TTL_EXPIRY (R216). A parked session's time to live elapses and its Tier 2 extents are freed. -/
  | parkTtlExpiry (t : Time)
  /-- CANOPY_LOAD (R270). A CANOPY_LOAD submission chooses a placement, evicts conflicts and loads the model. -/
  | canopyLoad (t : Time) (k : Fin 2) (entry param manifest : List Byte) (sigOk staged : Bool)
  /-- CANOPY_PIN (R271). A CANOPY_PIN submission moves a RESIDENT model to PINNED. -/
  | canopyPin (t : Time) (k : Fin 2) (entry : List Byte) (m : Fin 32)
  /-- CANOPY_UNPIN (R271). A CANOPY_UNPIN submission moves a PINNED model to RESIDENT, or is refused with 0xA049. -/
  | canopyUnpin (t : Time) (k : Fin 2) (entry : List Byte) (m : Fin 32)
  /-- REQUEST_ADMIT (R256). A waiting request is admitted once a slot of its class is free or has been freed by eviction. -/
  | requestAdmit (t : Time) (k : Fin 2)
  /-- REQUEST_DEADLINE (R266). A request's deadline elapses on the slow clock; it ends with reason 4 or error 0xA046. -/
  | requestDeadline (t : Time) (k : Fin 2)
  /-- RETAINED_SESSION_EXPIRY (R298). A retained session's time to live elapses; it is discarded and its slot freed. -/
  | retainedSessionExpiry (t : Time)
  /-- TOKEN_RELEASE (R260). In the first control slot after a boundary the tracker releases token records, handles stops and deadlines and processes submissions. -/
  | tokenRelease (t : Time) (k : Fin 2) (recs : List TokenRec) (routing : List RouteStat)
  /-- STREAM_HOLD_DRAIN (R259). Entries held for a full stream ring are written in order as room appears. -/
  | streamHoldDrain (t : Time) (k : Fin 2) (n : Fin 16)
  /-- COMPLETION_HOLD_DRAIN (R259). Completions held for a full completion ring are written as room appears. -/
  | completionHoldDrain (t : Time) (k : Fin 2)
  /-- GRAFT_VERDICT (R247). In a control slot the firmware takes a verdict on a graft's gradient sample and writes or withholds the step factor. -/
  | graftVerdict (t : Time) (g : Fin 65536) (sample : Word) (factor : Option Word)
  /-- TIER1_PLANNED_ACCESS (R280). A planned access reaches a memory die's port and is performed at a fixed latency. -/
  | tier1PlannedAccess (t : Time) (stack : Stack) (inp : Fin 5) (addr : Nat) (write : Bool) (len : Nat) (data : List Byte) (poison : Bool) (found : PlanFound)
  /-- ARBITRATION_GRANT (R283). A memory or CXL arbiter grants a waiting unplanned port and performs its request. -/
  | arbitrationGrant (t : Time) (die : Die) (others : List (Fin 4)) (ecc : LineEcc) (entryOk : Bool)
  /-- EXTENSION_REFRESH_ROUND (R287). In the stretch extension or gap, the memory die refreshes a round of all bank sets on its own. -/
  | extensionRefreshRound (t : Time) (stack : Stack)
  /-- AUTONOMOUS_REFRESH (R288). While frames do not run, the controller refreshes every bank set every 610 ticks. -/
  | autonomousRefresh (t : Time) (stack : Stack)
  /-- POISON_INIT (R293). A write of POISON_INIT.START begins never-written initialisation of the stack. -/
  | poisonInit (t : Time) (stack : Stack) (v : Word)
  /-- POISON_INIT_DONE (R293). Never-written initialisation ends and INIT_DONE is set. -/
  | poisonInitDone (t : Time) (stack : Stack)
  /-- SCRUB_READ (R295). The patrol scrubber reads the next line and writes back corrected codewords. -/
  | scrubRead (t : Time) (stack : Stack) (ecc : LineEcc)
  /-- SCRUB_BEHIND (R295). A scrub pass not finished within PERIOD sets SCRUB_BEHIND and records 0x3053. -/
  | scrubBehind (t : Time) (stack : Stack)
  /-- PPR_START (R297). A write of PPR_CTRL.START requests post-package repair of a row, or is refused with 0x1080. -/
  | pprStart (t : Time) (stack : Stack) (v : Word)
  /-- PPR_COMPLETE (R297). A post-package repair completes or fails for want of a spare row. -/
  | pprComplete (t : Time) (stack : Stack)
  /-- SEGMENT_WRITE (R301). A write of a Tier 2 segment entry, refused with 0x1082 for a duplicate or out-of-range base. -/
  | segmentWrite (t : Time) (k : Fin 256) (v : Word)
  /-- TIER2_ACCESS (R302). Die 98 performs a single Tier 2 load, store or atomic through the window. -/
  | tier2Access (t : Time) (out : CxlOut)
  /-- TIER2_DEADLINE_EXPIRY (R302). A Tier 2 request's deadline expires and die 98 completes it with 0x3060. -/
  | tier2DeadlineExpiry (t : Time)
  /-- TIER_MOVE_QUEUE (R303). A write of TM_TAG queues a tier move, or is refused with 0x1081. -/
  | tierMoveQueue (t : Time) (v : Word)
  /-- TIER_MOVE_TILE (R303). The tier mover starts the next tile of a move in a reserved mesh run. -/
  | tierMoveTile (t : Time) (out : CxlOut) (ecc : LineEcc)
  /-- TIER_MOVE_COMPLETE (R304). A tier move completes, changing the home and optionally poisoning the source. -/
  | tierMoveComplete (t : Time)
  /-- TIER_MOVE_DEADLINE (R304). A tier move's deadline expires before its last tile; it ends with 0x3060. -/
  | tierMoveDeadline (t : Time)
  /-- TM_DONE_READ (R307). A read of TM_DONE pops one move completion and latches TM_DONE_INFO. -/
  | tmDoneRead (t : Time)
  /-- HOST_LINK_DOWN (R501). A host link leaves the up state, records 0x5030 and ends Tier 2 accesses. -/
  | hostLinkDown (t : Time) (hl : Fin 2)
  /-- PORT_SIGNAL_DETECTED (R317). Signal is detected on all 8 lanes of a port in DETECT, which moves it to TRAIN. -/
  | portSignalDetected (t : Time) (p : Port)
  /-- PORT_DETECT_TIMEOUT (R318). No signal within 100 ms puts a port in QUARANTINE as absent. -/
  | portDetectTimeout (t : Time) (p : Port)
  /-- PORT_TRAINING_COMPLETE (R319). Equalisation, deskew and latency measurement end and the port enters AUTH. -/
  | portTrainingComplete (t : Time) (p : Port) (tr : Train)
  /-- PORT_RETRY (R318). A quarantine retry timer expires and the port returns to DETECT. -/
  | portRetry (t : Time) (p : Port)
  /-- HELLO (R484). A HELLO authentication flit with the partner's nonce and identity is received. -/
  | hello (t : Time) (p : Port) (nonce : Nat)
  /-- PROOF (R484). A PROOF authentication flit is verified; the port becomes ACTIVE or is quarantined. -/
  | proof (t : Time) (p : Port) (pf : Proof)
  /-- NONCE_STALE (R484). An authentication nonce becomes stale 100 ms after issue. -/
  | nonceStale (t : Time) (p : Port)
  /-- RETRAIN (R318). A write of LNK_CTRL.RETRAIN returns the port to DETECT. -/
  | retrain (t : Time) (p : Port) (v : Word)
  /-- FORCE_QUARANTINE (R318). A write of LNK_CTRL.FORCE_QUARANTINE puts the port in or out of forced quarantine. -/
  | forceQuarantine (t : Time) (p : Port) (v : Word)
  /-- LPI_REQ (R321). A write of LNK_CTRL.LPI_REQ requests, or withdraws, low-power idle. -/
  | lpiReq (t : Time) (p : Port) (v : Word)
  /-- LPI_ENTRY (R321). The port enters LPI once both partners have requested it in management flits. -/
  | lpiEntry (t : Time) (p : Port)
  /-- PORT_LPI_EXIT (R321). A queued flit or a cleared request brings a port back from LPI to ACTIVE. -/
  | portLpiExit (t : Time) (p : Port)
  /-- PLANNED_LINK_FLIT (R324). A flit arrives at a planned position; a failed one is NAKed for replay. -/
  | plannedLinkFlit (t : Time) (p : Port) (n : Nat) (crcOk : Bool) (f : LinkFlit)
  /-- PLANNED_REPLAY (R324). A type 2 replay of a planned flit arrives in a dynamic position. -/
  | plannedReplay (t : Time) (p : Port) (crcOk : Bool) (f : LinkFlit)
  /-- PLANNED_DELIVERY (R323). At link slot ⌊n/13⌋ + D, planned flits are delivered to the mesh injection queues. -/
  | plannedDelivery (t : Time) (p : Port) (o : Fin 5) (entryOk : Bool)
  /-- DYNAMIC_LINK_FLIT (R327). A dynamic or management flit arrives and is delivered in sequence order, NAKed on a gap or CRC failure. -/
  | dynamicLinkFlit (t : Time) (p : Port) (crcOk : Bool) (f : LinkFlit) (nak : Option (Bool × Nat))
  /-- LINK_ERROR_WINDOW (R330). At the end of a 1 ms window the port checks lane and uncorrectable counts. -/
  | linkErrorWindow (t : Time) (p : Port) (corrected : List Nat) (words : FecWindow)
  /-- LANE_LOCK_LOSS (R330). A lane loses lock and the port leaves ACTIVE and retrains. -/
  | laneLockLoss (t : Time) (p : Port) (lane : Fin 8)
  /-- NO_FLIT_TIMEOUT (R330). No valid flit for 1 µs makes the port leave ACTIVE and retrain. -/
  | noFlitTimeout (t : Time) (p : Port)
  /-- ELASTIC_BUFFER_FAULT (R314). An elastic buffer overflows or underflows, records 0x5023, and the port leaves ACTIVE. -/
  | elasticBufferFault (t : Time) (p : Port) (overflow : Bool)
  /-- LINK_SLOT_SWAP_ARM (R329). A write of SLOT_CTRL.SWAP_ARM arms a link slot bank swap. -/
  | linkSlotSwapArm (t : Time) (p : Port) (v : Word)
  /-- INJECT_DROP (R334). Fault injection mode that sends selected flits as idle flits. -/
  | injectDrop (t : Time) (p : Port) (cls : Fin 3) (f : LinkFlit)
  /-- INJECT_CORRUPT (R334). Fault injection mode that inverts payload byte 17 of selected flits. -/
  | injectCorrupt (t : Time) (p : Port) (cls : Fin 3) (f : LinkFlit)
  /-- INJECT_REORDER (R334). Fault injection mode that swaps selected flits with the next of their class. -/
  | injectReorder (t : Time) (p : Port) (cls : Fin 3) (f : LinkFlit)
  /-- INJECT_DELAY (R334). Fault injection mode that holds selected flits for DELAY link slots. -/
  | injectDelay (t : Time) (p : Port) (cls : Fin 3) (f : LinkFlit)
  /-- CABLE_PRESENT_CHANGE (R520). CBL_PRESENT# reads high and the port enters QUARANTINE as absent at once. -/
  | cablePresentChange (t : Time) (p : Port) (present : Bool)
  /-- FABRIC_READ (R344). A read request arrives at a module and is forwarded or performed at its home. -/
  | fabricRead (t : Time) (p : Option Port) (inp : Fin 5) (ecc : Ecc) (m : FabMsg)
  /-- FABRIC_WRITE (R344). A write request arrives and is performed at its home, which then sends its completion. -/
  | fabricWrite (t : Time) (p : Option Port) (inp : Fin 5) (ecc : Ecc) (m : FabMsg)
  /-- FABRIC_ATOMIC (R345). An atomic request is performed indivisibly at its home and returns the old value. -/
  | fabricAtomic (t : Time) (p : Option Port) (inp : Fin 5) (ecc : Ecc) (m : FabMsg)
  /-- READ_RESPONSE (R343). A read response arrives at the requester. -/
  | readResponse (t : Time) (p : Option Port) (m : FabMsg)
  /-- WRITE_COMPLETION (R344). A write completion arrives at the requester. -/
  | writeCompletion (t : Time) (p : Option Port) (m : FabMsg)
  /-- ATOMIC_RESPONSE (R345). An atomic response with the old value arrives at the requester. -/
  | atomicResponse (t : Time) (p : Option Port) (m : FabMsg)
  /-- ERROR_RESPONSE (R343). An error response arrives at the requester. -/
  | errorResponse (t : Time) (p : Option Port) (m : FabMsg)
  /-- CONTROL_MESSAGE (R361). A control-class message arrives at its destination die. -/
  | controlMessage (t : Time) (m : CtlMsg)
  /-- HOME_QUEUE_ADMIT (R346). A request held at a full home queue enters once room appears. -/
  | homeQueueAdmit (t : Time) (die : Die) (inp : Fin 5)
  /-- REQUEST_DEADLINE_EXPIRY (R349). A command's deadline expires; its outstanding requests complete with 0x4014 and their slots become orphaned. -/
  | requestDeadlineExpiry (t : Time) (c : PhysCore)
  /-- ORPHAN_SLOT_RELEASE (R349). An orphaned slot is freed 65,536 ticks after expiry, or when its late response arrives. -/
  | orphanSlotRelease (t : Time) (c : PhysCore) (slot : Fin 512)
  /-- PROT_SWAP_ARM (R358). A write of PROT_CTRL.SWAP_ARM arms a protection bank swap. -/
  | protSwapArm (t : Time) (die : Die) (v : Word)
  /-- BARRIER (R362). GOP barrier: entry flags are reduced to the root and a release is broadcast. -/
  | barrier (t : Time) (v : Word)
  /-- BROADCAST (R362). GOP broadcast of GOP_DATA from the root to every module. -/
  | broadcast (t : Time) (v : Word)
  /-- SNAPSHOT (R362). GOP snapshot: the root chooses and broadcasts a capture frame. -/
  | snapshot (t : Time) (v : Word)
  /-- RESET (R362). GOP reset: the root broadcasts a reset frame. -/
  | resetOp (t : Time) (v : Word) (frame : Nat)
  /-- BARRIER_RELEASE (R362). A global operation's release or acknowledgement arrives and the operation completes on the module. -/
  | barrierRelease (t : Time) (op : Fin 5) (seq : Fin 256) (data : List Byte) (late : Option (Fin 65536))
  /-- SHARD_QUEUE (R384). A write of LD_TAG queues a shard on the load engine, or is refused with 0x10B2. -/
  | shardQueue (t : Time) (v : Word)
  /-- LOAD_SHARD_COMPLETE (R379). Every write of a shard has completed at its home and the firmware starts its digest. -/
  | loadShardComplete (t : Time) (data : List Byte) (err : Fin 65536)
  /-- LD_DEADLINE_EXPIRY (R379). A shard's load deadline expires and the shard ends with 0x4060. -/
  | ldDeadlineExpiry (t : Time)
  /-- LD_DONE_READ (R384). A read of LD_DONE pops one shard completion and latches LD_DONE_INFO. -/
  | ldDoneRead (t : Time)
  /-- DIGEST_START (R385). A write of DG_CTRL.START starts a SHA-384 digest of DG_TILES tiles. -/
  | digestStart (t : Time) (stack : Stack) (v : Word)
  /-- DIGEST_COMPLETE (R380). A digest ends and is compared with DG_EXPECT, recording 0x2070 on mismatch. -/
  | digestComplete (t : Time) (stack : Stack) (rest : Option (List Byte))
  /-- PERIODIC_DIGEST (R381). A shard's periodic digest falls due within its 600 s window. -/
  | periodicDigest (t : Time) (m : Fin 32) (shard : Nat)
  /-- POWER_SAMPLE (R403). Every 10 µs the input power is sampled and E_IN advances. -/
  | powerSample (t : Time) (sample : PowerIn)
  /-- CONTROLLER_MILLISECOND (R406). At each controller millisecond P_1MS is formed and the cap, pacing, THR levels, sprint, thermal and filler are updated. -/
  | controllerMillisecond (t : Time) (m : MsIn)
  /-- BLADE_CURRENT_LOSS (R389). One blade carries no current; single-blade operation begins with 0x6012. -/
  | bladeCurrentLoss (t : Time) (blade : Fin 2)
  /-- INPUT_UNDERVOLTAGE (R414). The 48 V input falls below 40.0 V; THR_INPUT becomes 16 and 0x6010 is recorded. -/
  | inputUndervoltage (t : Time) (volts : Nat)
  /-- INPUT_FAULT (R414). Input below 38.0 V for 2 ms or above 60.0 V for 1 ms records 0x6011 and begins a shutdown. -/
  | inputFault (t : Time) (above : Bool)
  /-- REFERENCE_CLOCK_LOSS (R394). The rack reference is lost; clocks go to holdover and 0x6030 is recorded. -/
  | referenceClockLoss (t : Time)
  /-- THERMAL_TRIP (R412). A reading of 110 °C or more turns off every rail but AUX and leaves the module in STANDBY. -/
  | thermalTrip (t : Time) (die : Die) (reading : Int)
  /-- DROOP (R413). A CORE rail droop lengthens the die's core clock periods to 9/8 until recovery. -/
  | droop (t : Time) (die : ComputeDie)
  /-- DROOP_TIMEOUT (R413). A droop lasting more than 4,096 cycles records 0x6020. -/
  | droopTimeout (t : Time) (die : ComputeDie) (k : Fin 18)
  /-- AUX_RAIL_LOSS (R419). The auxiliary rail is lost; the converters turn off and the module is OFF. -/
  | auxRailLoss (t : Time)
  /-- NEXT_FREQ (R397). A write of FSYNp.NEXT_FREQ programs the unused synthesiser, or is refused with 0x10C1. -/
  | nextFreq (t : Time) (c : PhysCore) (v : Word)
  /-- SYNTH_LOCKED (R395). A programmed synthesiser locks 40 µs after the write and NEXT_LOCKED reads 1. -/
  | synthLocked (t : Time) (c : PhysCore)
  /-- FSYN_ARM (R397). A write of FSYNp.ARM arms a glitch-free switch to the locked synthesiser. -/
  | fsynArm (t : Time) (c : PhysCore) (v : Word)
  /-- SYNTH_SWITCH (R397). A core that owns no stage switches synthesiser at its first cycle with no command in execution. -/
  | synthSwitch (t : Time) (c : PhysCore)
  /-- AUX_POWER_ON (R424). The auxiliary rail is applied; the Taproot die runs its ROM, clears retained memory and enters STANDBY. -/
  | auxPowerOn (t : Time) (slot : Fin 4)
  /-- COLD_START (R427). START_CMD cold start brings the module from STANDBY to READY through the steps of the cold start. -/
  | coldStart (t : Time) (e : StartEv)
  /-- WARM_START (R429). START_CMD warm start brings the module from PARKED to READY keeping Tier 1. -/
  | warmStart (t : Time) (e : StartEv)
  /-- SHUTDOWN_TO_PARKED (R436). START_CMD shutdown to PARKED begins a pre-commit window. -/
  | shutdownToParked (t : Time) (bmc : Bool)
  /-- SHUTDOWN_TO_STANDBY (R437). START_CMD shutdown to STANDBY begins a pre-commit window. -/
  | shutdownToStandby (t : Time) (bmc : Bool)
  /-- ABANDON_SHUTDOWN (R438). START_CMD abandon cancels a shutdown before its commit point. -/
  | abandonShutdown (t : Time) (bmc : Bool)
  /-- AUTO_COLD_START (R426). Under START_POLICY the Taproot die starts a cold start 100 ms after entering STANDBY. -/
  | autoColdStart (t : Time)
  /-- START_STEP_TIMEOUT (R428). A start step passes its limit; 0x9051 is recorded and the module returns to STANDBY. -/
  | startStepTimeout (t : Time)
  /-- SHUTDOWN_COMMIT (R437). The pre-commit window ends; frame sequencers stop at once and rails go down to the target. -/
  | shutdownCommit (t : Time)
  /-- DIE_RESET (R435). A write of TPR.DIE_RESET resets one die for 1 ms, or is refused with 0x10D0. -/
  | dieReset (t : Time) (v : Word)
  /-- DIE_RESET_END (R435). A die reset ends and its pages become reachable with reset values. -/
  | dieResetEnd (t : Time) (die : Die)
  /-- BST_RUN (R445). A write of BST_RUN starts a self-test slice while frames do not run. -/
  | bstRun (t : Time) (die : Die) (v : Word)
  /-- SELF_TEST_SLICE_DONE (R447). A self-test slice ends; failures are reported and the cursor and speed map are updated. -/
  | selfTestSliceDone (t : Time) (die : Die) (fail : Option (Nat × Nat)) (measured : Nat)
  /-- FAIL_HEAD_READ (R470). A read of FAIL_HEAD pops one failure report and latches FAIL_ADDR and FAIL_BIT. -/
  | failHeadRead (t : Time) (die : Die)
  /-- CURSOR_RST (R446). A write of BST_CTRL.CURSOR_RST returns the coppice cursor to the first slice. -/
  | cursorRst (t : Time) (die : Die) (v : Word)
  /-- MIRROR_EN (R452). A write of HANDOVER_CTRL.MIRROR_EN starts mirroring the source core's writes to the spare, or is refused with 0x10E3. -/
  | mirrorEn (t : Time) (c : PhysCore) (v : Word)
  /-- COPY_START (R453). A write of HANDOVER_CTRL.COPY_START starts copying the source scratchpad to the spare. -/
  | copyStart (t : Time) (c : PhysCore) (v : Word)
  /-- COPY_DONE (R453). The handover copy writes its last line and COPY_DONE is set. -/
  | copyDone (t : Time) (c : PhysCore)
  /-- MIRROR_END (R454). Mirroring ends once the source core has no command in execution and no request outstanding. -/
  | mirrorEnd (t : Time) (c : PhysCore)
  /-- TRUNK_HEARTBEAT (R456). The control clusters of dies 0 and 99 exchange a heartbeat every 100 µs. -/
  | trunkHeartbeat (t : Time) (k : Fin 2)
  /-- TRUNK_CLUSTER_LOST (R456). Ten missed heartbeats or a halt lose a cluster; the survivor takes over and records 0x9064. -/
  | trunkClusterLost (t : Time) (k : Fin 2) (halted : Bool)
  /-- MODULE_HEARTBEAT (R461). Die 0 sends a heartbeat every 100 µs to its X, Y and Z neighbours in the slice. -/
  | moduleHeartbeat (t : Time) (heard : List (Fin 65536))
  /-- HEARTBEAT_MISS (R461). HB_MISS consecutive missing heartbeats record 0x4070 and start a membership round. -/
  | heartbeatMiss (t : Time) (node : Fin 65536)
  /-- MEMBERSHIP_ROUND (R461). A membership round starts on OUT_OF_STEP, missing heartbeats or a DEPART notice, flooding alive messages. -/
  | membershipRound (t : Time)
  /-- ALIVE (R462). An alive message of a membership round arrives and is forwarded once. -/
  | alive (t : Time) (node : Fin 65536) (round : Nat)
  /-- MEMBERSHIP_WAIT_EXPIRY (R462). After MEMB_MS a module judges majority and broadcasts a decision or fences itself. -/
  | membershipWaitExpiry (t : Time)
  /-- DECISION (R462). A membership decision arrives; the module fences the lost set and fails over to the fallback unit. -/
  | decision (t : Time) (received : List Decision)
  /-- DECISION_TIMEOUT (R462). No decision within 20 ms makes the module fence itself. -/
  | decisionTimeout (t : Time)
  /-- DEPART (R468). A write of FO_CTRL.DEPART makes the module leave the slice as a planned failover. -/
  | depart (t : Time) (v : Word)
  /-- DEPART_NOTICE (R461). A DEPART notice arrives and starts a membership round. -/
  | departNotice (t : Time) (node : Fin 65536)
  /-- REBUILD_COMPLETE (R465). The rebuild unit's frames and digests complete and the resume unit swaps in. -/
  | rebuildComplete (t : Time) (digestsMatch : Bool)
  /-- ZERO_INIT (R465). A write of MBC.ZERO_INIT.START fills the stack with clean zero lines. -/
  | zeroInit (t : Time) (stack : Stack) (v : Word)
  /-- ZERO_INIT_DONE (R465). Zero initialisation of the stack completes. -/
  | zeroInitDone (t : Time) (stack : Stack)
  /-- STATUS (R482). Heartwood service returning the die status. -/
  | status (t : Time) (k : Fin 2)
  /-- AUTH_CHALLENGE (R476). Heartwood service issuing a fresh 48-byte challenge for role authentication. -/
  | authChallenge (t : Time) (k : Fin 2)
  /-- AUTH_RESPOND (R476). Heartwood service verifying a signed challenge and granting a role, or recording 0x8053. -/
  | authRespond (t : Time) (k : Fin 2) (ok extension : Bool)
  /-- AUTH_LOCKOUT_EXPIRY (R476). The 60 s authentication lockout after 8 failures ends. -/
  | authLockoutExpiry (t : Time)
  /-- LOGOUT (R476). Heartwood service ending the caller's role and withdrawing any Service permission. -/
  | logout (t : Time) (k : Fin 2)
  /-- VERIFY_FIRMWARE (R479). Heartwood service verifying a firmware image's chain, signature, digest and SVN. -/
  | verifyFirmware (t : Time) (k : Fin 2) (img : FwImage)
  /-- VERIFY_SIGNATURE (R482). Heartwood service verifying a manifest, plan or certificate chain signature. -/
  | verifySignature (t : Time) (k : Fin 2) (n : Nat) (ok : Bool)
  /-- UNWRAP_INSTALL (R377). Heartwood service unwrapping a manifest key and installing it on the key bus. -/
  | unwrapInstall (t : Time) (k : Fin 2) (die : Die) (keyId : Nat) (key : BitVec 256) (salt : Nat) (ok : Bool)
  /-- CLEAR_KEYS (R482). Heartwood service clearing installed shard keys. -/
  | clearKeys (t : Time) (k : Fin 2)
  /-- LINK_SIGN (R484). Heartwood service signing link authentication data with the Alias key. -/
  | linkSign (t : Time) (k : Fin 2) (data : List Byte)
  /-- LINK_VERIFY (R484). Heartwood service verifying a link partner's chain and signature. -/
  | linkVerify (t : Time) (k : Fin 2) (ok : Bool)
  /-- QUOTE (R483). Heartwood service signing an attestation quote. -/
  | quote (t : Time) (k : Fin 2) (nonce : List Byte)
  /-- RANDOM (R482). Heartwood service returning up to 256 bytes from the DRBG. -/
  | random (t : Time) (k : Fin 2) (n : Nat)
  /-- IMPORT_KEK (R478). Heartwood service importing an appliance KEK into a slot. -/
  | importKek (t : Time) (k : Fin 2) (slot : Fin 8) (id : Nat) (key : BitVec 256) (ok : Bool)
  /-- IMPORT_APPLIANCE (R478). Heartwood service importing the appliance public key and certificates. -/
  | importAppliance (t : Time) (k : Fin 2) (data : List Byte) (ok : Bool)
  /-- ADVANCE_FLOOR (R480). Heartwood service raising SVN_FLOOR to the running image's SVN. -/
  | advanceFloor (t : Time) (k : Fin 2)
  /-- SERVICE_PERMIT (R487). Heartwood service zeroising keys and sending the Service permission to every die. -/
  | servicePermit (t : Time) (k : Fin 2)
  /-- SERVICE_PERMISSION_ARRIVAL (R487). A grant or withdrawal of Service permission arrives at a die and applies there. -/
  | servicePermissionArrival (t : Time) (die : Die)
  /-- DEBUG_UNLOCK (R488). Heartwood service zeroising and then opening the debug and scan lines. -/
  | debugUnlock (t : Time) (k : Fin 2) (tokenOk : Bool)
  /-- ZEROISE (R486). Heartwood service overwriting every volatile CSP and installed key with zeros. -/
  | zeroise (t : Time) (k : Fin 2)
  /-- SERVICE_COMPLETE (R482). A Heartwood service completes and CMD_STATUS reports its result. -/
  | serviceComplete (t : Time)
  /-- ENVIRONMENTAL_FAILURE (R475). A supply or temperature outside range zeroises every CSP and records 0x8056. -/
  | environmentalFailure (t : Time) (temperature : Bool)
  /-- FIRMWARE_LOAD (R491). A write of FW_CMD.LOAD loads and verifies Fradin firmware and forms the module feature word. -/
  | firmwareLoad (t : Time) (v : Word) (readOk : Bool) (img : FwImage) (smap : Option (List Byte))
  /-- PAGE_INTERRUPT (R499). A page interrupt output asserts and is routed to an MSI-X vector or serviced by the firmware. -/
  | pageInterrupt (t : Time) (die : Die) (page : Fin 256)
  /-- LOG_MIRROR_COPY (R506). In each control slot the firmware copies new log entries to the host mirror and advances its tail. -/
  | logMirrorCopy (t : Time) (k : Fin 2) (failAt : Option Nat)
  /-- SET_CABLING_RECORD (R504). PLDM command delivering the cabling record to the Taproot die. -/
  | setCablingRecord (t : Time) (bytes : List Byte)
  /-- GET_CABLING_RECORD (R503). PLDM command returning the cabling record. -/
  | getCablingRecord (t : Time)
  /-- GET_SPEED_MAP (R503). PLDM command returning the speed map. -/
  | getSpeedMap (t : Time)
  /-- GET_FAULT_RECORD (R503). PLDM command returning the fault record. -/
  | getFaultRecord (t : Time)
  /-- SET_SPEED_MAP (R433). PLDM command delivering an installation speed map in STANDBY. -/
  | setSpeedMap (t : Time) (bytes : List Byte)
  /-- PERST_ASSERT (R518). PERST# asserts, resetting die 1's PCIe link and function and holding the link down. -/
  | perstAssert (t : Time)
  /-- PERST_DEASSERT (R518). PERST# deasserts and die 1 begins link training within 20 ms. -/
  | perstDeassert (t : Time)
  /-- FUNCTION_LEVEL_RESET (R497). A Function Level Reset resets the PCIe function's configuration, MSI-X state and outstanding host reads. -/
  | functionLevelReset (t : Time)
  /-- TRACE_ARM (R508). A write of TRC_CTRL.ARM from IDLE moves the capture unit to PRE. -/
  | traceArm (t : Time) (die : Die) (v : Word)
  /-- TRACE_DISARM (R512). A write of ARM 0 returns the capture unit to IDLE from any state. -/
  | traceDisarm (t : Time) (die : Die) (v : Word)
  /-- TRACE_RELEASE (R508). A write of TRC_CTRL.RELEASE starts REARM for 64 mesh cycles. -/
  | traceRelease (t : Time) (die : Die) (v : Word)
  /-- SW_TRIGGER (R509). A write of TRC_CTRL.SW_TRIGGER triggers the capture unit. -/
  | swTrigger (t : Time) (die : Die) (v : Word)
  /-- TRACE_TRIGGER (R509). A matching error code, IRQ bit or frame number triggers a capture, or counts in TRC_MISSED. -/
  | traceTrigger (t : Time) (die : Die)
  /-- XDIE_TRIGGER (R509). A cross-die trigger message arrives and triggers a die with XDIE_IN set. -/
  | xdieTrigger (t : Time) (die : Die)
  /-- TRACE_PRE_FILLED (R508). The unit holds PRE records and enters ARMED. -/
  | tracePreFilled (t : Time) (die : Die)
  /-- TRACE_CAPTURE_COMPLETE (R508). POST records are complete; the unit enters HOLD and raises its interrupt. -/
  | traceCaptureComplete (t : Time) (die : Die)
  /-- REARM_END (R508). REARM ends after 64 mesh cycles and the unit enters PRE. -/
  | rearmEnd (t : Time) (die : Die)
  /-- HOST_LINK_UP (R305). A host link (PCIe of die 1 or CXL of die 98) comes back to the up state, ending the 0x3061 outcome for queued tier moves. -/
  | hostLinkUp (t : Time) (hl : Fin 2) (rate : Fin 8) (width : Fin 32)
  /-- REFERENCE_CLOCK_RETURN (R394). The rack reference returns after a loss, REF_LOCK is regained and a start waiting on the reference resumes. -/
  | referenceClockReturn (t : Time)
  /-- DROOP_RECOVERY (R413). The CORE rail has recovered for 16 cycles and the die's core clock periods return from 9/8 to nominal. -/
  | droopRecovery (t : Time) (die : ComputeDie)
  /-- CONTINUOUS_HEALTH_TEST_FAILURE (R477). A continuous health test of the Heartwood entropy source fails, putting the die in the error state with full zeroisation. -/
  | continuousHealthTestFailure (t : Time)
deriving DecidableEq, Repr

end Sys2Proof
end

