-- ==== Sys2Proof/Decode.lean ====
section
/-!
DEFINITION. Sys2Proof/Decode.lean: the commands that a word of spec/opcode_table.json spells. No row of the table gives bits (every
row's "fields" is empty), so no word spells a command.
-/
namespace Sys2Proof

/-- The command that a word spells by the table's bits: none, for no row gives any. -/
def decodeTableWord (_nbits _w : Nat) : Option Instr := none

end Sys2Proof
end

