-- ==== Sys2Proof/Machine/Maps.lean ====
section
/-!
DEFINITION. Sys2Proof/Machine/Maps.lean: sparse data by key. A `Map` is a list of key and value pairs; in its canonical form
(`mapWf`) the keys rise strictly and no pair holds the value that an unlisted key reads as.
-/
namespace Sys2Proof.Machine

/-- The value at key `k`, or `d` where the map lists none. -/
def mapGet {α : Type} (m : Map α) (k : Nat) (d : α) : α :=
  match m with
  | [] => d
  | (a, v) :: r => if a = k then v else mapGet r k d

/-- The value at key `k`, if the map lists one. -/
def mapFind {α : Type} (m : Map α) (k : Nat) : Option α :=
  match m with
  | [] => none
  | (a, v) :: r => if a = k then some v else mapFind r k

/-- The map with value `v` at key `k`. -/
def mapSet {α : Type} (m : Map α) (k : Nat) (v : α) : Map α :=
  match m with
  | [] => [(k, v)]
  | (a, w) :: r =>
    if a = k then (k, v) :: r
    else if k < a then (k, v) :: (a, w) :: r
    else (a, w) :: mapSet r k v

/-- The map without key `k`. -/
def mapErase {α : Type} (m : Map α) (k : Nat) : Map α :=
  match m with
  | [] => []
  | (a, w) :: r => if a = k then mapErase r k else (a, w) :: mapErase r k

/-- The map without the keys from `lo` up to but not including `hi`. -/
def mapEraseRange {α : Type} (m : Map α) (lo hi : Nat) : Map α :=
  match m with
  | [] => []
  | (a, w) :: r => if lo ≤ a ∧ a < hi then mapEraseRange r lo hi else (a, w) :: mapEraseRange r lo hi

/-- The map with `v` at key `k`, in canonical form for the default `d`. -/
def mapPut {α : Type} [DecidableEq α] (d : α) (m : Map α) (k : Nat) (v : α) : Map α :=
  if v = d then mapErase m k else mapSet m k v

/-- Every key of the map lies above `k`. -/
def mapAbove {α : Type} (k : Nat) (m : Map α) : Bool :=
  match m with
  | [] => true
  | (a, _) :: r => decide (k < a) && mapAbove k r

/-- Canonical form: keys strictly rising, and no value equal to what its key reads as unlisted. -/
def mapWf {α : Type} [DecidableEq α] (d : Nat → α) (m : Map α) : Bool :=
  match m with
  | [] => true
  | (a, v) :: r => decide (v ≠ d a) && mapAbove a r && mapWf d r

/-- The number list `lo, lo + 1, …` of length `n`. -/
def upFrom (lo n : Nat) : List Nat :=
  match n with
  | 0 => []
  | k + 1 => lo :: upFrom (lo + 1) k

/-- The element of a list at an index, or a default beyond its end. -/
def nth {α : Type} (l : List α) (i : Nat) (d : α) : α :=
  match l, i with
  | [], _ => d
  | x :: _, 0 => x
  | _ :: r, k + 1 => nth r k d

/-- The list with its element at an index replaced; unchanged beyond its end. -/
def setNth {α : Type} (l : List α) (i : Nat) (v : α) : List α :=
  match l, i with
  | [], _ => []
  | _ :: r, 0 => v :: r
  | x :: r, k + 1 => x :: setNth r k v

/-- The state carried through a list of items, first to last. -/
def foldState {σ α : Type} (f : σ → α → σ) (s : σ) (l : List α) : σ :=
  match l with
  | [] => s
  | x :: r => foldState f (f s x) r

/-- Whether a 64-bit word that holds one of `n` bytes of a transfer from byte `lo` is marked poisoned; marks are numbers of words from the
transfer's first byte (R47, R84). -/
def marked (l : List Nat) (lo n : Nat) : Bool := l.any (fun k => decide (8 * k < lo + n) && decide (lo < 8 * k + 8))

/-- The marks of all words of `n` bytes, or none. -/
def allMarks (p : Bool) (n : Nat) : List Nat := if p then upFrom 0 ((n + 7) / 8) else []

end Sys2Proof.Machine
end

