-- ==== Sys2Proof/Machine/Bits.lean ====
section
/-!
DEFINITION. Sys2Proof/Machine/Bits.lean: bit fields of words, byte order and saturation. A bit range is written [msb:lsb] in
the manual; here it is its lowest bit and its length.
-/
namespace Sys2Proof.Machine

/-- The unsigned value of the field of `n` bits from bit `lo`. -/
def fld {w : Nat} (x : BitVec w) (lo n : Nat) : Nat := (x.toNat >>> lo) % 2 ^ n

/-- Bit `i` of a word. -/
def tbit {w : Nat} (x : BitVec w) (i : Nat) : Bool := x.getLsbD i

/-- The mask of the field of `n` bits from bit `lo`. -/
def fmask (w lo n : Nat) : BitVec w := BitVec.ofNat w ((2 ^ n - 1) * 2 ^ lo)

/-- The word with the field of `n` bits from bit `lo` replaced by `v` (modulo its width). -/
def setFld {w : Nat} (x : BitVec w) (lo n v : Nat) : BitVec w :=
  (x &&& ~~~(fmask w lo n)) ||| BitVec.ofNat w ((v % 2 ^ n) * 2 ^ lo)

/-- The word with bit `i` replaced. -/
def setBit {w : Nat} (x : BitVec w) (i : Nat) (b : Bool) : BitVec w := setFld x i 1 (if b then 1 else 0)

/-- 1 for true, 0 for false. -/
def b2n (b : Bool) : Nat := if b then 1 else 0

/-- The word `old` with the bits of `mask` taken from `v`. -/
def maskWrite (old mask v : Word) : Word := (old &&& ~~~mask) ||| (v &&& mask)

/-- `n` bytes of a number, least significant first (R55). -/
def toLE (n v : Nat) : List Byte :=
  match n with
  | 0 => []
  | k + 1 => BitVec.ofNat 8 v :: toLE k (v / 256)

/-- The number that bytes spell, least significant first (R55). -/
def ofLE (l : List Byte) : Nat :=
  match l with
  | [] => 0
  | b :: r => b.toNat + 256 * ofLE r

/-- Division rounded up. -/
def ceilDiv (a b : Nat) : Nat := (a + b - 1) / b

/-- The number rounded up to a multiple. -/
def roundUp (a b : Nat) : Nat := ceilDiv a b * b

/-- The two's complement value of the low `n` bits of a number. -/
def signed (n v : Nat) : Int :=
  let u := v % 2 ^ n
  if u < 2 ^ (n - 1) then (u : Int) else (u : Int) - (2 ^ n : Nat)

/-- The low `n` bits of an integer, as a number. -/
def unsign (n : Nat) (v : Int) : Nat := (v % ((2 ^ n : Nat) : Int)).toNat

end Sys2Proof.Machine
end

