-- ==== Sys2Proof/Machine/Fp.lean ====
section
/-!
DEFINITION. Sys2Proof/Machine/Fp.lean: exact binary arithmetic and rounding (R90, R99, R106, R107). A value is held exactly; every
rounding is one call of `roundMag`, so each operation rounds as often as the manual says and no more.
-/
namespace Sys2Proof.Machine

/-- A number held exactly: (−1)^neg × m × 2^e, an infinity or a NaN. -/
inductive Val where
  | fin (neg : Bool) (m : Nat) (e : Int)
  | inf (neg : Bool)
  | nan
deriving DecidableEq, Repr

/-- The rounding modes of R99, by the code of CONVERT's IMM[1:0]. -/
inductive Rnd where
  | nearestEven
  | towardZero
  | down
  | up
deriving DecidableEq, Repr

/-- The rounding mode of a CONVERT code (R99). -/
def rndOf (n : Nat) : Rnd :=
  match n % 4 with
  | 0 => .nearestEven
  | 1 => .towardZero
  | 2 => .down
  | _ => .up

/-- How the magnitude of a number of a sign is rounded. -/
inductive MagRnd where
  | nearest
  | trunc
  | away
deriving DecidableEq, Repr

/-- The rounding of the magnitude that a mode means for a number of a sign. -/
def magRnd (r : Rnd) (neg : Bool) : MagRnd :=
  match r with
  | .nearestEven => .nearest
  | .towardZero => .trunc
  | .down => if neg then .away else .trunc
  | .up => if neg then .trunc else .away

/-- 2^k for a natural exponent taken from an integer. -/
def pow2 (k : Int) : Nat := 2 ^ k.toNat

/-- Whether n / d × 2^e is below 2^l. -/
def ratBelowPow (n d : Nat) (e l : Int) : Bool :=
  if l ≤ e then decide (n * pow2 (e - l) < d) else decide (n < d * pow2 (l - e))

/-- The largest l with 2^l ≤ n / d × 2^e, for n and d above 0. -/
def ratLog2 (n d : Nat) (e : Int) : Int :=
  let l : Int := (Nat.log2 n : Int) - (Nat.log2 d : Int) + e
  if ratBelowPow n d e l then l - 1 else l

/-- n / d rounded to a whole number. -/
def divRound (r : MagRnd) (n d : Nat) : Nat :=
  let q := n / d
  let x := n % d
  match r with
  | .trunc => q
  | .away => if x = 0 then q else q + 1
  | .nearest => if 2 * x > d then q + 1 else if 2 * x = d then q + q % 2 else q

/-- n / d × 2^e rounded to a whole multiple of 2^k. -/
def roundTo (r : MagRnd) (n d : Nat) (e k : Int) : Nat :=
  if k ≤ e then divRound r (n * pow2 (e - k)) d else divRound r n (d * pow2 (k - e))

/-- n / d × 2^e rounded to `p` bits with no exponent limit above and the smallest quantum 2^qmin below: the pair (q, k) of the
result q × 2^k, where q < 2^p, and 2^(p−1) ≤ q unless k is qmin. -/
def roundMag (r : MagRnd) (p : Nat) (qmin : Int) (n d : Nat) (e : Int) : Nat × Int :=
  if n = 0 then (0, qmin)
  else
    let k := max qmin (ratLog2 n d e - (p : Int) + 1)
    let q := roundTo r n d e k
    if q = 2 ^ p then (2 ^ (p - 1), k + 1) else (q, k)

/-- Whether a × 2^ea exceeds b × 2^eb. -/
def dyGt (a : Nat) (ea : Int) (b : Nat) (eb : Int) : Bool :=
  if eb ≤ ea then decide (a * pow2 (ea - eb) > b) else decide (a > b * pow2 (eb - ea))

/-- The negated value. -/
def vNeg (x : Val) : Val :=
  match x with
  | .fin s m e => .fin (!s) m e
  | .inf s => .inf (!s)
  | .nan => .nan

/-- The signed mantissa of a value at an exponent not above its own. -/
def vAt (s : Bool) (m : Nat) (e lo : Int) : Int :=
  if s then -((m * pow2 (e - lo) : Nat) : Int) else ((m * pow2 (e - lo) : Nat) : Int)

/-- The exact sum. An exact zero is +0 unless both terms are −0, as round-to-nearest has it (IEEE 754, R90). -/
def vAdd (x y : Val) : Val :=
  match x, y with
  | .nan, _ => .nan
  | _, .nan => .nan
  | .inf s, .inf t => if s = t then .inf s else .nan
  | .inf s, .fin _ _ _ => .inf s
  | .fin _ _ _, .inf t => .inf t
  | .fin s m e, .fin t n f =>
    if m = 0 ∧ n = 0 then .fin (s && t) 0 0
    else
      let lo := min e f
      let z := vAt s m e lo + vAt t n f lo
      .fin (decide (z < 0)) z.natAbs lo

/-- The exact product. -/
def vMul (x y : Val) : Val :=
  match x, y with
  | .nan, _ => .nan
  | _, .nan => .nan
  | .inf s, .inf t => .inf (xor s t)
  | .inf s, .fin t n _ => if n = 0 then .nan else .inf (xor s t)
  | .fin s m _, .inf t => if m = 0 then .nan else .inf (xor s t)
  | .fin s m e, .fin t n f => .fin (xor s t) (m * n) (e + f)

/-- The value of an FP32 word (R90). -/
def f32dec (w : Word) : Val :=
  let s := tbit w 31
  let x := fld w 23 8
  let m := fld w 0 23
  if x = 255 then (if m = 0 then .inf s else .nan)
  else if x = 0 then .fin s m (-149)
  else .fin s (m + 2 ^ 23) ((x : Int) - 150)

/-- The code of q × 2^k in a format of `mb` mantissa bits whose smallest quantum is 2^qmin, without the sign. -/
def encodeMag (mb : Nat) (qmin : Int) (q : Nat) (k : Int) : Nat :=
  if q < 2 ^ mb then q else (k - qmin + 1).toNat * 2 ^ mb + (q - 2 ^ mb)

/-- The canonical FP32 NaN (R90). -/
def f32NaN : Word := 0x7FC00000#32

/-- The FP32 infinity of a sign. -/
def f32Inf (s : Bool) : Word := if s then 0xFF800000#32 else 0x7F800000#32

/-- The largest finite FP32 number of a sign. -/
def f32Max (s : Bool) : Word := if s then 0xFF7FFFFF#32 else 0x7F7FFFFF#32

/-- n / d × 2^e of a sign rounded once to FP32; past the range it is an infinity. -/
def f32ofRat (r : Rnd) (s : Bool) (n d : Nat) (e : Int) : Word :=
  let p := roundMag (magRnd r s) 24 (-149) n d e
  let c := encodeMag 23 (-149) p.1 p.2
  if c ≥ 255 * 2 ^ 23 then f32Inf s
  else BitVec.ofNat 32 (c + if s then 2 ^ 31 else 0)

/-- A value rounded once to FP32, nearest-even (R90, R98, R107). -/
def f32ofVal (x : Val) : Word :=
  match x with
  | .nan => f32NaN
  | .inf s => f32Inf s
  | .fin s m e => f32ofRat .nearestEven s m 1 e

/-- Whether an FP32 word is a NaN. -/
def f32isNaN (w : Word) : Bool := decide (f32dec w = .nan)

/-- FP32 addition, rounded once. -/
def f32add (a b : Word) : Word := f32ofVal (vAdd (f32dec a) (f32dec b))

/-- FP32 subtraction, rounded once. -/
def f32sub (a b : Word) : Word := f32ofVal (vAdd (f32dec a) (vNeg (f32dec b)))

/-- FP32 multiplication, rounded once. -/
def f32mul (a b : Word) : Word := f32ofVal (vMul (f32dec a) (f32dec b))

/-- FP32 fused multiply-add a × b + c, rounded once (R73, R108). -/
def f32fma (a b c : Word) : Word := f32ofVal (vAdd (vMul (f32dec a) (f32dec b)) (f32dec c))

/-- The order of two values that are not NaN, −0 below +0 (R541). -/
def vLt (x y : Val) : Bool :=
  match x, y with
  | .nan, _ => false
  | _, .nan => false
  | .inf s, .inf t => s && !t
  | .inf s, .fin _ _ _ => s
  | .fin _ _ _, .inf t => !t
  | .fin s m e, .fin t n f =>
    if m = 0 ∧ n = 0 then s && !t
    else
      let lo := min e f
      decide (vAt s m e lo < vAt t n f lo)

/-- Whether one FP32 number is below another; false when either is NaN. −0 is below +0 (R541). -/
def f32lt (a b : Word) : Bool := vLt (f32dec a) (f32dec b)

/-- FP32 maximum: the canonical NaN when either is NaN (R541). -/
def f32max (a b : Word) : Word :=
  if f32isNaN a || f32isNaN b then f32NaN else if f32lt a b then b else a

/-- FP32 minimum: the canonical NaN when either is NaN (R541). -/
def f32min (a b : Word) : Word :=
  if f32isNaN a || f32isNaN b then f32NaN else if f32lt b a then b else a

/-- The whole square root of `n`, found bit by bit from bit `b` down. -/
def isqrtFrom (n : Nat) (b acc : Nat) : Nat :=
  match b with
  | 0 => if (acc + 1) * (acc + 1) ≤ n then acc + 1 else acc
  | k + 1 =>
    let t := acc + 2 ^ (k + 1)
    isqrtFrom n k (if t * t ≤ n then t else acc)

/-- The square root of m × 2^e rounded once to FP32, nearest-even. -/
def f32sqrtMag (m : Nat) (e : Int) : Word :=
  if m = 0 then 0
  else
    let up : Nat := 64 + (e % 2).toNat
    let n := m * 2 ^ up
    let r := isqrtFrom n 46 0
    f32ofRat .nearestEven false (2 * r + if r * r = n then 0 else 1) 1 ((e - (up : Int)) / 2 - 1)

/-- The correctly rounded FP32 square root (R111, R541); NaN below zero. -/
def f32sqrt (w : Word) : Word :=
  match f32dec w with
  | .nan => f32NaN
  | .inf s => if s then f32NaN else f32Inf false
  | .fin s m e => if m = 0 then w else if s then f32NaN else f32sqrtMag m e

/-- The FP32 word of a natural number, rounded once. -/
def f32ofNat (n : Nat) : Word := f32ofRat .nearestEven false n 1 0

/-- The FP32 word of an integer, rounded once. -/
def f32ofInt (z : Int) : Word := f32ofRat .nearestEven (decide (z < 0)) z.natAbs 1 0

end Sys2Proof.Machine
end

