-- ==== Sys2Proof/Machine/Formats.lean ====
section
/-!
DEFINITION. Sys2Proof/Machine/Formats.lean: the element formats (R54, R90 to R96), the scales (R97, R98) and the conversion of an
FP32 value to a format with or without a scale (R99 to R103). Format and scale codes are the numbers of R54.
-/
namespace Sys2Proof.Machine

/-- Bits an element takes in storage, times 5 so that TRN (five elements in a byte) is whole (R54, R55). -/
def fmtBits5 (f : Nat) : Nat :=
  match f with
  | 0 => 160
  | 1 => 80
  | 2 => 80
  | 3 => 40
  | 4 => 40
  | 5 => 30
  | 6 => 30
  | 7 => 20
  | 8 => 40
  | 9 => 20
  | 10 => 8
  | 11 => 20
  | _ => 0

/-- Bytes of a row of `k` elements (R55). -/
def rowBytes (f k : Nat) : Nat := ceilDiv (k * fmtBits5 f) 40

/-- Bytes per element, rounded up to a whole byte (R81). -/
def fmtByteUp (f : Nat) : Nat := ceilDiv (fmtBits5 f) 40

/-- Whether a format code is assigned (R54). -/
def fmtKnown (f : Nat) : Bool := decide (f ≤ 11)

/-- Whether a scale mode is permitted for a format (R54). -/
def scaleAllowed (f sc : Nat) : Bool :=
  match sc with
  | 0 => true
  | 1 => decide (3 ≤ f ∧ f ≤ 8)
  | 2 => decide (3 ≤ f ∧ f ≤ 11)
  | 3 => decide (f = 8 ∨ f = 9)
  | _ => false

/-- Elements of a scaling block; a whole row of `k` elements in mode 3 (R54). -/
def blockLen (sc k : Nat) : Nat :=
  match sc with
  | 1 => 32
  | 2 => 16
  | _ => max k 1

/-- Scale blocks of a row (R55). -/
def blocksPerRow (sc k : Nat) : Nat := if sc = 0 then 0 else if sc = 3 then 1 else ceilDiv k (blockLen sc k)

/-- Bytes of one scale (R56). -/
def scaleBytes (sc : Nat) : Nat := if sc = 3 then 4 else 1

/-- Bytes from one row of scales to the next (R56). -/
def scalePitch (sc k : Nat) : Nat := roundUp (blocksPerRow sc k * scaleBytes sc) 64

/-- The mantissa bits and exponent bias of a floating-point format (R90, R91). -/
def fpShape (f : Nat) : Nat × Nat × Nat :=
  -- exponent bits, mantissa bits, bias
  match f with
  | 0 => (8, 23, 127)
  | 1 => (8, 7, 127)
  | 2 => (5, 10, 15)
  | 3 => (4, 3, 7)
  | 4 => (5, 2, 15)
  | 5 => (3, 2, 3)
  | 6 => (2, 3, 1)
  | _ => (2, 1, 1)

/-- The smallest exponent of a floating-point format's quantum. -/
def fpQmin (f : Nat) : Int :=
  let x := fpShape f
  1 - (x.2.2 : Int) - (x.2.1 : Int)

/-- The value of a floating-point code by its fields (R90, R91). -/
def fpDecode (f c : Nat) : Val :=
  let x := fpShape f
  let s := decide (c / 2 ^ (x.1 + x.2.1) % 2 = 1)
  let ex := c / 2 ^ x.2.1 % 2 ^ x.1
  let m := c % 2 ^ x.2.1
  let top := 2 ^ x.1 - 1
  if (f ≤ 2 ∨ f = 4) ∧ ex = top then (if m = 0 then .inf s else .nan)
  else if f = 3 ∧ ex = top ∧ m = 7 then .nan
  else if ex = 0 then .fin s m (fpQmin f)
  else .fin s (m + 2 ^ x.2.1) (fpQmin f + (ex : Int) - 1)

/-- The value of trit digit `d` (R95). -/
def tritVal (d : Nat) : Val :=
  match d with
  | 1 => .fin false 1 0
  | 2 => .fin true 1 0
  | _ => .fin false 0 0

/-- The value of an element's code, without its scale (R90 to R95). A TRN code is its digit. INT8 carries 2^−6 in mode 1 (R93). -/
def elemDecode (f sc c : Nat) : Val :=
  match f with
  | 8 => let z := signed 8 c; .fin (decide (z < 0)) z.natAbs (if sc = 1 then -6 else 0)
  | 9 => let z := signed 4 c; .fin (decide (z < 0)) z.natAbs 0
  | 10 => tritVal c
  | 11 =>
    let k := c % 8
    if k = 0 then .fin false 0 0 else .fin (decide (c / 8 % 2 = 1)) 1 ((k : Int) - 7)
  | _ => fpDecode f c

/-- The value of a scale code (R97). -/
def scaleDecode (sc c : Nat) : Val :=
  match sc with
  | 1 => if c % 256 = 255 then .nan else .fin false 1 ((c % 256 : Nat) - 127 : Int)
  | 2 =>
    let ex := c / 8 % 32
    let m := c % 8
    if c % 256 = 255 then .nan
    else if ex = 0 then .fin false m (-17)
    else .fin false (m + 8) ((ex : Int) - 18)
  | 3 => f32dec (BitVec.ofNat 32 c)
  | _ => .fin false 1 0

/-- A decoded element under a decoded scale, before their product (R98): a NaN scale makes it NaN, a zero fine-block scale zero. -/
def underScale (sc : Nat) (scale x : Val) : Val :=
  match scale with
  | .nan => .nan
  | .fin _ m _ => if sc = 2 ∧ m = 0 then .fin false 0 0 else x
  | .inf _ => x

/-- The data events of R103, in the order of their codes' last digit. -/
inductive DataEvent where
  | nanToZero      -- 0x2030
  | badTrit        -- 0x2031
  | infSaturated   -- 0x2032, of one element
  | nanBlock       -- 0x2033
  | overflow       -- 0x2034
  | infBlock       -- 0x2032, of one block
  | zeroBlock      -- counted only
deriving DecidableEq, Repr

/-- The largest finite element value of a format (R91, R93, R94, R101), as m × 2^e. -/
def vmaxOf (f sc : Nat) : Nat × Int :=
  match f with
  | 0 => (2 ^ 24 - 1, 104)
  | 1 => (255, 120)
  | 2 => (2047, 5)
  | 3 => (448, 0)
  | 4 => (57344, 0)
  | 5 => (28, 0)
  | 6 => (15, -1)
  | 7 => (6, 0)
  | 8 => if sc = 1 then (127, -6) else (127, 0)
  | 9 => (7, 0)
  | _ => (1, 0)

/-- The code of the largest finite magnitude of a format, without its sign. -/
def maxCode (f : Nat) : Nat :=
  match f with
  | 0 => 0x7F7FFFFF
  | 1 => 0x7F7F
  | 2 => 0x7BFF
  | 3 => 0x7E
  | 4 => 0x7B
  | 5 => 0x1F
  | 6 => 0x1F
  | 7 => 0x7
  | 8 => 127
  | 9 => 7
  | 10 => 1
  | _ => 7

/-- A magnitude code of a format with a sign; a TRN code is its digit (R91, R93, R94, R95). -/
def withSign (f : Nat) (s : Bool) (c : Nat) : Nat :=
  match f with
  | 8 => if s then (256 - c) % 256 else c
  | 9 => if s then (16 - c) % 16 else c
  | 10 => if c = 0 then 0 else if s then 2 else 1
  | 11 => if c = 0 then 0 else if s then c + 8 else c
  | _ =>
    let x := fpShape f
    if s then c + 2 ^ (x.1 + x.2.1) else c

/-- The NaN code of a format that has one (R90, R91). -/
def nanCode (f : Nat) : Option Nat :=
  match f with
  | 0 => some 0x7FC00000
  | 1 => some 0x7FC0
  | 2 => some 0x7E00
  | 3 => some 0x7F
  | 4 => some 0x7E
  | _ => none

/-- The infinity code of a format that has one, without its sign. -/
def infCode (f : Nat) : Option Nat :=
  match f with
  | 0 => some 0x7F800000
  | 1 => some 0x7F80
  | 2 => some 0x7C00
  | 4 => some 0x7C
  | _ => none

/-- n / d × 2^e rounded to L4 as though its exponent had no limit above: the code, 0 or 7 plus the exponent (R94, R99). A tie goes
to the even code. -/
def l4Round (r : MagRnd) (n d : Nat) (e : Int) : Nat :=
  if n = 0 then 0
  else
    let l := ratLog2 n d e
    if l < -6 then
      -- between 0 and 2^−6
      match r with
      | .trunc => 0
      | .away => 1
      | .nearest => if roundTo .away n d e (-7) ≥ 2 then 1 else 0
    else
      let c := (l + 7).toNat
      let exact : Bool := decide (roundTo .trunc n d e l = 1 ∧ roundTo .away n d e l = 1)
      match r with
      | .trunc => c
      | .away => if exact then c else c + 1
      | .nearest =>
        -- the midpoint of 2^l and 2^(l+1) is 3 × 2^(l−1)
        let fl := roundTo .trunc n d e (l - 1)
        let ce := roundTo .away n d e (l - 1)
        if fl < 3 then c else if fl = 3 ∧ ce = 3 then (if c % 2 = 0 then c else c + 1) else c + 1

/-- n / d × 2^e rounded in a format as though its exponent had no limit above (R100): the magnitude's code when it is at most the
largest finite value, or none for an overflow. -/
def roundElem (f sc : Nat) (r : MagRnd) (n d : Nat) (e : Int) : Option Nat :=
  match f with
  | 8 =>
    let q := roundTo r n d e (if sc = 1 then -6 else 0)
    if q ≤ 127 then some q else none
  | 9 => let q := roundTo r n d e 0; if q ≤ 7 then some q else none
  | 10 => let q := roundTo r n d e 0; if q ≤ 1 then some q else none
  | 11 => let c := l4Round r n d e; if c ≤ 7 then some c else none
  | _ =>
    let x := fpShape f
    let p := roundMag r (x.2.1 + 1) (fpQmin f) n d e
    let v := vmaxOf f sc
    if dyGt p.1 p.2 v.1 v.2 then none else some (encodeMag x.2.1 (fpQmin f) p.1 p.2)

/-- What an overflow of sign `s` becomes in an unscaled destination (R100): its code and its event. -/
def overflowCode (f : Nat) (r : Rnd) (sat : Bool) (s : Bool) : Nat × List DataEvent :=
  let clamp := (withSign f s (maxCode f), [DataEvent.overflow])
  let outward : Bool :=
    match r with
    | .nearestEven => true
    | .towardZero => false
    | .down => s
    | .up => !s
  if sat || !outward then clamp
  else
    match infCode f with
    | some c => (withSign f s c, [])
    | none => if f = 3 then (0x7F, []) else clamp

/-- An FP32 value converted to an unscaled format (R99, R100, R103): its code and its events. -/
def convElem (f : Nat) (r : Rnd) (sat : Bool) (x : Val) : Nat × List DataEvent :=
  match x with
  | .nan =>
    match nanCode f with
    | some c => (c, [])
    | none => (0, [.nanToZero])
  | .inf s =>
    match infCode f with
    | some c => if sat then (withSign f s (maxCode f), [.infSaturated]) else (withSign f s c, [])
    | none => (withSign f s (maxCode f), [.infSaturated])
  | .fin s m e =>
    match roundElem f 0 (magRnd r s) m 1 e with
    | some c => (withSign f s c, [])
    | none => overflowCode f r sat s

/-- The larger magnitude of two. -/
def dyMax (a b : Nat × Int) : Nat × Int := if dyGt a.1 a.2 b.1 b.2 then a else b

/-- The largest magnitude of the finite values of a block (R101). -/
def famax (l : List Val) : Nat × Int :=
  match l with
  | [] => (0, 0)
  | .fin _ m e :: r => dyMax (m, e) (famax r)
  | _ :: r => famax r

/-- Whether a value is an infinity. -/
def vIsInf (x : Val) : Bool :=
  match x with
  | .inf _ => true
  | _ => false

/-- The smallest k with n / d × 2^e ≤ 2^k. -/
def ratCeilLog2 (n d : Nat) (e : Int) : Int :=
  let l := ratLog2 n d e
  if roundTo .away n d e l = 1 then l else l + 1

/-- The scale code of a block whose largest finite magnitude is a, above zero (R101). -/
def chooseScale (f sc : Nat) (a : Nat × Int) : Nat :=
  let v := vmaxOf f sc
  -- t = a / vmax
  let n := a.1
  let d := v.1
  let e := a.2 - v.2
  match sc with
  | 1 => (min (max (ratCeilLog2 n d e) (-127)) 127 + 127).toNat
  | 2 =>
    let p := roundMag .away 4 (-17) n d e
    min (encodeMag 3 (-17) p.1 p.2) 0xFE
  | _ => (f32ofRat .up false n d e).toNat

/-- One element of a scaled block: the quotient x / s rounded once, saturating (R101). -/
def quantElem (f sc : Nat) (r : Rnd) (scale : Val) (x : Val) : Nat × List DataEvent :=
  match x, scale with
  | .fin s m e, .fin _ sm se =>
    if sm = 0 then (withSign f s 0, [])
    else
      match roundElem f sc (magRnd r s) m sm (e - se) with
      | some c => (withSign f s c, [])
      | none => (withSign f s (maxCode f), [.overflow])
  | .inf s, _ =>
    match infCode f with
    | some c => (withSign f s c, [])
    | none => (withSign f s (maxCode f), [])
  | _, _ => (0, [])

/-- The sign of a value; a NaN counts as positive. -/
def vSign (x : Val) : Bool :=
  match x with
  | .fin s _ _ => s
  | .inf s => s
  | .nan => false

/-- The zero of a format that keeps the sign of each zero (R102). -/
def zeroCode (f : Nat) (x : Val) : Nat := if f ≤ 7 then withSign f (vSign x) 0 else 0

/-- The events of a list of coded elements, each with its place; `i` is the place of the first element. -/
def codeEvents (i : Nat) (l : List (Nat × List DataEvent)) : List (Nat × DataEvent) :=
  match l with
  | [] => []
  | x :: r => x.2.map (fun v => (i, v)) ++ codeEvents (i + 1) r

/-- A block of active values converted under one chosen scale (R101, R102): the scale code, the element codes, the events
with their places among the active values. -/
def convBlock (f sc : Nat) (r : Rnd) (l : List Val) : Nat × List Nat × List (Nat × DataEvent) :=
  if l.any (fun x => decide (x = .nan)) then
    (if sc = 3 then 0x7FC00000 else 0xFF, l.map (fun _ => 0), [(0, .nanBlock)])
  else if l.any vIsInf && decide (f ≠ 4) then
    let code := if sc = 3 then 0x7F7FFFFF else 0xFE
    let cs := l.map (quantElem f sc r (scaleDecode sc code))
    (code, cs.map (fun x => x.1), (0, .infBlock) :: codeEvents 0 cs)
  else
    let a := famax l
    if a.1 = 0 then
      (0, l.map (fun x => if vIsInf x then (quantElem f sc r (.fin false 1 0) x).1 else zeroCode f x),
        if l.any vIsInf then [] else [(0, .zeroBlock)])
    else
      let code := chooseScale f sc a
      let cs := l.map (quantElem f sc r (scaleDecode sc code))
      (code, cs.map (fun x => x.1), codeEvents 0 cs)

/-- The value an element enters a VXE operation with: element × scale rounded once to FP32, nearest-even (R541). -/
def enterVxe (sc : Nat) (scale x : Val) : Word := f32ofVal (vMul (underScale sc scale x) scale)

end Sys2Proof.Machine
end

