-- ==== Sys2Proof/Config.lean ====
section
/-!
DEFINITION. Sys2Proof/Config.lean: the free values of the model. Each is a constant without a body, so no proof can see what it
is. A claim that mentions one holds whatever it is.
-/
namespace Sys2Proof.Config

/-- The FP32 result of a half-rate VXE function, by opcode and operand, which R108 bounds and no rule states (log entry 5). -/
opaque halfRate : Nat → Word → Word

/-- The module serial number, a per-part value (R38, R535, log entry 7). -/
opaque serial : Dword

/-- The SHA-384 digest of bytes, as a number of 384 bits (log entry 8). -/
opaque sha384 : List Byte → BitVec 384

/-- A fresh value of up to 2048 bits, by the count of values drawn (log entry 9). -/
opaque random : Nat → BitVec 2048

/-- The bytes that AES-256-GCM with a key and a nonce makes of bytes, keeping their length in use (log entry 8). -/
opaque gcmCrypt : BitVec 256 → Nat → List Byte → List Byte

/-- The tag that AES-256-GCM with a key and a nonce gives associated data and bytes (log entry 8). -/
opaque gcmTag : BitVec 256 → Nat → List Byte → List Byte → BitVec 128

/-- A signature over bytes made with the key of a number (log entry 8). -/
opaque sign : Nat → List Byte → BitVec 768

/-- A value the manual leaves open, by the rule that leaves it, the operands and the count of values drawn (log entry 9). -/
opaque freeWord : Nat → Nat → Nat → Word

/-- The SHA-384 digest of the Heartwood ROM, and the first 32 bits of that of the DeviceID public key: per-part values (R483, R489, log entry 7). -/
opaque romDigest : BitVec 384
/-- DEVICEID_HASH of the part. -/
opaque deviceIdHash : Word

/-- The fault record of retained memory, whose layout R431 does not give, made of its contents: START_POLICY, the last shutdown cause, TRIP_RECORD,
and the recorded codes with their details (log entry 55). -/
opaque faultRecord : Nat → Nat → Nat → List (Nat × Nat) → List Byte

end Sys2Proof.Config
end

