-- ==== Sys2Proof/Machine/State.lean ====
section
/-!
DEFINITION. Sys2Proof/Machine/State.lean: the state of the module as plain data, and the module right after its auxiliary rail came
on (`State.reset`). Registers live in one register file keyed by BAR0 offset (R21); what no register shows whole has a field of
its own. An entry that a map does not list is at its reset value.
-/
namespace Sys2Proof.Machine

/-- Why the machine stops with a fault: the manual names no event that stops the module as a whole, so there is none. -/
inductive Fault
deriving DecidableEq, Repr

/-- Why a command is refused. -/
inductive Refusal where
  /-- The command has no meaning yet. Raised by `exec` only, for a command rejected by name; safe. No arm raises it now. -/
  | notModelled (mnemonic : String)
deriving DecidableEq, Repr

/-- The shape of the job slice in force (R139, R359). -/
structure Slice where
  running : Bool
  origin : Nat
  x : Nat
  y : Nat
  z : Nat
deriving DecidableEq, Repr

/-- What happened to an event counter in a recent cycle of its page's clock (R17). -/
structure CntMark where
  /-- The cycle of the latest clear. -/
  clr : Option Nat
  /-- The cycle of the latest event, and the value before that cycle's events. -/
  pre : Option (Nat × Dword)
  /-- The cycle of the latest wrap that set the overflow bit. -/
  wrap : Option Nat
deriving DecidableEq, Repr

/-- What happened in a page in a recent cycle of its clock, for the rules on actions that coincide (R17, R18, R20). -/
structure PageMark where
  /-- The latest cycle in which an IRQ_STATUS bit was set by an event, the bits, and the errors of that cycle in order. -/
  irqCyc : Option Nat
  irq : Word
  errs : List (Nat × Nat)
  /-- The cycle of the latest write of CNT_SEL or CNT_CTRL, and what they held before it. -/
  cfgCyc : Option Nat
  sel : Word
  ctrl : Word
  c0 : CntMark
  c1 : CntMark
deriving DecidableEq, Repr

/-- Events of a counter code that fall one to a cycle of the page's core clock, from cycle `lo` up to and not in cycle `hi` (R89). -/
structure Accrual where
  code : Nat
  lo : Nat
  hi : Nat
deriving DecidableEq, Repr

/-- A page in which nothing happened. -/
def PageMark.none : PageMark :=
  { irqCyc := Option.none, irq := 0#32, errs := [], cfgCyc := Option.none, sel := 0#32, ctrl := 0#32,
    c0 := { clr := Option.none, pre := Option.none, wrap := Option.none },
    c1 := { clr := Option.none, pre := Option.none, wrap := Option.none } }

/-! ## Core (R44 to R88) -/

/-- A descriptor in a queue with its stamps (R57, R58). -/
structure QEntry where
  desc : BitVec 512
  /-- The ENQ counts of queues 0 to 3 at entry. -/
  stamps : List Nat
  /-- The low bit of the frame number at entry. -/
  parity : Bool
  overrun : Bool
  /-- The queue slot of command info (R82). -/
  slot : Nat
  /-- REFS of its context counts it: not after a soft reset of the SPM page (R538). -/
  counted : Bool
deriving DecidableEq, Repr

/-- A command in execution (R62). -/
structure Exec where
  desc : BitVec 512
  slot : Nat
  /-- The core cycle at which it retires; for the MVE the earliest one. -/
  retire : Nat
  /-- Its number among the commands of the core, which names its scoreboard entries and requests. -/
  seq : Nat
  /-- The fault recorded at retirement, or 0 (R75). -/
  lateFault : Nat
  /-- MVE: rows, bytes and indices whose requests are generated; 0 for the other engines. -/
  gen : Nat
  /-- MVE: whether every request has been generated; true of every command that faulted at issue. -/
  genDone : Bool
  /-- Whether the command came from before a soft reset of its CORE page (R538). -/
  orphan : Bool
  /-- The moment of issue, from which its deadline counts (R349). -/
  issuedAt : Nat
  /-- MVE: whether it has read a poisoned index word (R84). -/
  poisonSeen : Bool
  /-- As in the queue entry (R538). -/
  counted : Bool
  /-- MVE: bytes of a planned outward move that fill no flit yet, and whether any is poisoned (R146). -/
  pack : List Byte
  packBad : Bool
deriving DecidableEq, Repr

/-- A scoreboard entry: bytes `lo` to `hi` inclusive (R63). -/
structure SbEntry where
  lo : Nat
  hi : Nat
  write : Bool
  seq : Nat
  /-- The cycle in which it was released, if it was; a check in that cycle still sees it (R64). -/
  freed : Option Nat
deriving DecidableEq, Repr

/-- One of the four queues of a core with its engine's timing (R57 to R62, R81). -/
structure Queue where
  entries : List QEntry
  enq : Nat
  iss : Nat
  /-- The first core cycle with room again after the queue was full (R160). -/
  roomAt : Nat
  /-- The wait bits of Q_STATUS as last evaluated (R59). -/
  waits : Word
  /-- The first cycle in which the engine accepts a command as far as occupancy goes (R81). -/
  freeAt : Nat
  /-- The latest retirement cycle of a command of the engine (R62). -/
  lastRetire : Nat
  /-- The cycle after the last one in which the head was evaluated, issued or skipped. -/
  evalNext : Nat
  exec : List Exec
deriving DecidableEq, Repr

/-- A queue after reset. -/
def Queue.reset : Queue :=
  { entries := [], enq := 0, iss := 0, roomAt := 0, waits := 0#32, freeAt := 0, lastRetire := 0, evalNext := 0, exec := [] }

/-- A context zero-fill in progress (R51). -/
structure Fill where
  ctx : Nat
  /-- The cycle of the write of ASSIGN. -/
  start : Nat
  /-- The last cycle in which FILLING reads 1. -/
  last : Nat
  lo : Nat
  hi : Nat
  /-- The first byte not yet written. -/
  pos : Nat
deriving DecidableEq, Repr

/-- The clock state of a unit (R395); `waking` counts towards RUN (R163). -/
inductive ClkMode where
  | run
  | gated
  | synOff
  | waking
deriving DecidableEq, Repr

/-- A core's clock: its state, frequency and the point from which its cycles are counted (R150, R395, R397). -/
structure CoreClk where
  mode : ClkMode
  wakeAt : Nat
  gateIdle : Bool
  mhz : Nat
  /-- The frequency programmed into the unused synthesiser, and when it locks. -/
  nextMhz : Nat
  lockAt : Nat
  /-- A switch armed, and when. -/
  armed : Bool
  armT : Nat
  /-- Whether periods are at 9/8 of nominal (R413). -/
  slow : Bool
  segT : Nat
  segC : Nat
  /-- The part of a cycle that had passed at `segT`, in units of 1/90,000 cycle: the phase of the clock's edges (R150, log entry 18). -/
  phase : Nat
  /-- The cycle number of the first cycle of the frame (R150). -/
  frameC : Nat
deriving DecidableEq, Repr

/-- A core's clock after reset: gated, at the nominal 1.80 GHz (DESIGN CHOICE, log entry 12). -/
def CoreClk.reset : CoreClk :=
  { mode := .gated, wakeAt := 0, gateIdle := false, mhz := 1800, nextMhz := 0, lockAt := 0, armed := false, armT := 0,
    slow := false, segT := 0, segC := 0, phase := 0, frameC := 0 }

/-- The way of a request through the die crossbar (R46, R135): the target core and the request; the requester's cycle in which it left its move
engine and the target's cycle in which it reached the port; the bytes that the port has still to take and the last cycle in which it took any;
the requester's cycle of its completion once the port has taken all; and the answer once it is performed. -/
structure XbarTrip where
  target : Option Nat
  msg : FabMsg
  sent : Nat
  arrive : Nat
  left : Nat
  last : Nat
  due : Option Nat
  ans : Option Resp
deriving DecidableEq, Repr

/-- An outstanding fabric request of a core (R77, R343). -/
structure MveReq where
  /-- The slot of the 512 the request occupies, and the generation of that slot's use. -/
  slot : Nat
  generation : Nat
  seq : Nat
  /-- Local scratchpad address and length of the bytes it moves. -/
  laddr : Nat
  len : Nat
  node : Nat
  offset : Nat
  /-- Whether the bytes move inward (a read or the old value of an atomic). -/
  inward : Bool
  /-- 0 for a request that travels; a fence is 1 plus its FENCE_SCOPE (R353). -/
  fenceScope : Nat
  /-- When its deadline expires. -/
  expiry : Nat
  orphanAt : Option Nat
  /-- Its way through the die crossbar, for a Tier 0 slot of its own die (R46). -/
  trip : Option XbarTrip
deriving DecidableEq, Repr

/-- Writes on the handover bus (R452): the cycle in which they are performed, bytes, and poison marks by word. -/
structure MirrorWrite where
  due : Nat
  bytes : List Host.Cell
  marks : List (Nat × Bool)
deriving DecidableEq, Repr

/-- What was written to a scratchpad in one cycle of its core: the cycle, and the bytes and poison marks before it (R47). -/
structure Before where
  cyc : Nat
  bytes : List Host.Cell
  marks : Map Bool
deriving DecidableEq, Repr

/-- Nothing written. -/
def Before.none : Before := { cyc := 0, bytes := [], marks := [] }

/-- A physical core: queues, scoreboard, scratchpad, accumulators, clock (R44 to R88). -/
structure CoreSt where
  q0 : Queue
  q1 : Queue
  q2 : Queue
  q3 : Queue
  sb : List SbEntry
  sbHigh : Nat
  seq : Nat
  /-- Staging buffers by writer and queue (R57). -/
  stage : Map (BitVec 512)
  spm : List Host.Cell
  /-- The numbers of the 64-bit words that are poisoned, as keys (R84). -/
  poison : Map Bool
  /-- The cycle of the latest write of the scratchpad, and what the bytes and marks written in it held before (R47). -/
  before : Before
  /-- Consumed markers on their way to the scratchpad: the cycle of each write and its address (R110). -/
  markers : List (Nat × Nat)
  /-- The first cycle in which the crossbar port of this core has still to serve requests (R135). -/
  portNext : Nat
  acc0 : Map Word
  acc1 : Map Word
  accP0 : Bool
  accP1 : Bool
  /-- The last cycle of an MMA or an ACC_STORE on each set (R70). -/
  mmaEnd0 : Nat
  mmaEnd1 : Nat
  storeEnd0 : Nat
  storeEnd1 : Nat
  fills : List Fill
  /-- The spare that mirrors this core's writes (R452), the mirrored writes on their way to this core, and the core to whose NOTIFY
  registers retirements here are added (R454). -/
  mirrorTo : Option Nat
  mirrored : List MirrorWrite
  notifyTo : Option Nat
  /-- JOB_FAULT and JOB_SKIP before their last change, and the cycle of the change (R83). -/
  jfPrev : BitVec 256
  jfCyc : Nat
  /-- The JOB_FAULT bits that faults set in that cycle. -/
  jfSet : BitVec 256
  jsPrev : BitVec 256
  jsCyc : Nat
  clk : CoreClk
  reqs : List MveReq
  /-- The generation number of each request slot (R343). -/
  reqGen : Map Nat
  mveHigh : Nat
  /-- The next request generation cycle (R77). -/
  genNext : Nat
  /-- The latest cycle in which a request failed, and the code of its first failure (R88). -/
  failed : Option (Nat × Nat)
deriving DecidableEq, Repr

/-- A core after reset. -/
def CoreSt.reset : CoreSt :=
  { q0 := Queue.reset, q1 := Queue.reset, q2 := Queue.reset, q3 := Queue.reset, sb := [], sbHigh := 0, seq := 0,
    stage := [], spm := [], poison := [], before := Before.none, markers := [], portNext := 0, acc0 := [], acc1 := [], accP0 := false, accP1 := false, mmaEnd0 := 0, mmaEnd1 := 0,
    storeEnd0 := 0, storeEnd1 := 0, fills := [], mirrorTo := none, mirrored := [], notifyTo := none, jfPrev := 0#256, jfCyc := 0, jfSet := 0#256, jsPrev := 0#256, jsCyc := 0,
    clk := CoreClk.reset, reqs := [], reqGen := [], mveHigh := 0, genNext := 0, failed := none }

/-! ## Mesh (R26 to R34, R144 to R146) -/

/-- A run of a mesh schedule (R144). -/
structure SchedRun where
  first : Nat
  count : Nat
  out : Nat
  inp : Nat
deriving DecidableEq, Repr

/-- A schedule bank of a router (R33, R144). -/
structure SchedBank where
  cycles : Nat
  runs : List SchedRun
deriving DecidableEq, Repr

/-- A dynamic message waiting at a router input (R30). -/
structure DynMsg where
  dst : Nat
  payload : List Byte
  /-- The mesh cycle in which it entered the router. -/
  entered : Nat
  /-- The die and the edge that a report to TK0 names as down (R32); none for every other message. -/
  report : Option (Nat × Nat)
deriving DecidableEq, Repr

/-- A planned flit on its way to the next router (R29). -/
structure Hop where
  /-- The input it arrives at, and the planned cycle in which it is to be forwarded. -/
  inp : Nat
  due : Nat
  flit : Flit
deriving DecidableEq, Repr

/-- The injection queue of one output (R146). -/
structure InjQueue where
  flits : List Flit
  /-- Flits enqueued and local-injection cycles passed in this frame. -/
  enq : Nat
  sent : Nat
  /-- Injection cycles of this frame whose flit has not come. -/
  late : Nat
  waiting : List Flit
deriving DecidableEq, Repr

/-- An injection queue after reset. -/
def InjQueue.reset : InjQueue := { flits := [], enq := 0, sent := 0, late := 0, waiting := [] }

/-- A region entry of a protection bank (R357, R366). -/
structure ProtEntry where
  valid : Bool
  job : Nat
  mode : Nat
  node : Nat
  base : Nat
  limit : Nat
  perm : Nat
  qos : Nat
deriving DecidableEq, Repr

/-- An empty region entry. -/
def ProtEntry.empty : ProtEntry :=
  { valid := false, job := 0, mode := 0, node := 0, base := 0, limit := 0, perm := 0, qos := 0 }

/-- A protection bank: region entries and route lists by direction code (R357, R366). An unlisted route list has no port. -/
structure ProtBank where
  entries : Map ProtEntry
  routes : Map Dword
deriving DecidableEq, Repr

/-- A die's mesh router (R26 to R34). -/
structure Router where
  bankA : SchedBank
  bankB : SchedBank
  /-- Waiting dynamic messages at inputs local, north, east, south, west. -/
  inputs : List (List DynMsg)
  /-- The input granted last at each output, in the same order. -/
  granted : List Nat
  /-- Consecutive dynamic CRC failures of the inbound edges north, east, south, west (R31). -/
  fails : List Nat
  hops : List Hop
  /-- Injection queues by output: north, east, south, west, local. -/
  inj : List InjQueue
  /-- The mesh cycle after the last dynamic cycle in which it forwarded. -/
  dynNext : Nat
  /-- The frame, and its planned cycle, in which a planned flit was last forwarded, and the planned cycles so used in that frame. -/
  lastPlanned : Option (Nat × Nat)
  used : Nat
  /-- The frame and planned cycle in which inputs were last forwarded, and those inputs (R29). -/
  fed : Option (Nat × Nat × List Nat)
  /-- The planned cycles of this frame, from the boundary on, that counter code 0x03 has taken account of (R34). -/
  emptyTo : Nat
  /-- By output, the dynamic flit that its receiver discarded and that is sent again (R31). -/
  flits : List (List DynMsg)
  /-- The last dynamic message and the last planned flit delivered to the die. -/
  lastMsg : Option DynMsg
  lastFlit : Option Flit
  protA : ProtBank
  protB : ProtBank
deriving DecidableEq, Repr

/-- A router after reset. -/
def Router.reset : Router :=
  { bankA := { cycles := 0, runs := [] }, bankB := { cycles := 0, runs := [] }, inputs := [[], [], [], [], []],
    granted := [4, 4, 4, 4, 4], fails := [0, 0, 0, 0], hops := [],
    inj := [InjQueue.reset, InjQueue.reset, InjQueue.reset, InjQueue.reset, InjQueue.reset], dynNext := 0, lastPlanned := none, used := 0, fed := none, emptyTo := 0,
    flits := [[], [], [], [], []], lastMsg := none,
    lastFlit := none, protA := { entries := [], routes := [] }, protB := { entries := [], routes := [] } }

/-! ## Frame sequencer (R149 to R190) -/

/-- A segment of a frame program (R156). -/
structure Seg where
  start : Nat
  len : Nat
  firstEntry : Nat
  count : Nat
  nxt : Nat
deriving DecidableEq, Repr

/-- A job of a frame program (R156). -/
structure FJob where
  tag : Nat
  depth : Nat
  chunk : Nat
  slots : Nat
deriving DecidableEq, Repr

/-- A stage group of a frame program (R156). -/
structure SGroup where
  tag : Nat
  lag : Nat
  layer : Nat
deriving DecidableEq, Repr

/-- What a program swap brings to a die's watch unit (R118, R119, R141): the image of FRS offsets 0x800 to 0xA3F if the plan has one,
whether the layers' states are carried, and NW_CTRL.EN. -/
structure NwLoad where
  image : List Word
  carry : Bool
  en : Bool
deriving DecidableEq, Repr

/-- A program bank (R156 to R158), with what its swap brings to the watch unit. -/
structure FBank where
  base : Nat
  firstSeg : Nat
  agreeLag : Nat
  decay : Nat
  ovrHold : Nat
  segs : List Seg
  jobs : List FJob
  groups : List SGroup
  entries : List (BitVec 128)
  descs : List (BitVec 512)
  nwLoad : Option NwLoad
deriving DecidableEq, Repr

/-- An empty program bank. -/
def FBank.empty : FBank :=
  { base := 0, firstSeg := 0, agreeLag := 0, decay := 0, ovrHold := 0, segs := [], jobs := [], groups := [], entries := [],
    descs := [], nwLoad := none }

/-- A descriptor on its way from a PUSH to its queue (R160). -/
structure HeldDesc where
  core : Nat
  queue : Nat
  desc : BitVec 512
  /-- The earliest core cycle of its entry. -/
  earliest : Nat
deriving DecidableEq, Repr

/-- A slice agreement A(F) as received (R179): TARGET, the accepted slot changes, this rack's gap bit, and the offset by which this rack's
boundaries lead the latest rack (R186, R188). -/
structure Agreement where
  frame : Nat
  target : Nat
  changes : List SlotChg
  gap : Bool
  offset : Int
deriving DecidableEq, Repr

/-- One point of a job slot's timeline: the state from a step on (R166 to R169). -/
structure SlotPoint where
  step : Nat
  st : Nat
  len : Nat
deriving DecidableEq, Repr

/-- A die's frame sequencer. -/
structure Frs where
  bankA : FBank
  bankB : FBank
  /-- The moment of the latest frame boundary, and of the end of the frame. -/
  began : Nat
  ends : Nat
  /-- The current segment, its entries that have started, its successor in this frame, and the target of the last deferred jump. -/
  seg : Nat
  idx : Nat
  nextSeg : Nat
  deferred : Option Nat
  /-- The types and the end, in ticks of the frame, of the current slot, and the first moment at which the next entry can start. -/
  slotTypes : Nat
  slotEnd : Nat
  startNext : Nat
  held : List HeldDesc
  /-- First cycle for the next descriptor of each core. -/
  pushNext : Map Nat
  /-- By core, the core cycle up to which counter code 0x05 has counted its descriptors' waits at a full queue (R160, R190). -/
  heldTo : Map Nat
  /-- Units whose GATE found work in progress: the waits that the sequencer has counted (R163). -/
  gateWaits : Nat
  /-- Request levels OVR with its hold count, and THR. -/
  ovr : Nat
  ovrHold : Nat
  thr : Nat
  /-- Applied level, TARGET and DECAY count. -/
  s : Nat
  target : Nat
  below : Nat
  /-- A stop is due at the next boundary. -/
  stop : Bool
  agreements : List Agreement
  notices : List StepNote
  /-- Layers in RECOMPUTE or WIDE, by job × 1024 + layer (R161). -/
  wideLayers : Map Bool
  /-- Watch entries by the step, plus one, in which they last jumped (R113). -/
  jumps : Map Nat
  /-- Jobs whose step a fallback switch has the new plan recompute (R118). -/
  carry : BitVec 256
  replay : BitVec 256
  /-- Step number by job (R167), and at the start of the plan in force (R169). -/
  steps : Map Nat
  planSteps : Map Nat
  /-- Timelines by job × 4096 + slot, newest point first. -/
  slots : Map (List SlotPoint)
  /-- Accepted changes with the frame at whose boundary they are due. -/
  chgWait : List (SlotChg × Nat)
  gap : Bool
  /-- The moment at which the sync epoch began, once a pulse has come; consecutive missing pulses. -/
  epochBegan : Nat
  synced : Bool
  missing : Nat
  /-- NW_CTRL.EN in effect (R121). -/
  nwEn : Bool
  /-- The frame number plus 1 of each norm-watch entry's latest verdict. -/
  verdicts : Map Nat
  /-- The frame and DIE level of the last REPORT sent (R175). -/
  reported : Option (Nat × Nat)
  /-- Die 0: the frame and DIE level of each die's last REPORT received (R175). -/
  dieLevel : Map (Nat × Nat)
  /-- Die 0: queue of submitted changes (R168). -/
  chgQueue : List SlotChg
  /-- Die 0: accounting by job tag (R172). -/
  acctSteps : Map Nat
  acctSlots : Map Nat
  acctReplays : Map Nat
  /-- Die 0: the latched high halves of the accounting registers. -/
  acctLatch : Map Word
  /-- Die 0: the frame of the EXCHANGE sent last, and what it sent (R179). -/
  sent : Option (Nat × Xchg)
deriving DecidableEq, Repr

/-- A frame sequencer after reset. -/
def Frs.reset : Frs :=
  { bankA := FBank.empty, bankB := FBank.empty, began := 0, ends := 0, seg := 0, idx := 0, nextSeg := 0, deferred := none,
    slotTypes := 0, slotEnd := 0, startNext := 0, held := [], pushNext := [], heldTo := [], gateWaits := 0, ovr := 0, ovrHold := 0, thr := 0, s := 0, target := 0,
    below := 0, stop := false, agreements := [], notices := [], wideLayers := [], jumps := [], carry := 0#256, replay := 0#256, steps := [], planSteps := [], slots := [],
    chgWait := [], gap := false, epochBegan := 0, synced := false, missing := 0, nwEn := false, verdicts := [], reported := none, dieLevel := [],
    chgQueue := [], acctSteps := [], acctSlots := [], acctReplays := [], acctLatch := [], sent := none }

/-! ## Memory tiers (R276 to R308) and home queues (R346) -/

/-- What a 64-byte line of Tier 1 holds (R291): never-written poison, clean data, or error poison. -/
inductive LineSt where
  | never
  | clean
  | error
deriving DecidableEq, Repr

/-- A request waiting at its home (R346): the message, the router input it came by, the pool address its segment gave a Tier 2 request
(R301; none for an unmapped one), and the parity region registers in effect when a Tier 1 request reached its die's port (R223). -/
structure HomeReq where
  msg : FabMsg
  inp : Nat
  pool : Option Nat
  regions : List Word := []
deriving DecidableEq, Repr

/-- A die's home queue, the requests held at its mesh port, and since when (R346). -/
structure HomeQ where
  q : List HomeReq
  held : List HomeReq
  since : Nat
deriving DecidableEq, Repr

/-- An empty home queue. -/
def HomeQ.empty : HomeQ := { q := [], held := [], since := 0 }

/-- An arbiter (R283): the consecutive arbitrations each port has waited, the port granted last. -/
structure Arb where
  waits : List Nat
  last : Nat
  /-- Arbitrations held so far, by which the pace of ports 1 to 3 goes (R405, log entry 120). -/
  held : Nat := 0
deriving DecidableEq, Repr

/-- An arbiter after reset: port 0 is first. -/
def Arb.reset : Arb := { waits := [0, 0, 0, 0], last := 3 }

/-- A planned access at a memory die (R280): address within the stack, bytes written, or length read, the poison of written data, the moment it
reached the port, and the request it belongs to where it came as one of the fabric. -/
structure PlanAcc where
  addr : Nat
  write : Bool
  len : Nat
  data : List Byte
  poison : Bool
  since : Nat := 0
  msg : Option FabMsg := none
deriving DecidableEq, Repr

/-- The memory controller of a stack beside its registers. -/
structure Mbc where
  arb : Arb
  /-- The moment the latest refresh of each bank set began (R285). -/
  refAt : List Nat
  /-- The next line of the patrol scrub, the start of its pass, and whether the pass is late (R295). -/
  scrubLine : Nat
  scrubStart : Nat
  /-- The start of a never-written initialisation in progress (R293), and the planned accesses that wait for its end. -/
  initAt : Option Nat
  waiting : List PlanAcc
  /-- The row under repair, as PPR_CTRL names it (R297). -/
  ppr : Option Nat
  /-- The start of a zero initialisation in progress (R465). -/
  zeroAt : Option Nat
  /-- The digest in progress (R380): its start, and the model and shard for which the firmware runs it. -/
  dgAt : Option Nat
  dgFor : Option (Nat × Nat)
  /-- The time that it has read, and since when it reads now: with TEST_ONLY in test slots alone (R381). -/
  dgRan : Nat := 0
  dgSince : Option Nat := none
  /-- The parity region registers that the store in hand goes by, where it waited under an older setting (R223). -/
  regionsOf : List Word := []
  /-- The port that holds the grant until its accesses have started (R283). -/
  grant : Option Nat := none
  /-- The mesh cycle of the latest planned access, and the place of its router input in the order of R30 (R280). -/
  planCyc : Nat := 0
  planIn : Nat := 0
  /-- Whether the pass of the patrol scrub has been reported late (R295). -/
  scrubLate : Bool := false
deriving DecidableEq, Repr

/-- A memory controller after reset. -/
def Mbc.reset : Mbc :=
  { arb := Arb.reset, refAt := List.replicate 16 0, scrubLine := 0, scrubStart := 0, initAt := none, waiting := [], ppr := none, zeroAt := none, dgAt := none, dgFor := none,
    regionsOf := [], grant := none, planCyc := 0, planIn := 0, scrubLate := false }

/-- A tier move (R303): its extents, direction (Tier 2 to Tier 1 where `inward`), tag and deadline; the tiles moved and the first status code. -/
structure Move where
  t1 : Nat
  t2 : Nat
  tiles : Nat
  inward : Bool
  srcPoison : Bool
  tag : Nat
  due : Nat
  moved : Nat
  status : Nat
deriving DecidableEq, Repr

/-- A completion of the tier mover (R307). -/
structure MoveDone where
  tag : Nat
  late : Bool
  status : Nat
  moved : Nat
deriving DecidableEq, Repr

/-- The tier mover and the Tier 2 access port of die 98. -/
structure Mover where
  queue : List Move
  cur : Option Move
  done : List MoveDone
  waitSince : Option Nat
  arb : Arb
  /-- Tier 2 requests that the arbiter granted and the CXL port has not performed. -/
  run : List HomeReq
  /-- Whether the mover's port holds the grant of die 98's arbiter (R283). -/
  grant : Bool := false
deriving DecidableEq, Repr

/-- The tier mover after reset. -/
def Mover.reset : Mover := { queue := [], cur := none, done := [], waitSince := none, arb := Arb.reset, run := [] }

/-! ## Fabric links (R309 to R337) -/

/-- A run of planned positions of a link (R328). -/
structure LinkRun where
  first : Nat
  count : Nat
deriving DecidableEq, Repr

/-- A slot bank of a port (R328). -/
structure LinkBank where
  tx : List LinkRun
  rx : List LinkRun
deriving DecidableEq, Repr

/-- A message in a port's transmit queue (R322, R348): when it entered, its bytes with the header, how many of them are sent, and the poisoned words
of its data. -/
structure TxItem where
  entered : Nat
  bytes : List Byte
  off : Nat
  poison : List Nat
deriving DecidableEq, Repr

/-- What a port transmits (R322, R324, R327, R348). -/
structure PortTx where
  /-- The queues of the four classes, by QOS. -/
  planned : List TxItem
  control : List TxItem
  express : List TxItem
  bulk : List TxItem
  /-- Planned positions and dynamic sequence numbers that the partner asked for again, each with the moment of its NAK. -/
  replays : List (Nat × Nat)
  resends : List (Nat × Nat)
  /-- The planned flits of this frame by position, and the last 64 dynamic flits by sequence number, as they were sent. -/
  sent : Map LinkFlit
  dynSent : Map LinkFlit
  /-- The next dynamic sequence number. -/
  dynSeq : Nat
  /-- The boundary from which positions are counted, and the first position not yet served. -/
  origin : Nat
  next : Nat
  /-- Positions express has taken since bulk's last one while both waited, and the positions that were bulk's (R348, R405). -/
  turn : Nat
  bulkTurns : Nat
deriving DecidableEq, Repr

/-- Nothing to transmit. -/
def PortTx.reset : PortTx :=
  { planned := [], control := [], express := [], bulk := [], replays := [], resends := [], sent := [], dynSent := [], dynSeq := 0, origin := 0, next := 0,
    turn := 0, bulkTurns := 0 }

/-- A port beside its registers. -/
structure PortSt where
  bankA : LinkBank
  bankB : LinkBank
  /-- When the port entered its present state, and retrains after quarantine for reasons 3 and 4 (R318). -/
  since : Nat
  retries : Nat
  /-- The port was ACTIVE before its present training (R331), and its cable is absent (R520). -/
  wasActive : Bool
  noCable : Bool
  /-- The own nonce with the moment of its issue, and the partner's (R484). -/
  nonce : Option (Nat × Nat)
  peerNonce : Option Nat
  /-- No planned flit is sent until the slot bank swaps (R326). -/
  noPlanned : Bool
  /-- Planned flits received in this frame by position, and the link slot after the last delivered one. -/
  rx : Map LinkFlit
  slotNext : Nat
  /-- Bytes of the present request still to come, and whether flits are dropped until one with FIRST set (R325). -/
  reqLeft : Nat
  skip : Bool
  /-- The next dynamic sequence number, flits held behind a gap, and the payloads delivered last (R327). -/
  dynNext : Nat
  dynHeld : Map (List Byte)
  lastDyn : List (List Byte)
  /-- The NAK that the next transmitted flit carries: class, position or sequence number, frame (R324, R327). -/
  nakOut : Option (Nat × Nat × Nat)
  /-- The planned positions resent in this frame, the dynamic flit that the partner asked for last, and its failed sends. -/
  resent : List Nat
  lastNak : Nat
  nakRun : Nat
  /-- Discarded flits in the millisecond that began at `discT` (R318). -/
  discN : Nat
  discT : Nat
  /-- Injection: flits of its classes seen, flits selected, a flit to be swapped, and flits delayed with their moments (R333, R334). -/
  injSeen : Nat
  injSel : Nat
  swapped : List (Nat × LinkFlit)
  delayed : List (Nat × LinkFlit)
  /-- The flits that an injection sent last. -/
  lastTx : List LinkFlit
  /-- What the port transmits. -/
  tx : PortTx := PortTx.reset
deriving DecidableEq, Repr

/-- A port after reset. -/
def PortSt.reset : PortSt :=
  { bankA := { tx := [], rx := [] }, bankB := { tx := [], rx := [] }, since := 0, retries := 0, wasActive := false, noCable := false,
    nonce := none, peerNonce := none, noPlanned := false, rx := [], slotNext := 0, reqLeft := 0, skip := false, dynNext := 0,
    dynHeld := [], lastDyn := [], nakOut := none, resent := [], lastNak := 0, nakRun := 0, discN := 0, discT := 0, injSeen := 0,
    injSel := 0, swapped := [], delayed := [], lastTx := [], tx := PortTx.reset }

/-- A cabling record (R36, R315, R504): rack, tray, trays of a rack, racks, profile, direction codes of ports 9 to 32 (profile P), and the
populated slots of each tray as a 4-bit mask, in rack-major order. -/
structure Cabling where
  rack : Nat
  tray : Nat
  ny : Nat
  nz : Nat
  profile : Nat
  codes : List Nat
  pop : List Nat
deriving DecidableEq, Repr

/-! ## Plans (R139 to R147) -/

/-- A stage of CORE_PLAN with the node and die of its section (R142). -/
structure Stage where
  node : Nat
  die : Nat
  logical : Nat
  job : Nat
  layer : Nat
  group : Nat
  mhz : Nat
deriving DecidableEq, Repr

/-- A context of CONTEXTS with its die (R142). -/
structure CtxPlan where
  die : Nat
  logical : Nat
  ctx : Nat
  base : Nat
  bound : Nat
  owner : Nat
deriving DecidableEq, Repr

/-- An extent of WEIGHT_PLACEMENT (R373). -/
structure Extent where
  job : Nat
  kind : Nat
  member : Nat
  tiles : Nat
  offset : Nat
  pgroup : Nat
deriving DecidableEq, Repr

/-- A frame record of KV_LAYOUT (R220). -/
structure KvFrame where
  layer : Nat
  first : Nat
  count : Nat
  pages : Nat
  base : Nat
  slotStride : Nat
  groupStride : Nat
deriving DecidableEq, Repr

/-- A ring record of KV_LAYOUT (R220). -/
structure KvRing where
  layer : Nat
  die : Nat
  core : Nat
  ctx : Nat
  first : Nat
  count : Nat
  group : Nat
  ring : Nat
  sink : Nat
  stage : Nat
  stageUnits : Nat
deriving DecidableEq, Repr

/-- A parity record of KV_LAYOUT (R220). -/
structure KvParity where
  pgroup : Nat
  first : Nat
  count : Nat
  group : Nat
  mode : Nat
  holder : Nat
  layers : List Nat
  tray : Nat
  pb : Nat
  pbStride : Nat
  sealedBase : Nat
  sealedStride : Nat
deriving DecidableEq, Repr

/-- A KV_LAYOUT section (R219). -/
structure KvLayout where
  job : Nat
  format : Nat
  slots : Nat
  localSlots : Nat
  layers : Nat
  groups : Nat
  n : Nat
  sink : Nat
  frames : List KvFrame
  rings : List KvRing
  parity : List KvParity
deriving DecidableEq, Repr

/-- A layer record of EXPERT_ENVELOPE (R227, R249). -/
structure EnvLayer where
  layer : Nat
  experts : Nat
  topk : Nat
  cand : Nat
  lanes : Nat
  lanesA : Nat
  cap : Nat
  gate : Nat
  shared : Nat
  halfA : Nat
  t16 : Nat
  bankOff : Nat
  die : Nat
  core : Nat
deriving DecidableEq, Repr

/-- A target record of EXPERT_ENVELOPE (R240, R249). -/
structure EnvTarget where
  layer : Nat
  matrix : Nat
  rank : Nat
  fmt : Nat
  train : Nat
  tiles : Nat
  poolOff : Nat
deriving DecidableEq, Repr

/-- An EXPERT_ENVELOPE section (R249). -/
structure Envelope where
  pool : Nat
  thresh : Nat
  alpha : Nat
  warmup : Nat
  stop : Nat
  layers : List EnvLayer
  targets : List EnvTarget
deriving DecidableEq, Repr

/-- A FALLBACK_INDEX entry (R459). -/
structure Fallback where
  cls : Nat
  rebuild : Nat
  node : Nat
  detail : Nat
  edge : Nat
  resume : Nat
  frames : Nat
deriving DecidableEq, Repr

/-- A plan unit as the firmware of this module holds it: the header's fields and the sections that no bank of the device holds. -/
structure PlanInfo where
  id : Nat
  unit : Nat
  profile : Nat
  freqMode : Nat
  base : Nat
  origin : Nat
  x : Nat
  y : Nat
  z : Nat
  floor : BitVec 128
  jobs : List FJob
  /-- The stages of every module of the slice. -/
  stages : List Stage
  contexts : List CtxPlan
  extents : List Extent
  kv : List KvLayout
  env : Option Envelope
  /-- MODEL_ID and the job tags of its placements (R268). -/
  canopy : List (Nat × List Nat)
  fallback : List Fallback
deriving DecidableEq, Repr

/-! ## Power (R387 to R423) -/

/-- A blade at the ORing stage (R523): since when its voltage has been in range with BLADE_SENSE mated, whether the stage connects it, when it was
connected while its input capacitance still charges, and the current in 0.1 A that it carries. -/
structure Blade where
  since : Option Nat := none
  on : Bool := false
  chargeAt : Option Nat := none
  amps : Nat := 0
deriving DecidableEq, Repr

/-- The power and thermal controllers of die 90, beside their registers. -/
structure PowerSt where
  /-- The 10 µs samples of this millisecond in W, newest first, and the last millisecond's P_1MS. -/
  samples : List Nat
  pPrev : Nat
  /-- Input energy in units of 10 µJ. -/
  energy : Nat
  /-- CLK.SLOW_MS (R393). -/
  slowMs : Nat
  thrPower : Nat
  thrTherm : Nat
  thrInput : Nat
  /-- Pace of the compute, memory and links domains (R405). -/
  pace : List Nat
  below : Nat
  over16 : Nat
  /-- Sprint milliseconds by bins of 100 ms, newest first, and the milliseconds in the newest bin (R408). -/
  bins : List Nat
  binMs : Nat
  sprint : Bool
  filler : Nat
  /-- The cap and LIMIT_SUST in force in this millisecond (R388, R404, R419). -/
  cap : Nat
  sust : Nat
  /-- Milliseconds in which both blades have carried current since single-blade operation (R389). -/
  bothMs : Nat
  /-- An input excursion below 40.0 V, and the millisecond from which it was 40.0 V or more (R414). -/
  excursion : Bool
  backMs : Option Nat
  /-- Sensors marked faulty, by die × 4 + sensor (R410). -/
  faulty : Map Bool
  /-- The data word of the frame that LOAD_HINT sent last (R417, R528). -/
  hint : Option Word
  /-- The two blades (R523). -/
  bladeA : Blade := {}
  bladeB : Blade := {}
deriving DecidableEq, Repr

/-- The controllers after the auxiliary rail came on. -/
def PowerSt.reset : PowerSt :=
  { samples := [], pPrev := 0, energy := 0, slowMs := 0, thrPower := 0, thrTherm := 0, thrInput := 0, pace := [0, 0, 0], below := 0,
    over16 := 0, bins := [0], binMs := 0, sprint := false, filler := 0, cap := 6400, sust := 6400, bothMs := 0, excursion := false,
    backMs := none, faulty := [], hint := none }

/-! ## Host side (R497 to R507) -/

/-- What the host and the driver see of the module beside its registers. -/
structure HostSt where
  /-- Host memory as the module has written it; an unlisted byte is one it has not written. -/
  mem : List Host.Cell
  /-- MSI-X table words by index, pending vectors, and the vectors sent by the latest commands, newest first (R499). -/
  msix : Map Word
  pending : Map Bool
  sent : List Nat
  /-- The control slot in which each ring vector was raised last (R499). -/
  raised : Map Nat
  /-- Log ring entries by Trunk die (0 or 1) × 16384 + place, entries written since firmware load, and the next SEQ to mirror (R505, R506). -/
  log : Map (List Byte)
  logN : List Nat
  mirrorN : List Nat
  /-- The control slot in which a failed mirror write was recorded last (R506). -/
  failSlot : Map Nat
  /-- PERST# is asserted (R518). -/
  perst : Bool
deriving DecidableEq, Repr

/-- The host side at reset. -/
def HostSt.reset : HostSt :=
  { mem := [], msix := [], pending := [], sent := [], raised := [], log := [], logN := [0, 0], mirrorN := [0, 0], failSlot := [],
    perst := false }

/-! ## Serving (R252 to R275, R298 to R300) -/

/-- An open request (R255 to R260). Phases: 0 waits for a slot, 1 waits for its session's moves, 2 runs in its slot, 3 drains to be parked,
4 drains to move to the spread class (R192), 5 waits for its session's park, 6 drains to be admitted again (R443), 7 waits to be admitted again after a
failover (R466). -/
structure Request where
  id : Nat
  job : Nat
  ring : Nat
  /-- The tracker whose rings it uses (R457). -/
  home : Nat
  prompt : Nat
  maxNew : Nat
  due : Option Nat
  inclStop : Bool
  seed : Nat
  seedChosen : Bool
  graft : Option Nat
  /-- The Tier 2 tiles of the graft for each target, where it is registered (R241, R244). -/
  graftAt : List Nat
  ttl : Nat
  session : Nat
  resume : Bool
  /-- Its placement class is the spread one (R191). -/
  spread : Bool
  /-- Positions the session held when the request began. -/
  base : Nat
  phase : Nat
  slot : Nat
  poolEnt : Nat
  anomaly : Bool
  /-- Stream entries written, the next INDEX to release, and the one at its latest admission. -/
  written : Nat
  next : Nat
  at0 : Nat
  /-- The last token released, and the parameter block (R255). -/
  token : Nat
  param : List Byte
  /-- The slow-clock millisecond and the count of its last committed step (R298, R299). -/
  stepMs : Nat := 0
  stepNo : Nat := 0
deriving DecidableEq, Repr

/-- A run of tiles that moves between the tiers: Tier 1 offset, Tier 2 window tile, tiles, direction. -/
structure Piece where
  t1 : Nat
  t2 : Nat
  tiles : Nat
  inward : Bool
deriving DecidableEq, Repr

/-- A session that is retained or parked, or on its way (R215 to R217, R298, R299). States: 0 retained, 1 parked, 2 parking, 3 unparking,
4 expired (R216), 5 unparked, its extents held until its slot change is applied (R217). -/
structure Session where
  job : Nat
  slot : Nat
  len : Nat
  spread : Bool
  ttl : Nat
  /-- The millisecond and the count of its last committed step, and the millisecond at which its time to live elapses. -/
  stepMs : Nat
  stepNo : Nat := 0
  due : Nat
  st : Nat
  /-- Evicted for an admission (R299), or moved to the spread class (R192). -/
  evicted : Bool
  toSpread : Bool
  /-- Discarded once its unpark ends, since its request was cancelled (R298). -/
  drop : Bool
  ext : List Piece
  /-- The park record's cache format, the page that each extent holds, and the last token (R215, R266). -/
  format : Nat := 0
  keys : List Nat := []
  token : Nat
deriving DecidableEq, Repr

/-- A tracker's own state (R252 to R260, R457). -/
structure Tracker where
  /-- Open requests in submission order. -/
  reqs : List Request
  /-- Held stream entries by ring, and held completions (R259). -/
  holdS : Map (List (List Byte))
  holdC : List (List Byte)
  /-- Jump reports received (R115), and jobs whose last records were discarded for a replay (R260). -/
  jumps : List JumpRep
  replayed : Map Bool
  /-- The last intent record: the entry, its host address, and the tail register with its new value (R457). -/
  intent : Option (List Byte × Nat × Nat × Nat)
  /-- LEN history: frame, session and LEN (R466). -/
  lens : List (Nat × Nat × Nat)
  /-- Its control cluster is lost (R456). -/
  lost : Bool
deriving DecidableEq, Repr

/-- A tracker at reset. -/
def Tracker.reset : Tracker :=
  { reqs := [], holdS := [], holdC := [], jumps := [], replayed := [], intent := none, lens := [], lost := false }

/-- A set of tier moves that the firmware carries out (R215, R217, R244, R270). Kinds: 0 park, 1 unpark, 2 canopy eviction, 3 canopy load
from Tier 2, 4 graft in, 5 graft out. -/
structure Transfer where
  kind : Nat
  key : Nat
  todo : List Piece
  open_ : Nat
  status : Nat
deriving DecidableEq, Repr

/-- A shard of a model (R369 to R371, R379): its manifest entry, attempts, and 0 to queue, 1 queued, 2 waits for its digest, 3 present, 4 under
digest. -/
structure Shard where
  index : Nat
  node : Nat
  member : Nat
  off : Nat
  tiles : Nat
  pgroup : Nat
  digest : List Byte
  tag : List Byte
  words : List Word
  host : Nat
  isSealed : Bool
  pool : Bool
  attempts : Nat
  st : Nat
  /-- When its latest digest ended (R381), and whether it is being rebuilt (R382). -/
  seenMs : Nat
  rebuild : Bool
deriving DecidableEq, Repr

/-- A canopy model (R269): state, placement, the millisecond of its last use, Tier 2 pieces, and its shards; of one that is to move out once every
job slot of its job is free, whether it goes to Tier 2 (R269, R270). -/
structure Model where
  st : Nat
  place : Nat
  usedMs : Nat
  ext : List Piece
  shards : List Shard
  leaving : Option Bool := none
deriving DecidableEq, Repr

/-- A canopy model at plan load (R268). -/
def Model.absent : Model := { st := 0, place := 0, usedMs := 0, ext := [], shards := [] }

/-- A CANOPY_LOAD that runs or waits (R270, R272): request, model, STANDBY_OK, its manifests, and the placement chosen, if it runs. -/
structure CanopyLoad where
  id : Nat
  tracker : Nat
  model : Nat
  standby : Bool
  manifest : List Byte
  /-- Where the shards' bytes lie in host memory, and whether they are staged in the pool (R376). -/
  host : Nat
  staged : Bool
  chosen : Option Nat
  former : Nat
  /-- The firmware runs it again after a double failure (R467): no request waits for its completion. -/
  again : Bool
  /-- The verdict on the manifest's signature, and whether the manifest has been checked (R372). -/
  sigOk : Bool := true
  checked : Bool := true
deriving DecidableEq, Repr

/-- A graft pool entry (R244): the graft, its references, when the last one ended, whether its tiles are in place, its Tier 2 tiles, and the first
tile of each target of the version that it holds (R245). -/
structure PoolEnt where
  graft : Nat
  refs : Nat
  idleMs : Nat
  ready : Bool
  ext : List Piece
  places : List Nat := []
deriving DecidableEq, Repr

/-- A graft in training (R247): m, verdicts taken, consecutive jumps, and whether training has stopped. -/
structure Training where
  mean : Word
  seen : Nat
  jumps : Nat
  stopped : Bool
  factor : Word
deriving DecidableEq, Repr

/-- A shard in the load engine (R377, R384): host address, path, tag, placement words, GCM tag and deadline. -/
structure LdShard where
  host : Nat
  isSealed : Bool
  pool : Bool
  tag : Nat
  words : List Word
  gcm : List Word
  due : Nat
deriving DecidableEq, Repr

/-- A key in a decryptor (R377): KEY_ID, the key, and the salt of the IVs. -/
structure LdKey where
  id : Nat
  key : BitVec 256
  salt : Nat
deriving DecidableEq, Repr

/-- The load engine of die 1 (R378, R384): queued shards, the first one running; completions; and the decryptors' keys by die (R377). -/
structure Loader where
  queue : List LdShard
  done : List (Nat × Nat)
  keys : Map (Option LdKey)
  /-- Tags of the firmware's shards: model × 2^20 + INDEX. -/
  tags : Map Nat
  nextTag : Nat
deriving DecidableEq, Repr

/-- The load engine at reset. -/
def Loader.reset : Loader := { queue := [], done := [], keys := [], tags := [], nextTag := 0 }

/-- What the sampler keeps of a job slot (R256, R261 to R264): MODE, TOP_K, TOP_P, the rounded reciprocal of the temperature (none for 0), SEED,
MAX_NEW, the stop tokens, the stop sequences as stored, the history, newest last, INDEX, and the STOPPED word. -/
structure Sampler where
  mode : Nat
  topK : Nat
  topP : Word
  it : Option Word
  seed : Nat
  maxNew : Nat
  stops : List Nat
  seqs : List (List Int)
  history : List Int
  index : Nat
  stopped : Bool
deriving DecidableEq, Repr

/-- The routing statistics accumulated for a job and layer (R251): OVERFLOWS, DROPS, NAN_ROWS and LANES_USED. -/
structure RouteSum where
  overflows : Nat
  drops : Nat
  nanRows : Nat
  lanes : Nat
deriving DecidableEq, Repr

/-- The move of a page's parity records to their sealed home that waits for the page's last record (R214): the job slot, the group and first
layer of its parity record, the page, and the job step at whose boundary it is due. -/
structure ParityMove where
  job : Nat
  slot : Nat
  group : Nat
  layer : Nat
  page : Nat
  step : Nat
deriving DecidableEq, Repr

/-- The serving firmware's state. -/
structure ServSt where
  sessions : Map (Option Session)
  models : Map Model
  loads : List CanopyLoad
  /-- The last CANOPY_LOAD of each model (R467). -/
  lastLoad : Map (Option CanopyLoad)
  transfers : Map (Option Transfer)
  /-- Tags of the firmware's moves, with the transfer each belongs to; the next tag and the next transfer. -/
  tags : Map Nat
  nextTag : Nat
  nextKey : Nat
  pool : Map (Option PoolEnt)
  /-- XOR-writes of pool entries on their way to parity extents of other modules, by request slot, with the entry; and the next slot (R375). -/
  xorOut : Map (Option Nat) := []
  xorNext : Nat := 0
  training : Map Training
  /-- The pool entry that a job slot's GRAFT words name, by job × 4096 + slot (R242, R244). -/
  grafted : Map Nat
  /-- SEALED_LIMIT by session slot, layer and group: job × 2^38 + slot × 2^26 + layer × 2^16 + group (R196, R198). -/
  sealedTo : Map Nat
  /-- The two FP32 copies of each SEALED_LIMIT word, by twice that key plus the parity (R198). -/
  sealedCopy : Map Word
  /-- Parity records that wait to move to their sealed homes (R214). -/
  parityWait : List ParityMove
  /-- By job slot, at job × 4096 + slot: the sampling record and stop data, and the prompt tokens in the prompt buffer, as their host address and
  number (R256). -/
  samplers : Map (Option Sampler)
  prompts : Map (Nat × Nat)
  /-- The two FP32 copies of each GRAFT word, at twice that key plus the parity (R242). -/
  graftCopy : Map Word
  /-- Routing statistics, at job × 1024 + layer (R251). -/
  routing : Map RouteSum
  /-- Transfers that a module loss interrupted, as kind and key: they start again under the fallback plan (R218, R272). -/
  again : List (Nat × Nat)
  /-- Frame boundaries that committed steps, counted (R299). -/
  commits : Nat
  /-- Jobs in the wide-all event (R117), and the state of each layer by job × 1024 + layer. -/
  wideAll : Map Bool
  wideLayer : Map Bool
  /-- The layers last known NORMAL, by job and layer as before (R117). -/
  normalLayer : Map Bool
  /-- What die 0 forwarded last of a step notice or a jump report (R115, R182). -/
  forwarded : Option Forward
deriving DecidableEq, Repr

/-- The serving firmware's state at reset. -/
def ServSt.reset : ServSt :=
  { sessions := [], models := [], loads := [], lastLoad := [], transfers := [], tags := [], nextTag := 0, nextKey := 0, pool := [], xorOut := [], xorNext := 0, training := [], grafted := [],
    sealedTo := [], sealedCopy := [], parityWait := [], samplers := [], prompts := [], graftCopy := [], routing := [],
    again := [], commits := 0, wideAll := [], wideLayer := [], normalLayer := [], forwarded := none }

/-! ## Start and shutdown (R424 to R441) -/

/-- The Taproot die's start and shutdown sequencer beside its registers, and what retained memory holds beside the speed map (R431). -/
structure StartSt where
  /-- When the start in progress was accepted, as a moment and in slow-clock milliseconds, and its present step began (R427). -/
  t0 : Nat
  t0Ms : Nat
  since : Nat
  /-- The end of the pre-commit window of a pending shutdown, and the moment at which a committed one is complete (R437). -/
  commitAt : Nat
  downAt : Nat
  /-- What the two slot identification lands spell (R36). -/
  lands : Nat
  /-- Controller milliseconds in a row with the input between 40.0 V and 60.0 V (R426, R438). -/
  goodMs : Nat
  /-- The moment at which the module entered STANDBY (R426). -/
  standbyAt : Nat
  /-- The last shutdown cause in the fault record: 0 request, 1 input fault, 2 start failure (R431). -/
  lastCause : Nat
  /-- Codes 0x6011 and 0x7011 in the fault record, newest first, with their details (R431). -/
  faults : List (Nat × Nat)
  /-- Installation speed maps passed by the tray BMC and by the driver, and whether one was received and discarded (R433). -/
  copyBmc : Option (List Word)
  copyDrv : Option (List Word)
  mapBad : Bool
  /-- Logical core by physical core of the module in the repair state; unlisted: as on an unrepaired die (R431, R449). -/
  mapping : Map Nat
  /-- Spare scratchpad rows used by bank (physical core × 32 + bank), in the repair state (R448). -/
  padRows : Map Nat
  /-- Cold and warm starts, as the header of retained memory counts them (R431). -/
  colds : Nat
  warms : Nat
deriving DecidableEq, Repr

/-- The sequencer right after the auxiliary rail came on. -/
def StartSt.reset : StartSt :=
  { t0 := 0, t0Ms := 0, since := 0, commitAt := 0, downAt := 0, lands := 0, goodMs := 0, standbyAt := 0, lastCause := 0, faults := [], copyBmc := none, copyDrv := none,
    mapBad := false, mapping := [], padRows := [], colds := 0, warms := 0 }

/-! ## Self-test (R444 to R455) -/

/-- A self-test slice on a unit: its SLICE_ID, the time it has run before its present turn, and when that turn began (R446). -/
structure SliceRun where
  id : Nat
  ran : Nat
  since : Nat
deriving DecidableEq, Repr

/-- A failure report (R447). -/
structure FailRep where
  kind : Nat
  unit : Nat
  addr : Nat
  bit : Nat
deriving DecidableEq, Repr

/-- The self-test block of a die beside its registers: the unit whose slice runs, slices by unit, running or suspended, and the report queue. -/
structure BstSt where
  running : Option Nat
  slices : Map (Option SliceRun)
  reports : List FailRep
deriving DecidableEq, Repr

/-- A self-test block after reset. -/
def BstSt.reset : BstSt := { running := none, slices := [], reports := [] }

/-! ## Failover (R456 to R469) -/

/-- A plan load during its floor reduction (R143, R496): the unit and container, whether every other module reports success, whether the signature is
valid, the module words that have reached this module by node, the other modules eligible as anchor, the nodes that completed a start since they
were fenced, and whether a module's loss ended the reduction, which is then reissued after the failover. -/
structure PlanReq where
  unit : Nat
  file : List Byte
  othersOk : Bool
  sigOk : Bool
  words : Map (BitVec 128)
  eligible : List Nat
  returned : List Nat
  ended : Bool := false
deriving DecidableEq, Repr

/-- What the firmware keeps for membership and failover. -/
structure FoSt where
  /-- When a heartbeat of Trunk cluster 0 or 1 arrived last, and of each neighbour node (R456, R461). -/
  trunkBeat : Map Nat
  beats : Map Nat
  /-- The membership round: its number, when it began, and the alives that arrived, each once, as round × 65536 + node (R461, R462). -/
  round : Nat
  since : Nat
  heard : List Nat
  /-- The decision that this module has broadcast as coordinator (R462). -/
  sent : Option (List Nat)
  /-- When the fault arose (R472), and the frame in which the slice stopped (R466). -/
  faultAt : Nat
  stopFrame : Nat
  /-- Modules of the slice lost since its plan was loaded (R463, R469). -/
  lost : List Nat
  /-- The failover in progress: its entry, and the lost nodes that it is to treat next (R467). -/
  entry : Option Fallback
  later : List Nat
  /-- The parity regions that the failover enabled, as stack and region (R465). -/
  regions : List (Nat × Nat)
  /-- The plan load whose floor reduction is in progress, or waits for a failover to end (R496). -/
  planReq : Option PlanReq := none
deriving DecidableEq, Repr

/-- The failover state of a module in which nothing happened. -/
def FoSt.reset : FoSt :=
  { trunkBeat := [], beats := [], round := 0, since := 0, heard := [], sent := none, faultAt := 0, stopFrame := 0, lost := [], entry := none,
    later := [], regions := [] }

/-! ## Global operations (R362 to R364) -/

/-- A global operation in flight: OP, SEQ and when it began. -/
structure GopRun where
  op : Nat
  seq : Nat
  since : Nat
deriving DecidableEq, Repr

/-- What a snapshot latches at die 0 (R362): FRAME_NUM, applied s, the slot timelines with the steps of their jobs, the accounting, and whether
the capture was late (R364). -/
structure Snap where
  frame : Nat
  s : Nat
  slots : Map (List SlotPoint)
  steps : Map Nat
  acctSteps : Map Nat
  acctSlots : Map Nat
  acctReplays : Map Nat
  late : Bool
deriving DecidableEq, Repr

/-- The global operations of die 0 beside the GOP registers: those in flight, one of a kind; those queued, as OP and SEQ; the frames of a
capture and a reset to come; and the last snapshot. -/
structure GopSt where
  flight : List GopRun
  queue : List (Nat × Nat)
  capture : Option Nat
  resetAt : Option Nat
  snap : Option Snap
deriving DecidableEq, Repr

/-- No global operation. -/
def GopSt.reset : GopSt := { flight := [], queue := [], capture := none, resetAt := none, snap := none }

/-! ## Security (R474 to R490) -/

/-- An imported key-encryption key: bits [63:3] of its KEY_ID, and the key (R478). -/
structure Kek where
  id : Nat
  key : BitVec 256
deriving DecidableEq, Repr

/-- A service in progress (R482): the request, the Trunk die it came from, and the moment it is complete. -/
structure Service where
  req : SvcReq
  die : Nat
  due : Nat
deriving DecidableEq, Repr

/-- The Heartwood die beside its registers. -/
structure SecSt where
  /-- A condition of APPROVED has failed since the last cold start (R486). -/
  unapproved : Bool
  /-- A plan load has taken place since the last cold start (R486, R489). -/
  planSeen : Bool
  /-- The slow-clock millisecond until which authentication is refused (R476). -/
  lockMs : Nat
  /-- A challenge is still to be answered (R476). -/
  challenge : Bool
  keks : Map (Option Kek)
  /-- The appliance public key and certificates, as imported (R478). -/
  appliance : Option (List Byte)
  /-- The digest and feature word of the running image (R478, R483). -/
  fwDigest : List Byte
  fwWord : BitVec 128
  /-- The digests of the manifests loaded since start, in load order (R483). -/
  manifests : List (List Byte)
  service : Option Service
  /-- Volatile CSPs are present: the key ladder has run since the last reset or zeroisation (R478, R486). -/
  csps : Bool
  /-- The mesh cycle in which a grant or a withdrawal of the Service permission last arrived at a die (R487). -/
  arrived : Map Nat
deriving DecidableEq, Repr

/-- The Heartwood die after its supply came on. -/
def SecSt.reset : SecSt :=
  { unapproved := false, planSeen := false, lockMs := 0, challenge := false, keks := [], appliance := none, fwDigest := [], fwWord := 0#128,
    manifests := [], service := none, csps := false, arrived := [] }

/-! ## Trace capture (R508 to R512) -/

/-- A trace capture unit beside its registers (R508, R512): its buffer, oldest record first; the mesh cycle of the latest record, the records since
the trigger, when its present state began, the mesh cycle of the trigger counted last, and that of the write of ARM that began the present PRE. -/
structure TrcSt where
  buf : List (BitVec 128)
  last : Option Nat
  post : Nat
  since : Nat
  missedCyc : Option Nat
  armCyc : Option Nat
  /-- Cross-die trigger messages on their way to this die (R509). -/
  coming : Nat
deriving DecidableEq, Repr

/-- A trace unit after reset. -/
def TrcSt.reset : TrcSt := { buf := [], last := none, post := 0, since := 0, missedCyc := none, armCyc := none, coming := 0 }

/-! ## The whole machine -/

/-- The state of the module. -/
structure State where
  /-- The moment of the latest command, in units of 100 ps (log entry 1). -/
  now : Nat
  /-- Where the edges of the mesh clock lie: units after a multiple of five (R26, R27, log entry 110). -/
  meshOff : Nat
  /-- The commands that wait, first in first out. -/
  pending : List Instr
  /-- The count of free values drawn (log entry 9). -/
  fresh : Nat
  /-- What the latest register read or service response returned (log entry 6). -/
  lastRead : Word
  lastBytes : List Byte
  /-- The response of the latest access performed at a home, and the fabric message the module sent last (R343). -/
  lastResp : Resp
  lastSent : Option FabMsg
  /-- The port by which it left, if it left the module (R341). -/
  lastPort : Option Nat
  /-- The step notice, with its jump report, that a watch unit or die 0 sent last (R115, R182). -/
  lastNote : Option (StepNote × Option JumpRep)
  /-- The register file, by BAR0 offset; an unlisted register is at its reset value (R535). -/
  regs : Map Word
  /-- Event counters by page × 2 + n, and their HI latches (R16, R17). -/
  cnt : Map Dword
  cntLatch : Map Word
  /-- By page number: counted events that come cycle by cycle and that no counter has taken yet (R89). -/
  accruals : Map (List Accrual)
  /-- For each page number (die × 256 + page): the target of a running power transition that differs from POWER_REQ (R14). -/
  trans : Map Nat
  /-- Pages whose SOFT_RESET waits for an engine (R538). -/
  softWait : Map Bool
  /-- The moment a swap or a change was armed, and of a sampled register's last write with its old value, by BAR0 offset. -/
  armT : Map Nat
  shadow : Map (Nat × Word)
  /-- Dies holding the Service permission (R487). -/
  service : Map Bool
  /-- Rails that are on (R391), by the numbers of `Rail`. -/
  rails : Map Bool
  /-- Dies in reset, with the moment the reset ends (R435). -/
  dieReset : Map Nat
  /-- When each rail came on, by its number, and each die left its last reset, by 100 + die: from then on its pages are reachable (R14, R536). -/
  upAt : Map Nat
  /-- The module stands on the bench carrier (R3). -/
  bench : Bool
  /-- The slice of the running plan, and the trays of the rack and racks of the installation (R36, R37). -/
  slice : Slice
  ny : Nat
  nz : Nat
  cores : Map CoreSt
  routers : Map Router
  frs : Map Frs
  /-- Tier 1 by module offset, and what each 64-byte line holds (R291); an unlisted byte is zero in a never-written line (log entry 10). -/
  t1 : List Host.Cell
  t1line : Map LineSt
  /-- Stacks whose unlisted lines are clean, since ZERO_INIT filled them (R465). -/
  t1clean : Map Bool
  /-- The CXL pool by pool address, and the 64-byte lines that its device holds as poisoned (R294, log entry 10). -/
  t2 : List Host.Cell
  t2bad : Map Bool
  /-- Memory controllers by stack, spare rows used by bank (stack × 2048 + channel × 64 + bank, kept through power-off), home queues by die. -/
  mbc : Map Mbc
  rowsUsed : Map Nat
  /-- The repair state (R431, R448): DRAM rows recorded unusable (stack × 2^26 + the row as PPR_CTRL names it), and dies. -/
  badRows : Map Bool
  badDies : Map Bool
  homeQ : Map HomeQ
  mover : Mover
  ports : Map PortSt
  /-- Retained equalisation data by port: the digest of the partner's identity (R319). -/
  retained : Map (Option (BitVec 128))
  /-- The cabling record in force, and the one that takes effect at the next start (R36). -/
  cab : Option Cabling
  cabNext : Option Cabling
  /-- The fused firmware version floor (R480). -/
  svnFloor : Nat
  /-- The plan unit in force, and the one armed for the next boundary (R143). -/
  plan : Option PlanInfo
  planNext : Option PlanInfo
  /-- Norm-watch states and means that the firmware saved for a fallback switch, by job × 1024 + layer (R118). -/
  nwKept : Map (Word × Word)
  /-- The loaded container, as the driver keeps it in host memory (R460). -/
  container : List Byte
  power : PowerSt
  /-- Speed-map entries by physical core, in retained memory (R398); an unlisted one is at 1,800 MHz (log entry 25). -/
  smap : Map Word
  /-- Droops in progress by compute die: since when (R413). -/
  droop : Map Nat
  /-- Clock states of a memory die's units (R396), by stack × 2 + unit; unlisted GATED. -/
  memUnits : Map ClkMode
  /-- Those units that a GATE found at work: they are gated once they are idle (R163). -/
  memGates : Map Bool
  /-- The firmware has declared the module lost and floods DEPART (R458, R461). -/
  departing : Bool
  host : HostSt
  /-- The request trackers by Trunk die, 0 for die 0 and 1 for die 99, and the serving firmware. -/
  trackers : Map Tracker
  serv : ServSt
  loader : Loader
  /-- Start and shutdown, self-test blocks by die, failover, global operations, the Heartwood die, and trace units by die. -/
  start : StartSt
  bst : Map BstSt
  fo : FoSt
  gop : GopSt
  sec : SecSt
  trc : Map TrcSt
  /-- Actions of recent cycles by page number (die × 256 + page), for the rules on coincidence (R17, R18, R20). -/
  marks : Map PageMark
deriving DecidableEq, Repr

/-- The module right after its auxiliary rail came on, in STANDBY (R390, R424). -/
def State.reset : State :=
  { now := 0, meshOff := 0, pending := [], fresh := 0, lastRead := 0#32, lastBytes := [],
    lastResp := { generation := 0, err := 0, data := [], poison := [], late := false }, lastSent := none, lastPort := none, lastNote := none, regs := [], cnt := [], cntLatch := [], accruals := [], trans := [],
    softWait := [], armT := [], shadow := [], service := [], rails := [(0, true)], dieReset := [], upAt := [], bench := false,
    slice := { running := false, origin := 0, x := 0, y := 0, z := 0 }, ny := 0, nz := 0, cores := [],
    routers := [], frs := [], marks := [],
    t1 := [], t1line := [], t1clean := [], t2 := [], t2bad := [], mbc := [], rowsUsed := [], badRows := [], badDies := [], homeQ := [], mover := Mover.reset,
    ports := [], retained := [], cab := none, cabNext := none, svnFloor := 0,
    plan := none, planNext := none, nwKept := [], container := [], power := PowerSt.reset, smap := [], droop := [], memUnits := [], memGates := [],
    departing := false, host := HostSt.reset, trackers := [], serv := ServSt.reset, loader := Loader.reset,
    start := StartSt.reset, bst := [], fo := FoSt.reset, gop := GopSt.reset, sec := SecSt.reset, trc := [] }

end Sys2Proof.Machine
end

