-- ==== Sys2Proof/Machine/Pages.lean ====
section
/-!
DEFINITION. Sys2Proof/Machine/Pages.lean: the die map (R22 to R24) and the register page directory (R530 to R537): which page stands
where, what it identifies itself as, and what each of its registers reads after reset.
-/
namespace Sys2Proof.Machine

/-- The die types of R23. -/
inductive DieType where
  | trunk | hostLink | bough | memory | compute | heartwood | taproot
deriving DecidableEq, Repr

/-- The block types of R532. -/
inductive Block where
  | core | mxe | vxe | mve | spm | dmr | frs | mbc | lnk | bgd | hlk | tcc | req | hwd | tpr | clk | thm | pwr | bst | trc
deriving DecidableEq, Repr

/-- The rails of R391 by number: AUX, CTL, MEM, LINK, then CORE 0 to 7. -/
inductive Rail where
  | aux | ctl | mem | link
  | core (r : Nat)
deriving DecidableEq, Repr

/-- A rail's key in `State.rails`. -/
def Rail.key (r : Rail) : Nat :=
  match r with
  | .aux => 0
  | .ctl => 1
  | .mem => 2
  | .link => 3
  | .core k => 4 + k

/-- The memory dies in ordinal order (R23). -/
def memDies : List Nat := [3, 4, 5, 6, 30, 39, 40, 49, 50, 59, 60, 69, 93, 94, 95, 96]

/-- The Bough dies in ordinal order (R23). -/
def boughDies : List Nat := [2, 7, 8, 10, 19, 20, 29, 70, 79, 80, 89, 91, 92, 97]

/-- The position of a number in a list, or the list's length. -/
def indexIn (l : List Nat) (x : Nat) : Nat :=
  match l with
  | [] => 0
  | a :: r => if a = x then 0 else indexIn r x + 1

/-- The type of a die (R23). -/
def dieType (d : Nat) : DieType :=
  if d = 0 ∨ d = 99 then .trunk
  else if d = 1 ∨ d = 98 then .hostLink
  else if d = 9 then .heartwood
  else if d = 90 then .taproot
  else if memDies.contains d then .memory
  else if boughDies.contains d then .bough
  else .compute

/-- A die's ordinal within its type (R24). -/
def dieOrd (d : Nat) : Nat :=
  match dieType d with
  | .trunk => if d = 0 then 0 else 1
  | .hostLink => if d = 1 then 0 else 1
  | .heartwood => 0
  | .taproot => 0
  | .memory => indexIn memDies d
  | .bough => indexIn boughDies d
  | .compute => (d / 10 - 1) * 8 + (d % 10 - 1)

/-- The index of the compute die of an ordinal (R24). -/
def cpDie (o : Nat) : Nat := (o / 8 + 1) * 10 + o % 8 + 1

/-- The index of the memory die of a stack (R24). -/
def mmDie (o : Nat) : Nat := nth memDies o 3

/-- The index of the Bough die of an ordinal (R24). -/
def bgDie (o : Nat) : Nat := nth boughDies o 2

/-- The compute die and the core number on it of a physical core of the module. -/
def coreDie (c : Nat) : Nat := cpDie (c / 18)

/-- The core number on its die of a physical core of the module. -/
def coreOnDie (c : Nat) : Nat := c % 18

/-- The page of a physical core's block: 0 CORE, 1 MXE, 2 VXE, 3 MVE, 4 SPM (R530). -/
def corePage (c k : Nat) : Nat := 0x10 + 8 * coreOnDie c + k

/-- The page number of a LNK page and its die, of a port (R530, R335). -/
def portDie (p : Nat) : Nat := bgDie (p / 3)

/-- The page of a port on its Bough die (R530). -/
def portPage (p : Nat) : Nat := 9 + p % 3

/-- The block at a page of a die, if the page is implemented (R530). -/
def pageBlock (die page : Nat) : Option Block :=
  let t := dieType die
  match page with
  | 0x00 => some .dmr
  | 0x01 => if t = .heartwood then none else some .frs
  | 0x02 => some .clk
  | 0x03 => if t = .heartwood ∨ t = .taproot then none else some .bst
  | 0x04 => some .trc
  | 0x08 =>
    match t with
    | .memory => some .mbc
    | .bough => some .bgd
    | .hostLink => some .hlk
    | .trunk => some .tcc
    | .heartwood => some .hwd
    | .taproot => some .tpr
    | .compute => none
  | 0x09 =>
    match t with
    | .bough => some .lnk
    | .trunk => some .req
    | .taproot => some .pwr
    | _ => none
  | 0x0A =>
    match t with
    | .bough => some .lnk
    | .taproot => some .thm
    | _ => none
  | 0x0B => if t = .bough then some .lnk else none
  | _ =>
    if t = .compute ∧ 0x10 ≤ page ∧ page ≤ 0x9C then
      match page % 8 with
      | 0 => some .core
      | 1 => some .mxe
      | 2 => some .vxe
      | 3 => some .mve
      | 4 => some .spm
      | _ => none
    else none

/-- A block's type code (R532). -/
def blockCode (b : Block) : Nat :=
  match b with
  | .core => 0x01
  | .mxe => 0x02
  | .vxe => 0x03
  | .mve => 0x04
  | .spm => 0x05
  | .dmr => 0x06
  | .frs => 0x10
  | .mbc => 0x20
  | .lnk => 0x30
  | .bgd => 0x31
  | .hlk => 0x40
  | .tcc => 0x50
  | .req => 0x51
  | .hwd => 0x60
  | .tpr => 0x70
  | .clk => 0x71
  | .thm => 0x72
  | .pwr => 0x73
  | .bst => 0x80
  | .trc => 0x81

/-- PAGE_CAPS of a block on a die (R532). -/
def blockCaps (b : Block) (die : Nat) : Word :=
  match b with
  | .core => 0x00000603#32
  | .mxe => 0x00000903#32
  | .vxe => 0x00000803#32
  | .mve => 0x00000803#32
  | .spm => 0x00000403#32
  | .dmr => 0x00000803#32
  | .frs => if dieType die = .compute then 0x00051003#32 else 0x00050B03#32
  | .mbc => 0x00000F03#32
  | .lnk => 0x00040B03#32
  | .bgd => 0x00000303#32
  | .hlk => 0x00000903#32
  | .tcc => 0x00000503#32
  | .req => 0x00000603#32
  | .hwd => 0x00000503#32
  | .tpr => 0x00040503#32
  | .clk => 0x00000503#32
  | .thm => 0x00000203#32
  | .pwr => 0x00000503#32
  | .bst => 0x00000403#32
  | .trc => 0x00010203#32

/-- The instance number a page reports (R531). -/
def pageInstance (b : Block) (die page : Nat) : Nat :=
  match b with
  | .core => (page - 0x10) / 8
  | .mxe => (page - 0x10) / 8
  | .vxe => (page - 0x10) / 8
  | .mve => (page - 0x10) / 8
  | .spm => (page - 0x10) / 8
  | .lnk => 3 * dieOrd die + (page - 9)
  | _ => dieOrd die

/-- The rail that powers a page (R536). -/
def pageRail (die page : Nat) : Rail :=
  if page = 0 then (if die = 90 then .aux else .ctl)
  else
    match dieType die with
    | .trunk => .ctl
    | .hostLink => .ctl
    | .heartwood => .ctl
    | .taproot => .aux
    | .memory => .mem
    | .bough => .link
    | .compute => if page = 1 ∨ page = 2 ∨ page = 4 then .ctl else .core (die / 10 - 1)

/-- EDGE_PRESENT of a die, as ROUTER_STATUS bits [7:4] (R535). -/
def edgePresent (die : Nat) : Word :=
  BitVec.ofNat 32
    ((if die / 10 > 0 then 16 else 0) + (if die % 10 < 9 then 32 else 0) + (if die / 10 < 9 then 64 else 0)
      + (if die % 10 > 0 then 128 else 0))

/-- The reset value of a header register (R12). -/
def headerReset (b : Block) (die page off : Nat) : Word :=
  match off with
  | 0x000 => BitVec.ofNat 32 (blockCode b * 2 ^ 24 + pageInstance b die page * 2 ^ 16 + 0x0100)
  | 0x004 => blockCaps b die
  | 0x00C => 0x30#32
  | _ => 0#32

/-- The reset value of a block-specific register (the tables of spec/20_register_directory.md); 0 where they give none. -/
def blockReset (bench : Bool) (b : Block) (die page off : Nat) : Word :=
  match b with
  | .dmr =>
    if off = 0x044 then edgePresent die
    else if (off = 0x124 ∨ off = 0x128) ∧ die ≠ 9 ∧ die ≠ 90 then 0xFFFFFFFF#32
    else 0#32
  | .frs =>
    if dieType die = .compute then
      if off = 0x800 then 0x1008#32
      else if off = 0x804 then 0x40800000#32
      else if 0x840 ≤ off ∧ off < 0xA40 ∧ off % 0x20 = 0x14 then 3#32
      else 0#32
    else 0#32
  | .clk => if off = 0x04C then 3#32 else if off = 0x050 then 0x128#32 else 0#32
  | .bst => if off = 0x04C then 0x1F#32 else 0#32
  | .trc => if off = 0x048 then 0x800#32 else 0#32
  | .core =>
    if off = 0x040 then
      (let p := (page - 0x10) / 8
       -- the mapping of an unrepaired die, until a start writes the repair state's (R449, log entry 13)
       BitVec.ofNat 32 (if p < 16 then p else 0x1F))
    else if off = 0x044 then 0x1F#32
    else 0#32
  | .spm => if off = 0x040 then 0x00600020#32 else 0#32
  | .vxe => if off = 0x040 then 0x02000100#32 else 0#32
  | .mbc =>
    if off = 0x040 then 0x00304020#32 else if off = 0x050 then 0x1800#32 else if off = 0x060 then 0x4B#32 else 0#32
  | .bgd =>
    if off = 0x040 then BitVec.ofNat 32 (0x318 + 3 * dieOrd die * 2 ^ 16) else if off = 0x044 then 0xF#32 else 0#32
  | .lnk => if off = 0x058 then 0x14080010#32 else 0#32
  | .hlk => if off = 0x040 then (if die = 98 then 1#32 else 0#32) else if off = 0x624 ∧ die = 98 then 0x0B#32 else 0#32
  | .tcc =>
    if off = 0x0A0 then 2#32
    else if off = 0x0AC then 0x1000#32
    else if off = 0x0C0 then 0x101#32
    else if off = 0x700 ∧ die = 0 then 0x314#32
    else if off = 0x714 ∧ die = 0 then 0xFFFF#32
    else 0#32
  | .req =>
    if off = 0x050 ∨ off = 0x068 then 6#32
    else if 0x100 ≤ off ∧ off < 0x300 ∧ off % 0x20 = 0x08 then 6#32
    else 0#32
  | .hwd => if off = 0x044 then 1#32 else 0#32
  | .tpr =>
    if off = 0x048 then Config.serial.extractLsb' 0 32
    else if off = 0x04C then Config.serial.extractLsb' 32 32
    else if off = 0x050 then 0xB0#32
    else if off = 0x114 then 0x3E8#32
    else 0#32
  | .pwr =>
    match off with
    | 0x040 => 1#32
    | 0x04C => if bench then 0xC80#32 else 0x1900#32
    | 0x050 => if bench then 0#32 else 0x1C20#32
    | 0x054 => if bench then 0xC80#32 else 0xE10#32
    | 0x05C => 0x000A0306#32
    | 0x064 => 4#32
    | 0x068 => 0x00043210#32
    | 0x06C => 4#32
    | _ => if 0x080 ≤ off ∧ off < 0x0A0 then 0x600#32 else 0#32
  | .thm => if off = 0x040 then 0x00026964#32 else if off = 0x04C then 0x23#32 else 0#32
  | .mxe => 0#32
  | .mve => 0#32

/-- The BAR0 offset of a register (R21). -/
def barOff (die page off : Nat) : Nat := die * 0x100000 + page * 0x1000 + off

/-- What an unlisted register of the register file reads as: its reset value (R535), 0 outside the implemented pages. -/
def regReset (bench : Bool) (k : Nat) : Word :=
  let die := k / 0x100000
  let page := k / 0x1000 % 256
  let off := k % 0x1000
  match pageBlock die page with
  | none => 0#32
  | some b => if off < 0x040 then headerReset b die page off else blockReset bench b die page off

end Sys2Proof.Machine
end

