-- ==== Sys2Proof/Machine/Ops.lean ====
section
/-!
DEFINITION. Sys2Proof/Machine/Ops.lean: the named operations over the state that every family of commands uses: time, the register
file, errors and interrupts (R18, R20), event counters (R16, R17), block power states (R14), and access to the state of a
core, a router and a frame sequencer.
-/
namespace Sys2Proof.Machine

/-- The state at moment `t`: time never runs back (log entry 1). -/
def advance (s : State) (t : Time) : State := { s with now := max s.now t }

/-- The mesh cycle of a moment (R26): its edges lie `meshOff` units after a multiple of five, so that every frame boundary falls on one (R27). -/
def meshCyc (s : State) (t : Time) : Nat := (t + (5 - s.meshOff) % 5) / 5

/-- What a function of the state does as of an earlier moment `t`; the state's moment stays. -/
def atTime (s : State) (t : Time) (f : State → State) : State := { f { s with now := t } with now := s.now }

/-- The reference tick of a moment (R149). -/
def refTick (t : Time) : Nat := t / 64

/-! ## The register file -/

/-- The stored value of the register at a BAR0 offset. -/
def getReg (s : State) (k : Nat) : Word := mapGet s.regs k (regReset s.bench k)

/-- The state with a register's stored value replaced. -/
def putReg (s : State) (k : Nat) (v : Word) : State := { s with regs := mapPut (regReset s.bench k) s.regs k v }

/-- The stored value of a page's register. -/
def reg (s : State) (die page off : Nat) : Word := getReg s (barOff die page off)

/-- The state with a page's register replaced. -/
def setReg (s : State) (die page off : Nat) (v : Word) : State := putReg s (barOff die page off) v

/-- The state with one field of a page's register replaced. -/
def setRegFld (s : State) (die page off lo n v : Nat) : State :=
  setReg s die page off (setFld (reg s die page off) lo n v)

/-- Whether a rail is on (R391). -/
def railOn (s : State) (r : Rail) : Bool := mapGet s.rails r.key false

/-- Whether a page is implemented, powered and out of reset (R530, R536). -/
def reachable (s : State) (die page : Nat) : Bool :=
  (pageBlock die page).isSome && railOn s (pageRail die page) && (mapFind s.dieReset die).isNone

/-- The moment at which a page last became reachable (R14, R536). -/
def reachableSince (s : State) (die page : Nat) : Time :=
  max (mapGet s.upAt (pageRail die page).key 0) (mapGet s.upAt (100 + die) 0)

/-- A page's number in the maps that pages key. -/
def pageKey (die page : Nat) : Nat := die * 256 + page

/-! ## Cycles of a page's clock -/

/-- The time since `segT` in units of 1/90,000 cycle, phase included: a cycle lasts 10^7/mhz units of 100 ps, or 9/8 of it (R413). -/
def clkUnits (k : CoreClk) (t : Time) : Nat := (t - k.segT) * k.mhz * (if k.slow then 8 else 9) + k.phase

/-- The cycle number of a core's clock at a moment (R150): it stands while the clock is stopped. -/
def clkCycle (k : CoreClk) (t : Time) : Nat :=
  match k.mode with
  | .run => k.segC + clkUnits k t / 90000
  | _ => k.segC

/-- The number of the first cycle of a core's clock whose edge lies at or after a moment (R150). -/
def clkCycleUp (k : CoreClk) (t : Time) : Nat :=
  match k.mode with
  | .run => k.segC + ceilDiv (clkUnits k t) 90000
  | _ => k.segC

/-- A physical core's state. -/
def core (s : State) (c : Nat) : CoreSt := mapGet s.cores c CoreSt.reset

/-- The present cycle of a page's clock, for coincidence only: a running core's cycles, the 50 MHz cycles of die 90, and mesh cycles
elsewhere (DEDUCED, log entry 15). -/
def pageCycle (s : State) (die page : Nat) : Nat :=
  if page ≥ 0x10 ∧ dieType die = .compute then
    let k := (core s (dieOrd die * 18 + (page - 0x10) / 8)).clk
    if k.mode = .run then clkCycle k s.now * 2 + 1 else meshCyc s s.now * 2
  else if die = 90 then s.now / 200
  else meshCyc s s.now

/-- The marks of a page. -/
def pageMark (s : State) (die page : Nat) : PageMark := mapGet s.marks (pageKey die page) PageMark.none

/-- The state with a page's marks replaced. -/
def putMark (s : State) (die page : Nat) (m : PageMark) : State :=
  { s with marks := mapPut PageMark.none s.marks (pageKey die page) m }

/-! ## Errors and interrupts -/

/-- The marks of a page with an IRQ_STATUS bit set by an event, and the errors of this cycle. -/
def markIrq (m : PageMark) (cyc bit : Nat) (e : List (Nat × Nat)) : PageMark :=
  if m.irqCyc = some cyc then { m with irq := setBit m.irq bit true, errs := m.errs ++ e }
  else { m with irqCyc := some cyc, irq := setBit 0#32 bit true, errs := e }

/-- An event sets a bit of IRQ_STATUS (R18). -/
def setIrq (s : State) (die page bit : Nat) : State :=
  setReg (putMark s die page (markIrq (pageMark s die page) (pageCycle s die page) bit [])) die page 0x010
    (setBit (reg s die page 0x010) bit true)

/-- Whether a page has captured an error since ERR was last clear (R20): ERR is set and ERR_CODE holds a code, for IRQ_FORCE sets ERR without one
(R19) and no error has code 0. -/
def errHeld (s : State) (die page : Nat) : Bool := tbit (reg s die page 0x010) 0 && decide (reg s die page 0x020 ≠ 0#32)

/-- Records an error in a page (R20): the first one is captured, a later one raises OVERRUN, which saturates at 255. -/
def recordError (s : State) (die page code info : Nat) : State :=
  let s1 := putMark s die page (markIrq (pageMark s die page) (pageCycle s die page) 0 [(code % 2 ^ 16, info % 2 ^ 24)])
  if errHeld s die page then
    let o := fld (reg s die page 0x024) 24 8
    setRegFld s1 die page 0x024 24 8 (min (o + 1) 255)
  else
    setReg (setReg (setReg s1 die page 0x020 (BitVec.ofNat 32 (code % 2 ^ 16))) die page 0x024
      (BitVec.ofNat 32 (info % 2 ^ 24))) die page 0x010 (setBit (reg s die page 0x010) 0 true)

/-- A free value of a rule, drawn afresh (log entry 9). -/
def drawFree (s : State) (rule k : Nat) : Word × State := (Config.freeWord rule k s.fresh, { s with fresh := s.fresh + 1 })

/-- Records an error whose ERR_INFO detail the manual does not state: the detail is a free value (log entry 9). -/
def recordErrorFree (s : State) (die page code : Nat) : State :=
  let d := drawFree s 20 code
  recordError d.2 die page code d.1.toNat

/-! ## Event counters -/

/-- The mark of counter `i` of a page. -/
def cntMark (m : PageMark) (i : Nat) : CntMark := if i = 0 then m.c0 else m.c1

/-- The marks with counter `i`'s replaced. -/
def putCntMark (m : PageMark) (i : Nat) (c : CntMark) : PageMark := if i = 0 then { m with c0 := c } else { m with c1 := c }

/-- Counts `n` events of a code in one counter of a page (R16). In the cycle of a write of CNT_SEL or CNT_CTRL the old ones govern, and in
the cycle of a clear nothing is counted (R17). -/
def countOne (s : State) (die page code n i : Nat) : State :=
  let m := pageMark s die page
  let cyc := pageCycle s die page
  let k := cntMark m i
  let ctrl := if m.cfgCyc = some cyc then m.ctrl else reg s die page 0x02C
  let sel := if m.cfgCyc = some cyc then m.sel else reg s die page 0x028
  if tbit ctrl i && decide (fld sel (8 * i) 8 = code) && decide (k.clr ≠ some cyc) then
    let key := pageKey die page * 2 + i
    let old := mapGet s.cnt key 0#64
    let v := old.toNat + n
    let pre :=
      match k.pre with
      | some (c, w) => if c = cyc then some (c, w) else some (cyc, old)
      | none => some (cyc, old)
    let wraps := decide (v ≥ 2 ^ 64)
    let wrap := if wraps && !tbit (reg s die page 0x010) (i + 1) then some cyc else k.wrap
    let s1 := putMark { s with cnt := mapPut 0#64 s.cnt key (BitVec.ofNat 64 v) } die page
      (putCntMark m i { k with pre := pre, wrap := wrap })
    if wraps then setIrq s1 die page (i + 1) else s1
  else s

/-- Counts `n` events of a code in a page's counters (R16, R17); code 0 counts nothing. -/
def count (s : State) (die page code n : Nat) : State :=
  if code = 0 ∨ n = 0 then s else countOne (countOne s die page code n 0) die page code n 1

/-- Counts `n` events of earlier cycles in one counter: a read of this cycle sees them (R16, R17). -/
def countPastOne (s : State) (die page code n i : Nat) : State :=
  let m := pageMark s die page
  let k := cntMark m i
  if n ≠ 0 ∧ tbit (reg s die page 0x02C) i = true ∧ fld (reg s die page 0x028) (8 * i) 8 = code then
    let key := pageKey die page * 2 + i
    let v := (mapGet s.cnt key 0#64).toNat + n
    let pre := k.pre.map (fun p => (p.1, p.2 + BitVec.ofNat 64 n))
    let s1 := putMark { s with cnt := mapPut 0#64 s.cnt key (BitVec.ofNat 64 v) } die page (putCntMark m i { k with pre := pre })
    if v ≥ 2 ^ 64 then setIrq s1 die page (i + 1) else s1
  else s

/-- Counts `n` events of a code that fell in earlier cycles of the page. -/
def countPast (s : State) (die page code n : Nat) : State := countPastOne (countPastOne s die page code n 0) die page code n 1

/-- An event of a code in each of `n` cycles of the page's core clock from `lo` on (R89). -/
def accrue (s : State) (die page code lo n : Nat) : State :=
  let k := pageKey die page
  { s with accruals := mapPut [] s.accruals k (mapGet s.accruals k [] ++ [{ code := code, lo := lo, hi := lo + n }]) }

/-- The counters of a page take the accrued events of the cycles before `cyc`. -/
def settleAccruals (s : State) (die page cyc : Nat) : State :=
  let k := pageKey die page
  let l := mapGet s.accruals k []
  let s1 := foldState (fun u a => countPast u die page a.code (min a.hi cyc - a.lo)) s l
  { s1 with accruals := mapPut [] s1.accruals k ((l.filter (fun a => decide (cyc < a.hi))).map (fun a => { a with lo := max a.lo cyc })) }

/-- The value of counter `i` of a page as a read of this cycle sees it: the value before this cycle's events (R17). -/
def counter (s : State) (die page i : Nat) : Dword :=
  match (cntMark (pageMark s die page) i).pre with
  | some (c, w) => if c = pageCycle s die page then w else mapGet s.cnt (pageKey die page * 2 + i) 0#64
  | none => mapGet s.cnt (pageKey die page * 2 + i) 0#64

/-- Clears counter `i` of a page; a wrap of the same cycle leaves no overflow bit (R17). -/
def clearCounter (s : State) (die page i : Nat) : State :=
  let m := pageMark s die page
  let cyc := pageCycle s die page
  let k := cntMark m i
  let m1 := putCntMark m i { clr := some cyc, pre := none, wrap := none }
  let s1 := { s with cnt := mapErase s.cnt (pageKey die page * 2 + i) }
  if k.wrap = some cyc then
    setReg (putMark s1 die page { m1 with irq := setBit m1.irq (i + 1) false }) die page 0x010
      (setBit (reg s die page 0x010) (i + 1) false)
  else putMark s1 die page m1

/-! ## Block power (R14) -/

/-- PAGE_CTRL.POWER_REQ of a page. -/
def powerReq (s : State) (die page : Nat) : Nat := fld (reg s die page 0x008) 4 4

/-- PAGE_STATUS.POWER_STATE of a page. -/
def powerState (s : State) (die page : Nat) : Nat := fld (reg s die page 0x00C) 4 4

/-- Whether a block power transition is in progress (R14). -/
def inTransition (s : State) (die page : Nat) : Bool :=
  (mapFind s.trans (pageKey die page)).isSome || decide (powerState s die page ≠ powerReq s die page)

/-- Stores POWER_REQ: a reserved code is refused with 0x1002, and a write during a transition waits for its end (R14). -/
def writePowerReq (s : State) (die page q : Nat) : State :=
  if q > 3 then recordErrorFree s die page 0x1002
  else
    let old := powerReq s die page
    if q = old then s
    else
      let k := pageKey die page
      let s1 :=
        if inTransition s die page && (mapFind s.trans k).isNone then { s with trans := mapSet s.trans k old } else s
      setRegFld s1 die page 0x008 4 4 q

/-- Ends the running power transition of a page, if there is one (R14). -/
def endTransition (s : State) (die page : Nat) : State :=
  if inTransition s die page then
    let k := pageKey die page
    let target := mapGet s.trans k (powerReq s die page)
    setRegFld { s with trans := mapErase s.trans k } die page 0x00C 4 4 target
  else s

/-! ## Trace capture (R508, R512) -/

/-- A die's trace capture unit. -/
def trcOf (s : State) (die : Nat) : TrcSt := mapGet s.trc die TrcSt.reset

/-- TRC_STATUS.STATE of a die (R512): 0 IDLE, 1 PRE, 2 ARMED, 3 POST, 4 HOLD, 5 REARM. -/
def trcState (s : State) (die : Nat) : Nat := fld (reg s die 4 0x054) 0 3

/-- TRC_PRE of a die. -/
def trcPre (s : State) (die : Nat) : Nat := fld (reg s die 4 0x048) 0 12

/-- Whether a die's trace unit records an event of a source now (R508, R512): it is in PRE, ARMED or POST, the source and its argument are the
selected ones, and neither a record nor the write of ARM fell in this mesh cycle. -/
def traces (s : State) (die source arg : Nat) : Bool :=
  let x := trcOf s die
  decide (die ≠ 9) && decide (fld (reg s die 4 0x040) 4 3 = source)
    && (decide (trcState s die = 1) || decide (trcState s die = 2)
        || (decide (trcState s die = 3) && decide (x.post < 4096 - trcPre s die)))
    && (decide (source ≠ 2 ∧ source ≠ 3) || decide (fld (reg s die 4 0x044) 0 5 = arg))
    && decide (x.last ≠ some (meshCyc s s.now)) && decide (x.armCyc ≠ some (meshCyc s s.now))

/-- A trace record: word 0 holds the mesh cycle in the frame and the frame number; what words 1 to 3 hold no rule lays out, so they are free
values (log entry 9). -/
def traceWord (s : State) (die : Nat) : BitVec 128 :=
  let fr := mapGet s.frs die Frs.reset
  let cyc := if tbit (reg s die 1 0x044) 0 then (s.now - fr.began) / 5 else 0
  BitVec.ofNat 128 (cyc % 2 ^ 24 + fld (reg s die 1 0x048) 0 8 * 2 ^ 24 + (Config.freeWord 508 1 s.fresh).toNat * 2 ^ 32
    + (Config.freeWord 508 2 s.fresh).toNat * 2 ^ 64 + (Config.freeWord 508 3 s.fresh).toNat * 2 ^ 96)

/-- The trace unit with a record more: before the trigger only the newest PRE records are kept (R508). -/
def TrcSt.add (x : TrcSt) (st pre cyc : Nat) (r : BitVec 128) : TrcSt :=
  let l := x.buf ++ [r]
  if st = 3 then { x with buf := l, last := some cyc, post := x.post + 1 }
  else { x with buf := l.drop (l.length - pre), last := some cyc }

/-- An event of a source on a die, as its trace unit sees it: nothing else changes. -/
def traceRec (s : State) (die source arg : Nat) : State :=
  let b := traces s die source arg
  { s with
    trc := if b then mapPut TrcSt.reset s.trc die ((trcOf s die).add (trcState s die) (trcPre s die) (meshCyc s s.now) (traceWord s die)) else s.trc,
    fresh := if b then s.fresh + 1 else s.fresh }

/-- Whether PAGE_LOCK holds a page's configuration (R15). -/
def pageLocked (s : State) (die page : Nat) : Bool := tbit (reg s die page 0x01C) 0

/-- The error of a write that PAGE_LOCK discards (R15). -/
def lockedWrite (s : State) (die page off : Nat) : State := recordError s die page 0x1003 off

/-- A write of a block-specific register of a page: discarded while the page cannot be reached (R536), and, for an RW register, while
PAGE_LOCK holds it (R15). Register writes are a source of trace capture (R512). -/
def pageWrite (s : State) (die page off : Nat) (rw : Bool) (f : State → State) : State :=
  if !reachable s die page then s
  else
    let s1 := traceRec s die 5 0
    if rw && pageLocked s1 die page then lockedWrite s1 die page off else f s1

/-- Whether a die holds the Service permission (R19, R487); not in the mesh cycle in which the grant arrived. -/
def hasService (s : State) (die : Nat) : Bool :=
  mapGet s.service die false && decide (mapFind s.sec.arrived die ≠ some (meshCyc s s.now))

/-! ## Arming moments and sampled registers -/

/-- Notes the moment at which a swap or change was armed. -/
def noteArm (s : State) (k : Nat) : State := { s with armT := mapSet s.armT k s.now }

/-- Whether what was armed under a key was armed before the mesh cycle that begins at moment `t` (R34, R152). -/
def armedBefore (s : State) (k : Nat) (t : Time) : Bool := decide (mapGet s.armT k 0 < t)

/-- Writes a register that another agent samples, keeping the value it had before the write's mesh cycle (R157, R175). -/
def putSampled (s : State) (k : Nat) (v : Word) : State :=
  let old :=
    match mapFind s.shadow k with
    | some (t, w) => if meshCyc s t = meshCyc s s.now then w else getReg s k
    | none => getReg s k
  putReg { s with shadow := mapSet s.shadow k (s.now, old) } k v

/-- A sampled register as a sampler of this mesh cycle sees it: a write in the same mesh cycle is not seen (R157, R175). -/
def sampledReg (s : State) (k : Nat) : Word :=
  match mapFind s.shadow k with
  | some (t, old) => if meshCyc s t = meshCyc s s.now then old else getReg s k
  | none => getReg s k

/-! ## Cores, routers and frame sequencers -/

/-- The entries in which a map differs from an older one, with the values they now read as. -/
def mapDiff {α : Type} [DecidableEq α] (d : α) (old new : Map α) : List (Nat × α) :=
  new.filter (fun p => decide (mapGet old p.1 d ≠ p.2))
    ++ ((old.filter (fun p => (mapFind new p.1).isNone && decide (p.2 ≠ d))).map (fun p => (p.1, d)))

/-- What an older map held at the keys where a newer one differs, both in the order of their keys; `n` bounds the entries of both. -/
def mapWas {α : Type} [DecidableEq α] (d : α) (n : Nat) (old new : Map α) : Map α :=
  match n with
  | 0 => []
  | k + 1 =>
    match old, new with
    | [], [] => []
    | o, [] => o
    | [], (b, _) :: q => (b, d) :: mapWas d k [] q
    | (a, v) :: o, (b, w) :: q =>
      if a < b then (a, v) :: mapWas d k o ((b, w) :: q)
      else if b < a then (b, d) :: mapWas d k ((a, v) :: o) q
      else if v = w then mapWas d k o q
      else (a, v) :: mapWas d k o q

/-- The entries of a map, with those of another at keys that it does not list. -/
def mapJoin {α : Type} (m add : Map α) : Map α := foldState (fun u p => if (mapFind u p.1).isSome then u else mapSet u p.1 p.2) m add

/-- The core with what a write of its present cycle changed noted (R47): the first write of a cycle drops the notes of an earlier one. -/
def noteWrite (t : Time) (old x : CoreSt) : CoreSt :=
  if old.spm = x.spm ∧ old.poison = x.poison then x
  else
    let cyc := clkCycle x.clk t
    let was : Before := if x.before.cyc = cyc then x.before else { cyc := cyc, bytes := [], marks := [] }
    { x with
      before :=
        { cyc := cyc,
          bytes := mapJoin was.bytes (mapWas 0#8 (old.spm.length + x.spm.length) old.spm x.spm),
          marks := mapJoin was.marks (mapWas false (old.poison.length + x.poison.length) old.poison x.poison) } }

/-- The core as reads of a cycle see its scratchpad: a line written in that cycle reads as before the write (R47). -/
def seenCore (x : CoreSt) (cyc : Nat) : CoreSt :=
  if x.before.cyc = cyc then
    { x with
      spm := foldState (fun m p => mapPut 0#8 m p.1 p.2) x.spm x.before.bytes,
      poison := foldState (fun m p => mapPut false m p.1 p.2) x.poison x.before.marks }
  else x

/-- The state with a physical core replaced. While a spare mirrors the core, what changed in the scratchpad goes to the spare four core
cycles later (R452). -/
def putCore (s : State) (c : Nat) (x : CoreSt) : State :=
  let s1 := { s with cores := mapPut CoreSt.reset s.cores c (noteWrite s.now (core s c) x) }
  match x.mirrorTo with
  | none => s1
  | some t =>
    let old := core s c
    if t = c ∨ (old.spm = x.spm ∧ old.poison = x.poison) then s1
    else
      let y := core s1 t
      let w : MirrorWrite :=
        { due := clkCycle y.clk s.now + 4, bytes := mapDiff 0#8 old.spm x.spm, marks := mapDiff false old.poison x.poison }
      { s1 with cores := mapPut CoreSt.reset s1.cores t { y with mirrored := y.mirrored ++ [w] } }

/-- The state with a physical core changed. -/
def updCore (s : State) (c : Nat) (f : CoreSt → CoreSt) : State := putCore s c (f (core s c))

/-- A die's router. -/
def router (s : State) (die : Nat) : Router := mapGet s.routers die Router.reset

/-- The state with a die's router replaced. -/
def putRouter (s : State) (die : Nat) (x : Router) : State := { s with routers := mapPut Router.reset s.routers die x }

/-- The state with a die's router changed. -/
def updRouter (s : State) (die : Nat) (f : Router → Router) : State := putRouter s die (f (router s die))

/-- A die's frame sequencer. -/
def frsOf (s : State) (die : Nat) : Frs := mapGet s.frs die Frs.reset

/-- The state with a die's frame sequencer replaced. -/
def putFrs (s : State) (die : Nat) (x : Frs) : State := { s with frs := mapPut Frs.reset s.frs die x }

/-- The state with a die's frame sequencer changed. -/
def updFrs (s : State) (die : Nat) (f : Frs → Frs) : State := putFrs s die (f (frsOf s die))

/-- Whether a die's frame sequencer is RUNNING (R188). -/
def frsRunning (s : State) (die : Nat) : Bool := tbit (reg s die 1 0x044) 0

/-- A core's present cycle. -/
def coreCycle (s : State) (c : Nat) : Nat := clkCycle (core s c).clk s.now

/-- The core's clock counted anew from moment `t`, its phase kept: the edges of a locked synthesiser go on while the clock tree is stopped (R150,
R395). -/
def clkRebase (k : CoreClk) (t : Time) : CoreClk := { k with segC := clkCycle k t, segT := t, phase := clkUnits k t % 90000 }

/-- CORE.FRAME_CYCLE.CYCLE: cycles since the boundary, 0 while the die's frame sequencer is stopped (R60, R150). -/
def frameCycle (s : State) (c : Nat) : Nat :=
  if frsRunning s (coreDie c) then coreCycle s c - (core s c).clk.frameC else 0

/-- The physical core that carries a logical core of a die (R41, R44), or none. -/
def physOfFrom (s : State) (die logical n p : Nat) : Option Nat :=
  match n with
  | 0 => none
  | k + 1 =>
    if fld (reg s die (0x10 + 8 * p) 0x040) 0 5 = logical then some (dieOrd die * 18 + p)
    else physOfFrom s die logical k (p + 1)

/-- The physical core that carries a logical core of a die (R41, R44), or none. -/
def physOf (s : State) (die logical : Nat) : Option Nat := physOfFrom s die logical 18 0

/-- The logical core that a physical core carries, 0x1F for a spare (R86). -/
def logicalOf (s : State) (c : Nat) : Nat := fld (reg s (coreDie c) (corePage c 0) 0x040) 0 5

/-- Records an error in the CORE page of a physical core (R82). -/
def coreError (s : State) (c code info : Nat) : State := recordError s (coreDie c) (corePage c 0) code info

/-- Halts a core or unit whose queue or bank entry is uncorrectable: PAGE_STATUS.FAULT set in its page, and 0x3072 recorded in the CORE page
of a core and in the DMR page of the die of any other unit (R13, R442, R473). -/
def haltUnit (s : State) (die page entry : Nat) : State :=
  recordError (setReg s die page 0x00C (setBit (reg s die page 0x00C) 2 true)) die (if page ≥ 0x10 then page else 0) 0x3072 (entry % 4096)

/-- Whether a unit has halted: PAGE_STATUS.FAULT (R13, R442). -/
def isHalted (s : State) (die page : Nat) : Bool := tbit (reg s die page 0x00C) 2
/-- The module's node number; 0 while NODE_ID.VALID is 0 (R38). -/
def ownNode (s : State) : Nat := fld (reg s 90 8 0x040) 0 16

/-- Whether stages of a plan lie on a logical core of a die of this module. -/
def stageOn (s : State) (p : Option PlanInfo) (die logical : Nat) : Bool :=
  match p with
  | none => false
  | some pl => pl.stages.any (fun g => decide (g.node = ownNode s) && decide (g.die = die) && decide (g.logical = logical))

/-- Whether frames run on a core's die: the plan is running there. -/
def planOn (s : State) (c : Nat) : Bool := frsRunning s (coreDie c)

/-- Whether a physical core carries a logical core with a stage of the running plan (R397). -/
def ownsStage (s : State) (c : Nat) : Bool :=
  planOn s c && decide (logicalOf s c < 16) && stageOn s s.plan (coreDie c) (logicalOf s c)

/-- Whether work that comes for the `n`th time falls to the share that its domain's pace level allows (R405): domains 0 compute, 1 memory, 2 links.
Every 2^k-th one does (DESIGN CHOICE, log entry 120). -/
def paceAllows (s : State) (dom n : Nat) : Bool := decide (n % 2 ^ nth s.power.pace dom 0 = 0)

end Sys2Proof.Machine
end

