-- ==== Sys2Proof/Machine/Spm.lean ====
section
/-!
DEFINITION. Sys2Proof/Machine/Spm.lean: the scratchpad (R47, R84, R391): bytes, poison marks per 64-bit word, and writes that cover
words wholly or in part. An unlisted byte reads zero: the scratchpads are zeroed when a CORE rail comes on.
-/
namespace Sys2Proof.Machine

/-- Bytes of a scratchpad (R47). -/
def spmSize : Nat := 24 * 2 ^ 20

/-- A byte of a core's scratchpad. -/
def spmGet (x : CoreSt) (a : Nat) : Byte := mapGet x.spm a 0#8

/-- Whether the 64-bit word that holds a byte is poisoned. -/
def spmPoisoned (x : CoreSt) (a : Nat) : Bool := mapGet x.poison (a / 8) false

/-- `n` bytes from an address. -/
def spmRead (x : CoreSt) (a n : Nat) : List Byte := (upFrom a n).map (spmGet x)

/-- The little-endian number of `n` bytes from an address (R55). -/
def spmNum (x : CoreSt) (a n : Nat) : Nat := ofLE (spmRead x a n)

/-- Whether any word holding one of `n` bytes from an address is poisoned. -/
def spmPoisonedRange (x : CoreSt) (a n : Nat) : Bool :=
  if n = 0 then false else (upFrom (a / 8) ((a + n - 1) / 8 - a / 8 + 1)).any (fun w => mapGet x.poison w false)

/-- The core with a word's poison mark set as given. -/
def markWord (x : CoreSt) (w : Nat) (p : Bool) : CoreSt := { x with poison := mapPut false x.poison w p }

/-- The core with the given bytes stored; `none` leaves a byte as it is. Poison is not changed. -/
def putBytes (x : CoreSt) (a : Nat) (l : List (Option Byte)) : CoreSt :=
  match l with
  | [] => x
  | none :: r => putBytes x (a + 1) r
  | some b :: r => putBytes { x with spm := mapPut 0#8 x.spm a b } (a + 1) r

/-- The poison marks after a write of a list of bytes from a word's first byte (R47): a word wholly covered is poisoned exactly when
the data is; a word covered in part stays poisoned, and becomes so with poisoned data. -/
def poisonAfter (x : CoreSt) (w : Nat) (p : Bool) (fuel : Nat) (l : List (Option Byte)) : CoreSt :=
  match fuel with
  | 0 => x
  | k + 1 =>
    let h := l.take 8
    let n := (h.filter Option.isSome).length
    let x1 :=
      if n = 0 then x
      else if n = 8 then markWord x w p
      else markWord x w (mapGet x.poison w false || p)
    poisonAfter x1 (w + 1) p k (l.drop 8)

/-- The core with the given bytes written from an address, poisoned or not (R47); `none` leaves a byte as it is. -/
def spmWriteMask (x : CoreSt) (a : Nat) (l : List (Option Byte)) (p : Bool) : CoreSt :=
  let pre := a % 8
  poisonAfter (putBytes x a l) (a / 8) p (ceilDiv (l.length + pre) 8) (List.replicate pre none ++ l)

/-- The core with bytes written from an address, poisoned or not. -/
def spmWrite (x : CoreSt) (a : Nat) (l : List Byte) (p : Bool) : CoreSt := spmWriteMask x a (l.map some) p

/-- The core with the bytes from `lo` up to `hi` zero and clean (R51, R391). -/
def spmZero (x : CoreSt) (lo hi : Nat) : CoreSt :=
  { x with spm := mapEraseRange x.spm lo hi, poison := mapEraseRange x.poison (ceilDiv lo 8) (hi / 8) }

/-- The core's word `w` is marked poisoned as the read that finds it uncorrectable sees it: the read's own cycle sees the mark (R442). -/
def poisonSeen (s : State) (c w : Nat) : State :=
  let old := (core s c).before
  updCore (updCore s c (fun x => markWord x w true)) c (fun x => { x with before := { old with marks := mapErase old.marks w } })

/-- The error of a scratchpad word found uncorrectable: it is delivered poisoned, with 0x3021 in the SPM page (R82, R87, R442). -/
def badWord (s : State) (c w : Nat) : State :=
  let s1 := poisonSeen s c w
  let s2 := setReg s1 (coreDie c) (corePage c 4) 0x044 (BitVec.ofNat 32 (w * 8 % 2 ^ 25 + 2 ^ 31))
  count (recordError s2 (coreDie c) (corePage c 4) 0x3021 (w / 8)) (coreDie c) (corePage c 4) 0x03 1

/-- What an ECC check found in a core's scratchpad (R442): corrected words counted, uncorrectable ones poisoned. -/
def applyEcc (s : State) (c : Nat) (e : Ecc) : State :=
  foldState (fun u w => badWord u c (w % (spmSize / 8))) (count s (coreDie c) (corePage c 4) 0x02 e.corrected) e.badWords

/-- The poison marks of `n` bytes from an address, by 64-bit words of the transfer (R47, R84). -/
def spmMarks (x : CoreSt) (a n : Nat) : List Nat :=
  (upFrom 0 (ceilDiv n 8)).filter (fun k => spmPoisonedRange x (a + 8 * k) (min 8 (n - 8 * k)))

/-- The core with a transfer's bytes written from an address, word by word as each is marked (R47, R84). -/
def spmWriteMarked (fuel : Nat) (x : CoreSt) (a k : Nat) (l : List Byte) (marks : List Nat) : CoreSt :=
  match fuel with
  | 0 => x
  | f + 1 =>
    if l.isEmpty then x
    else spmWriteMarked f (spmWrite x (a + 8 * k) (l.take 8) (marks.contains k)) a (k + 1) (l.drop 8) marks

/-- The core with a transfer's bytes written from an address, its marked words poisoned (R47, R84). -/
def spmStore (x : CoreSt) (a : Nat) (l : List Byte) (marks : List Nat) : CoreSt :=
  if marks.isEmpty then spmWrite x a l false else spmWriteMarked (l.length + 1) x a 0 l marks

/-- The cycles by which requester `k` of a core's banks (1 MXE, 2 VXE, 3 MVE, 4 MOU) is delayed (R48): at each meeting it waits a cycle for each
requester ahead of it, which are the crossbar and the engines before it that hold a command. When an engine presents its accesses to the
banks no rule states, so which meetings occur is an operand (DESIGN CHOICE, log entry 114). -/
def bankDelay (x : CoreSt) (k : Nat) (met : List Nat) : Nat :=
  let busy (e : Nat) (q : Queue) : Nat := b2n (decide (e < k) && !q.exec.isEmpty)
  let ahead := 1 + busy 1 x.q0 + busy 2 x.q1 + busy 3 x.q2
  foldState (fun n m => n + min m ahead) 0 met

/-- Counts the delay cycles of a requester at a core's banks (R48, R89). -/
def countDelay (s : State) (c n : Nat) : State := if n = 0 then s else count s (coreDie c) (corePage c 4) 0x01 n

end Sys2Proof.Machine
end

