-- ==== Sys2Proof/Machine/Operands.lean ====
section
/-!
DEFINITION. Sys2Proof/Machine/Operands.lean: the fields of a descriptor (R53), task contexts (R49), predicate masks (R66 to R68) and
the reading and writing of rows of elements with their scales (R55, R56, R67, R96, R101, R102).
-/
namespace Sys2Proof.Machine

/-- The field of `n` bits from bit `lo` of word W`k` of a descriptor. -/
def df (d : BitVec 512) (k lo n : Nat) : Nat := fld d (32 * k + lo) n

/-- Word W`k` of a descriptor. -/
def dw (d : BitVec 512) (k : Nat) : Word := BitVec.ofNat 32 (df d k 0 32)

/-- OPCODE of a descriptor (R53). -/
def dOpcode (d : BitVec 512) : Nat := df d 0 0 8
/-- TASK_CTX of a descriptor. -/
def dCtx (d : BitVec 512) : Nat := df d 0 8 4
/-- JOB_TAG of a descriptor. -/
def dJob (d : BitVec 512) : Nat := df d 0 12 8
/-- LOCKED of a descriptor. -/
def dLocked (d : BitVec 512) : Bool := tbit d 20
/-- DEP bit `e` of a descriptor. -/
def dDep (d : BitVec 512) (e : Nat) : Bool := tbit d (21 + e)
/-- ROW_PRED_EN of a descriptor. -/
def dRowPred (d : BitVec 512) : Bool := tbit d 25
/-- COL_PRED_EN of a descriptor. -/
def dColPred (d : BitVec 512) : Bool := tbit d 26
/-- NOTIFY_IDX of a descriptor. -/
def dNotifyIdx (d : BitVec 512) : Nat := df d 0 27 4
/-- NOTIFY_EN of a descriptor. -/
def dNotifyEn (d : BitVec 512) : Bool := tbit d 31
/-- ISSUE_AT of a descriptor. -/
def dIssueAt (d : BitVec 512) : Nat := df d 1 0 20

/-- The bits that a list of fields (word, lowest bit, length) takes. -/
def fieldsMask (l : List (Nat × Nat × Nat)) : BitVec 512 :=
  match l with
  | [] => 0#512
  | f :: r => fmask 512 (32 * f.1 + f.2.1) f.2.2 ||| fieldsMask r

/-- The fields of W0 and W1 that every opcode uses (R53). -/
def commonFields : List (Nat × Nat × Nat) := [(0, 0, 25), (0, 27, 5), (1, 0, 20)]

/-- The predicate enables and the row mask (R66). -/
def rowMaskFields : List (Nat × Nat × Nat) := [(0, 25, 2), (8, 0, 32), (9, 0, 32), (10, 0, 32), (11, 0, 32)]

/-- Whether every bit outside the given fields is zero (R53). -/
def restZero (d : BitVec 512) (l : List (Nat × Nat × Nat)) : Bool :=
  decide (d &&& ~~~(fieldsMask (commonFields ++ l)) = 0#512)

/-- The first nonzero code of a list of checks, each a code and whether it fails. -/
def firstFailing (l : List (Bool × Nat)) : Nat :=
  match l with
  | [] => 0
  | x :: r => if x.1 then x.2 else firstFailing r

/-- Whether row `r` of an MXE or VXE command is active (R66). -/
def rowActive (d : BitVec 512) (r : Nat) : Bool := !dRowPred d || tbit d (256 + r)

/-- Whether column `c` is active under a granularity of `g` columns a mask bit (R66). -/
def colActive (d : BitVec 512) (g c : Nat) : Bool := !dColPred d || tbit d (384 + c / g)

/-- The active members of 0 to n − 1. -/
def activeList (p : Nat → Bool) (n : Nat) : List Nat := (upFrom 0 n).filter p

/-- The first and last of a list of rising numbers. -/
def ends (l : List Nat) : Option (Nat × Nat) :=
  match l with
  | [] => none
  | a :: r => some (a, r.getLastD a)

/-- A scratchpad range a command names: the first and last byte, and whether it writes (R63). -/
structure Rng where
  lo : Nat
  hi : Nat
  write : Bool
deriving DecidableEq, Repr

/-- The bytes of the rows from the first to the last active one; none when no row is active (R66). -/
def rowsRng (base pitch bytes : Nat) (rows : List Nat) (w : Bool) : List Rng :=
  match ends rows with
  | none => []
  | some (a, z) => if bytes = 0 then [] else [{ lo := base + a * pitch, hi := base + z * pitch + bytes - 1, write := w }]

/-- The single range that holds all of a list of ranges. -/
def hull (l : List Rng) : List Rng :=
  match l with
  | [] => []
  | r :: q => [foldState (fun u v => { u with lo := min u.lo v.lo, hi := max u.hi v.hi }) r q]

/-! ## Contexts (R49, R50, R87) -/

/-- A register of context `n` of a core: 0 BASE, 4 BOUND, 8 CTRL, 0xC STATUS. -/
def ctxReg (s : State) (c n off : Nat) : Word := reg s (coreDie c) (corePage c 4) (0x100 + 0x10 * n + off)

/-- A context's base in bytes. -/
def ctxBase (s : State) (c n : Nat) : Nat := fld (ctxReg s c n 0) 0 17 * 256

/-- A context's exclusive bound in bytes. -/
def ctxBound (s : State) (c n : Nat) : Nat := fld (ctxReg s c n 4) 0 17 * 256

/-- Whether a context is VALID, from the cycle after the write of ASSIGN on (R50, R51). -/
def ctxValid (s : State) (c n : Nat) : Bool :=
  tbit (ctxReg s c n 0xC) 0
    && !(core s c).fills.any (fun f => decide (f.ctx = n) && decide (clkCycle (core s c).clk s.now ≤ f.start))

/-- A context's owner. -/
def ctxOwner (s : State) (c n : Nat) : Nat := fld (ctxReg s c n 8) 0 8

/-- Whether a fill runs at a cycle (R51). -/
def fillActive (cyc : Nat) (f : Fill) : Bool := decide (f.start < cyc) && decide (cyc ≤ f.last)

/-- Whether a context is FILLING at a cycle (R51). -/
def ctxFilling (s : State) (c n cyc : Nat) : Bool := (core s c).fills.any (fun f => decide (f.ctx = n) && fillActive cyc f)

/-- Whether a core's memory-operation unit fills at a cycle (R51). -/
def fillRuns (s : State) (c cyc : Nat) : Bool := (core s c).fills.any (fillActive cyc)

/-- Whether a range of context-relative bytes reaches the bound of the command's context (R49). -/
def outOfBound (s : State) (c n : Nat) (r : Rng) : Bool := decide (ctxBase s c n + r.hi ≥ ctxBound s c n)

/-! ## Rows of elements -/

/-- A tile operand: its first byte in the scratchpad, its row pitch, its format and scale mode, and its scale array. -/
structure Tile where
  base : Nat
  pitch : Nat
  fmt : Nat
  sc : Nat
  scBase : Nat
  cols : Nat
deriving DecidableEq, Repr

/-- A trit digit of a packed byte; an invalid byte reads as five zeros (R95). -/
def tritDigit (b i : Nat) : Nat := if b ≥ 243 then 0 else b / 3 ^ i % 3

/-- The code of element `i` of a row that begins at byte `a` (R55, R95, R96). -/
def elemCode (x : CoreSt) (f a i : Nat) : Nat :=
  match f with
  | 0 => spmNum x (a + 4 * i) 4
  | 1 => spmNum x (a + 2 * i) 2
  | 2 => spmNum x (a + 2 * i) 2
  | 5 => spmNum x (a + 3 * (i / 4)) 3 / 2 ^ (6 * (i % 4)) % 64
  | 6 => spmNum x (a + 3 * (i / 4)) 3 / 2 ^ (6 * (i % 4)) % 64
  | 7 => (spmGet x (a + i / 2)).toNat / 16 ^ (i % 2) % 16
  | 9 => (spmGet x (a + i / 2)).toNat / 16 ^ (i % 2) % 16
  | 11 => (spmGet x (a + i / 2)).toNat / 16 ^ (i % 2) % 16
  | 10 => tritDigit (spmGet x (a + i / 5)).toNat (i % 5)
  | _ => (spmGet x (a + i)).toNat

/-- The first byte of element `i` within its row, and the bytes it spans. -/
def elemSpan (f i : Nat) : Nat × Nat :=
  let lo := i * fmtBits5 f / 40
  let hi := ((i + 1) * fmtBits5 f - 1) / 40
  match f with
  | 10 => (i / 5, 1)
  | _ => (lo, hi - lo + 1)

/-- Whether the bytes of element `i` of a row at `a` are poisoned. -/
def elemPoisoned (x : CoreSt) (f a i : Nat) : Bool :=
  let p := elemSpan f i
  spmPoisonedRange x (a + p.1) p.2

/-- The byte address of the scale of element `i` of row `r`. -/
def scaleAddr (t : Tile) (r i : Nat) : Nat :=
  t.scBase + r * scalePitch t.sc t.cols + (if t.sc = 3 then 0 else i / blockLen t.sc t.cols)

/-- The decoded scale of element `i` of row `r` (R97); 1 where there is none. -/
def tileScale (x : CoreSt) (t : Tile) (r i : Nat) : Val :=
  if t.sc = 0 then .fin false 1 0 else scaleDecode t.sc (spmNum x (scaleAddr t r i) (scaleBytes t.sc))

/-- The decoded element `i` of row `r`, without its scale (R98). -/
def tileElem (x : CoreSt) (t : Tile) (r i : Nat) : Val :=
  underScale t.sc (tileScale x t r i) (elemDecode t.fmt t.sc (elemCode x t.fmt (t.base + r * t.pitch) i))

/-- The value with which element `i` of row `r` enters a VXE operation (R541). -/
def tileVxe (x : CoreSt) (t : Tile) (r i : Nat) : Word :=
  enterVxe t.sc (tileScale x t r i) (elemDecode t.fmt t.sc (elemCode x t.fmt (t.base + r * t.pitch) i))

/-- Whether any of the given elements of row `r`, or a scale of theirs, is poisoned. -/
def tileRowPoisoned (x : CoreSt) (t : Tile) (r : Nat) (cols : List Nat) : Bool :=
  cols.any (fun i => elemPoisoned x t.fmt (t.base + r * t.pitch) i
    || (decide (t.sc ≠ 0) && spmPoisonedRange x (scaleAddr t r i) (scaleBytes t.sc)))

/-- The first columns of the invalid TRN bytes that the given elements of row `r` read (R95), each byte once, in ascending order of columns. -/
def badTritCols (x : CoreSt) (t : Tile) (r : Nat) (cols : List Nat) : List Nat :=
  if t.fmt = 10 then
    ((cols.map (fun i => i / 5)).eraseDups.filter (fun b => decide ((spmGet x (t.base + r * t.pitch + b)).toNat ≥ 243))).map (fun b => b * 5)
  else []

/-- How many invalid TRN bytes the given elements of row `r` read (R95). -/
def badTritBytes (x : CoreSt) (t : Tile) (r : Nat) (cols : List Nat) : Nat := (badTritCols x t r cols).length

/-- The bytes an operand's active rows take: its elements, with their scales (R56, R63, R66). -/
def tileRng (t : Tile) (rows : List Nat) (w : Bool) : List Rng :=
  rowsRng t.base t.pitch (rowBytes t.fmt t.cols) rows w

/-- The bytes of an operand's scale array for its active rows. -/
def tileScaleRng (t : Tile) (rows : List Nat) (w : Bool) : List Rng :=
  if t.sc = 0 then []
  else rowsRng t.scBase (scalePitch t.sc t.cols) (blocksPerRow t.sc t.cols * scaleBytes t.sc) rows w

/-! ## Writing rows -/

/-- Elements and bytes of one packing unit (R95, R96). -/
def packUnit (f : Nat) : Nat × Nat :=
  match f with
  | 0 => (1, 4)
  | 1 => (1, 2)
  | 2 => (1, 2)
  | 5 => (4, 3)
  | 6 => (4, 3)
  | 7 => (2, 1)
  | 9 => (2, 1)
  | 11 => (2, 1)
  | 10 => (5, 1)
  | _ => (1, 1)

/-- The number that the codes of a packing unit spell, least significant first. -/
def packNum (f : Nat) (l : List Nat) : Nat :=
  match l with
  | [] => 0
  | c :: r => c + (if f = 10 then 3 else 2 ^ (8 * (packUnit f).2 / (packUnit f).1)) * packNum f r

/-- The old codes of a packing unit kept where no new one is written. -/
def mergeCodes (old : List Nat) (l : List (Option Nat)) : List Nat :=
  match old, l with
  | [], _ => []
  | o :: r, [] => o :: r
  | o :: r, n :: q => n.getD o :: mergeCodes r q

/-- Whether byte `b` of a packing unit holds any bit of a newly written element. -/
def byteTouched (f b : Nat) (l : List (Option Nat)) : Bool :=
  let u := packUnit f
  let bits := 8 * u.2 / u.1
  if f = 10 then l.any Option.isSome
  else (upFrom 0 l.length).any (fun i => (nth l i none).isSome && decide (i * bits < 8 * (b + 1)) && decide (8 * b < (i + 1) * bits))

/-- The bytes of a row's elements after a write, `none` where a byte is left as it is (R67, R96). `a` is the row's first byte, `i` the
first element of the unit. -/
def packRow (x : CoreSt) (f a : Nat) (fuel i : Nat) (l : List (Option Nat)) : List (Option Byte) :=
  match fuel with
  | 0 => []
  | k + 1 =>
    match l with
    | [] => []
    | _ =>
      let u := packUnit f
      let h := l.take u.1
      -- places past the row's last element are written as zero with it
      let lastWritten := (h.getLastD none).isSome
      let h' := h ++ List.replicate (u.1 - h.length) (if lastWritten then some 0 else none)
      let old := (upFrom i u.1).map (elemCode x f a)
      let v := packNum f (mergeCodes old h')
      let keep := ceilDiv (h.length * fmtBits5 f) 40
      let bytes := ((upFrom 0 keep).map (fun b =>
        if byteTouched f b h then some (BitVec.ofNat 8 (v / 256 ^ b)) else none))
      bytes ++ packRow x f a k (i + u.1) (l.drop u.1)

/-- The core with one row of element codes written, and the padding after a written last element zeroed (R67, R96). -/
def writeCodes (x : CoreSt) (f a : Nat) (codes : List (Option Nat)) (p : Bool) : CoreSt :=
  let bytes := packRow x f a (codes.length + 1) 0 codes
  let pad := roundUp bytes.length 64 - bytes.length
  let tail : List (Option Byte) :=
    if (codes.getLastD none).isSome then List.replicate pad (some 0#8) else []
  spmWriteMask x a (bytes ++ tail) p

/-- A list cut into pieces of `n`. -/
def chunksOf {α : Type} (fuel n : Nat) (l : List α) : List (List α) :=
  match fuel with
  | 0 => []
  | k + 1 => if l.isEmpty then [] else l.take n :: chunksOf k n (l.drop n)

/-- The codes of a list put back in the places that held a value; the other places take `z` (R67). -/
def spreadCodes (l : List (Option Val)) (codes : List Nat) (z : Nat) : List (Option Nat) :=
  match l with
  | [] => []
  | none :: r => some z :: spreadCodes r codes z
  | some _ :: r => some (codes.headD z) :: spreadCodes r codes.tail z

/-- One scaling block converted, whose first column is `j` (R67, R101): its scale code if it is written, its element codes, its events with
their columns. -/
def blockCodes (f sc : Nat) (r : Rnd) (j : Nat) (l : List (Option Val)) : Option Nat × List (Option Nat) × List (Nat × DataEvent) :=
  let act := l.filterMap id
  if act.isEmpty then (none, l.map (fun _ => none), [])
  else
    let b := convBlock f sc r act
    let places := (upFrom 0 l.length).filter (fun i => (nth l i none).isSome)
    (some b.1, spreadCodes l b.2.1 0, b.2.2.map (fun e => (j + nth places e.1 0, e.2)))

/-- The blocks of a row converted in order; `j` is the first column of the first. -/
def rowBlocks (f sc : Nat) (r : Rnd) (j : Nat) (l : List (List (Option Val))) : List (Option Nat × List (Option Nat) × List (Nat × DataEvent)) :=
  match l with
  | [] => []
  | b :: q => blockCodes f sc r j b :: rowBlocks f sc r (j + b.length) q

/-- A written row: its element codes, its scale codes, and its data events with their columns. -/
structure RowOut where
  codes : List (Option Nat)
  scales : List (Option Nat)
  events : List (Nat × DataEvent)
deriving DecidableEq, Repr

/-- A row of values converted to a format (R99 to R102); `none` marks an inactive element. -/
def convRow (f sc : Nat) (r : Rnd) (sat : Bool) (l : List (Option Val)) : RowOut :=
  if sc = 0 then
    let cs := l.map (fun o => o.map (convElem f r sat))
    { codes := cs.map (fun o => o.map (fun p => p.1)), scales := [],
      events := codeEvents 0 (cs.map (fun o => o.getD (0, []))) }
  else
    let bs := rowBlocks f sc r 0 (chunksOf (l.length + 1) (blockLen sc l.length) l)
    { codes := (bs.map (fun b => b.2.1)).flatten, scales := bs.map (fun b => b.1), events := (bs.map (fun b => b.2.2)).flatten }

/-- A placed event put into a list in ascending order of places, before the events of its own place. -/
def placeEvent (e : Nat × DataEvent) (l : List (Nat × DataEvent)) : List (Nat × DataEvent) :=
  match l with
  | [] => [e]
  | x :: r => if e.1 ≤ x.1 then e :: x :: r else x :: placeEvent e r

/-- The events of one row in ascending order of columns (R103); events of one column keep their order. -/
def inColumns (l : List (Nat × DataEvent)) : List DataEvent := (l.foldr placeEvent []).map (fun e => e.2)

/-- Events of invalid TRN bytes at the given columns. -/
def tritEvents (cols : List Nat) : List (Nat × DataEvent) := cols.map (fun i => (i, .badTrit))

/-- The bytes of a row of scales; `none` where a block is not written. -/
def scaleRowBytes (sc : Nat) (l : List (Option Nat)) : List (Option Byte) :=
  (l.map (fun o =>
    match o with
    | none => List.replicate (scaleBytes sc) none
    | some v => (toLE (scaleBytes sc) v).map some)).flatten

/-- The core with row `r` of a tile written from its converted codes. -/
def writeRowOut (x : CoreSt) (t : Tile) (r : Nat) (o : RowOut) (p : Bool) : CoreSt :=
  let x1 := writeCodes x t.fmt (t.base + r * t.pitch) o.codes p
  if t.sc = 0 then x1 else spmWriteMask x1 (t.scBase + r * scalePitch t.sc t.cols) (scaleRowBytes t.sc o.scales) p

end Sys2Proof.Machine
end

