-- ==== Sys2Proof/Machine/Flags.lean ====
section
/-!
DEFINITION. Sys2Proof/Machine/Flags.lean: the status a command leaves behind: command info (R82), data events (R103), consumed poison
(R84), the job bitmaps (R83) and the scoreboard status (R86).
-/
namespace Sys2Proof.Machine

/-- The command info of ERR_INFO (R82). -/
def cmdInfo (d : BitVec 512) (e slot : Nat) : Nat := dJob d + dCtx d * 2 ^ 8 + e % 4 * 2 ^ 12 + slot % 256 * 2 ^ 14

/-- The error code of a data event, 0 where it is counted only (R103). -/
def eventCode (v : DataEvent) : Nat :=
  match v with
  | .nanToZero => 0x2030
  | .badTrit => 0x2031
  | .infSaturated => 0x2032
  | .nanBlock => 0x2033
  | .overflow => 0x2034
  | .infBlock => 0x2032
  | .zeroBlock => 0

/-- The counter event of a data event (R103). -/
def eventCount (v : DataEvent) : Nat :=
  match v with
  | .nanToZero => 0x14
  | .badTrit => 0x15
  | .infSaturated => 0x13
  | .nanBlock => 0x10
  | .overflow => 0x13
  | .infBlock => 0x11
  | .zeroBlock => 0x12

/-- Presents a command's data events in the page of its engine: each code once, in order; every event counted (R103). -/
def reportEvents (s : State) (die page info : Nat) (l : List DataEvent) : State :=
  let codes := ((l.map eventCode).filter (fun c => decide (c ≠ 0))).eraseDups
  let s1 := foldState (fun u c => recordError u die page c info) s codes
  foldState (fun u v => count u die page (eventCount v) 1) s1 l

/-- The 256 job bits of eight registers of the CORE page, from offset `off` (R86). -/
def jobBits (s : State) (c off : Nat) : BitVec 256 :=
  BitVec.ofNat 256 (ofLE (((upFrom 0 8).map (fun i => toLE 4 (reg s (coreDie c) (corePage c 0) (off + 4 * i)).toNat)).flatten))

/-- JOB_FAULT and JOB_SKIP together as a head check of a cycle sees them: a change made in that cycle is not seen (R83). -/
def jobStopped (s : State) (c cyc job : Nat) : Bool :=
  let x := core s c
  let f := if cyc ≤ x.jfCyc then x.jfPrev else jobBits s c 0x080
  let k := if cyc ≤ x.jsCyc then x.jsPrev else jobBits s c 0x0A0
  tbit f job || tbit k job

/-- Notes that JOB_FAULT (or, with `skip`, JOB_SKIP) changes in this cycle (R83). -/
def noteJobChange (s : State) (c : Nat) (skip : Bool) : State :=
  let cyc := coreCycle s c
  let x := core s c
  if skip then
    if x.jsCyc = cyc ∧ cyc ≠ 0 then s else putCore s c { x with jsPrev := jobBits s c 0x0A0, jsCyc := cyc }
  else
    if x.jfCyc = cyc ∧ cyc ≠ 0 then s else putCore s c { x with jfPrev := jobBits s c 0x080, jfCyc := cyc, jfSet := 0#256 }

/-- Sets the JOB_FAULT bit of a job (R82, R83). -/
def setJobFault (s : State) (c job : Nat) : State :=
  let s1 := updCore (noteJobChange s c false) c (fun x => { x with jfSet := x.jfSet ||| BitVec.ofNat 256 (2 ^ job) })
  let off := 0x080 + 4 * (job / 32)
  setReg s1 (coreDie c) (corePage c 0) off (setBit (reg s1 (coreDie c) (corePage c 0) off) (job % 32) true)

/-- A fault of a command: recorded in the CORE page, and its job's JOB_FAULT bit set except for 0x1023, 0x1024, 0x3021 and
0x3024 (R82). -/
def cmdError (s : State) (c e slot : Nat) (d : BitVec 512) (code : Nat) : State :=
  let s1 := coreError s c code (cmdInfo d e slot)
  if code = 0x1023 ∨ code = 0x1024 ∨ code = 0x3021 ∨ code = 0x3024 then s1 else setJobFault s1 c (dJob d)

/-- Records consumed poison once for a command that read any (R84). -/
def notePoison (s : State) (c e slot : Nat) (d : BitVec 512) (p : Bool) : State :=
  if p then cmdError s c e slot d 0x3024 else s

/-- The scoreboard entries that a check of a cycle sees: an entry released in that cycle is still seen (R64). -/
def sbVisible (x : CoreSt) (cyc : Nat) : List SbEntry :=
  x.sb.filter (fun b =>
    match b.freed with
    | none => true
    | some f => decide (cyc ≤ f))

/-- Whether two byte ranges meet. -/
def rangesMeet (alo ahi blo bhi : Nat) : Bool := decide (alo ≤ bhi) && decide (blo ≤ ahi)

/-- A range rounded outward to 256-byte boundaries (R63). -/
def sbRound (r : Rng) : Rng := { lo := r.lo / 256 * 256, hi := r.hi / 256 * 256 + 255, write := r.write }

/-- Whether a new range conflicts with the visible entries (R64). -/
def sbConflict (l : List SbEntry) (r : Rng) : Bool :=
  l.any (fun b => (r.write || b.write) && rangesMeet r.lo r.hi b.lo b.hi)

/-- CORE.SB_STATUS (R86). -/
def sbStatus (x : CoreSt) (cyc : Nat) : Word :=
  BitVec.ofNat 32 ((sbVisible x cyc).length + x.sbHigh * 2 ^ 8)

end Sys2Proof.Machine
end

