-- ==== Sys2Proof/Machine/CoreFront.lean ====
section
/-!
DEFINITION. Sys2Proof/Machine/CoreFront.lean: the command front end of a core: entry of descriptors (R57, R58), the issue conditions
(R59, R60), skips and faults at issue (R82, R83), scoreboard allocation (R63, R64), and retirement (R62).
-/
namespace Sys2Proof.Machine

/-- Queue `e` of a core. -/
def getQ (x : CoreSt) (e : Nat) : Queue :=
  match e with
  | 0 => x.q0
  | 1 => x.q1
  | 2 => x.q2
  | _ => x.q3

/-- The core with queue `e` replaced. -/
def setQ (x : CoreSt) (e : Nat) (q : Queue) : CoreSt :=
  match e with
  | 0 => { x with q0 := q }
  | 1 => { x with q1 := q }
  | 2 => { x with q2 := q }
  | _ => { x with q3 := q }

/-- Queue `e` of a core of the module. -/
def queueOf (s : State) (c e : Nat) : Queue := getQ (core s c) e

/-- The state with queue `e` of a core replaced. -/
def putQueue (s : State) (c e : Nat) (q : Queue) : State := updCore s c (fun x => setQ x e q)

/-- The queues' depth (R57). -/
def queueDepth : Nat := 256

/-- A descriptor entered into queue `e` of a core, stamped (R58). While the core's clock runs it issues in the next cycle at the earliest (R160). -/
def enterQueue (s : State) (c e : Nat) (d : BitVec 512) : State :=
  let x := core s c
  let q := getQ x e
  let ent : QEntry :=
    { desc := d, stamps := (upFrom 0 4).map (fun k => (getQ x k).enq), parity := tbit (reg s (coreDie c) 1 0x048) 0,
      overrun := false, slot := q.enq % 256, counted := true }
  let next := if q.entries.isEmpty ∧ x.clk.mode = .run then max q.evalNext (coreCycle s c + 1) else q.evalNext
  putCore s c (setQ x e { q with entries := q.entries ++ [ent], enq := (q.enq + 1) % 2 ^ 16, evalNext := next })

/-- Starts the wake of a core whose clock is stopped (R57, R160, R395): it is usable after its wake latency. A synthesiser that locks anew leaves the
phase of its edges open: a free value (R150, log entry 18). -/
def wakeCore (s : State) (c : Nat) : State :=
  let x := core s c
  match x.clk.mode with
  | .gated => putCore s c { x with clk := { x.clk with mode := .waking, wakeAt := s.now + 8 * 64 } }
  | .synOff =>
    let d := drawFree s 150 c
    putCore d.2 c { x with clk := { x.clk with mode := .waking, wakeAt := s.now + 6258 * 64, segT := s.now, phase := d.1.toNat % 90000 } }
  | _ => s

/-- Whether a core's clock is GATED or SYN_OFF (R395). -/
def coreStopped (s : State) (c : Nat) : Bool :=
  match (core s c).clk.mode with
  | .gated => true
  | .synOff => true
  | _ => false

/-- Whether DEP of a queue entry is satisfied (R58): each named queue's ISS has reached the stamped ENQ, modulo 2^16. -/
def depMet (x : CoreSt) (e : Nat) (ent : QEntry) : Bool :=
  (upFrom 0 4).all (fun k =>
    k == e || !dDep ent.desc k || decide (((getQ x k).iss + 2 ^ 16 - nth ent.stamps k 0) % 2 ^ 16 < 2 ^ 15))

/-- Whether the time condition of a queue entry holds (R59 condition 2, R60). -/
def timeMet (s : State) (c : Nat) (ent : QEntry) : Bool :=
  !dLocked ent.desc || ent.overrun || decide (frameCycle s c ≥ dIssueAt ent.desc)

/-- The wait bits of Q_STATUS (R86). -/
def waitBits (time dep sb ctx engine : Bool) : Word :=
  BitVec.ofNat 32 (b2n time * 2 ^ 16 + b2n dep * 2 ^ 17 + b2n sb * 2 ^ 18 + b2n ctx * 2 ^ 19 + b2n engine * 2 ^ 20)

/-- The head of queue `e` waits in this cycle with the given wait bits. -/
def headWaits (s : State) (c e : Nat) (w : Word) : State :=
  let q := queueOf s c e
  putQueue s c e { q with waits := w, evalNext := coreCycle s c + 1 }

/-- The head leaves queue `e` in this cycle, counted as issued for DEP. -/
def headLeaves (s : State) (c e : Nat) : State :=
  let q := queueOf s c e
  putQueue s c e { q with
    entries := q.entries.tail, iss := (q.iss + 1) % 2 ^ 16, waits := 0#32, evalNext := coreCycle s c + 1,
    roomAt := if q.entries.length ≥ queueDepth then coreCycle s c + 1 else q.roomAt }

/-- NOTIFYi of a core raised by one, wrapping (R62, R86). -/
def bumpNotify (s : State) (c i : Nat) : State :=
  let off := 0x0C0 + 4 * i
  setReg s (coreDie c) (corePage c 0) off (reg s (coreDie c) (corePage c 0) off + 1#32)

/-- The notify increment of a command (R62); after a handover's boundary it is added to the target's registers too (R454). -/
def notify (s : State) (c : Nat) (d : BitVec 512) : State :=
  if dNotifyEn d then
    let s1 := bumpNotify s c (dNotifyIdx d)
    match (core s c).notifyTo with
    | none => s1
    | some t => bumpNotify s1 t (dNotifyIdx d)
  else s

/-- Skips the head of queue `e` (R83): no effect, counted as issued, its notify increment made. -/
def skipHead (s : State) (c e : Nat) (ent : QEntry) : State :=
  notify (count (headLeaves s c e) (coreDie c) (corePage c 0) 0x02 1) c ent.desc

/-- The commands counted at issue: issued ones, and late ones among them (R60, R89). -/
def countIssue (s : State) (c : Nat) (ent : QEntry) : State :=
  let late := dLocked ent.desc && !ent.overrun && decide (frameCycle s c > dIssueAt ent.desc)
  let s1 := count (traceRec s (coreDie c) 2 (coreOnDie c)) (coreDie c) (corePage c 0) 0x01 1
  if late then count s1 (coreDie c) (corePage c 0) 0x03 1 else s1

/-- The head faults at issue (R82): no effect and no scoreboard entry; it retires in the next cycle, whatever is in execution (DEDUCED, log
entry 104). -/
def faultHead (s : State) (c e : Nat) (ent : QEntry) (code : Nat) : State :=
  let s1 := cmdError (countIssue s c ent) c e ent.slot ent.desc code
  let s2 := headLeaves s1 c e
  let x := core s2 c
  let q := getQ x e
  let r := coreCycle s2 c + 1
  let ex : Exec :=
    { desc := ent.desc, slot := ent.slot, retire := r, seq := x.seq, lateFault := 0, gen := 0, genDone := true, orphan := false,
      issuedAt := s.now, poisonSeen := false, counted := ent.counted, pack := [], packBad := false }
  putCore s2 c (setQ { x with seq := x.seq + 1 } e { q with exec := q.exec ++ [ex] })

/-- The scoreboard with a command's entries added (R63). -/
def allocSb (x : CoreSt) (cyc : Nat) (l : List Rng) : CoreSt :=
  let vis := sbVisible x cyc
  let new := l.map (fun r => ({ lo := r.lo, hi := r.hi, write := r.write, seq := x.seq, freed := none } : SbEntry))
  { x with sb := vis ++ new, sbHigh := max x.sbHigh (vis.length + new.length) }

/-- Puts an issued command into execution (R62, R81): its engine accepts the next after `occ` cycles, and it retires `lat` cycles
after issue, not before the engine's earlier ones. -/
def startExec (s : State) (c e : Nat) (ent : QEntry) (l : List Rng) (occ lat lateFault : Nat) : State :=
  let s1 := headLeaves (countIssue s c ent) c e
  let x := core s1 c
  let cyc := coreCycle s1 c
  let x1 := allocSb x cyc l
  let q := getQ x1 e
  let r := if e = 2 then cyc + lat else max (cyc + lat) q.lastRetire
  let ex : Exec :=
    { desc := ent.desc, slot := ent.slot, retire := r, seq := x1.seq, lateFault := lateFault, gen := 0, genDone := false,
      orphan := false, issuedAt := s.now, poisonSeen := false, counted := ent.counted, pack := [], packBad := false }
  putCore s1 c (setQ { x1 with seq := x1.seq + 1 } e
    { q with exec := q.exec ++ [ex], lastRetire := max q.lastRetire r, freeAt := cyc + occ })

/-- The ranges of a command as scoreboard entries: absolute and rounded (R49, R63). -/
def absRanges (s : State) (c : Nat) (d : BitVec 512) (l : List Rng) : List Rng :=
  l.map (fun r => sbRound { r with lo := r.lo + ctxBase s c (dCtx d), hi := r.hi + ctxBase s c (dCtx d) })

/-- Whether a command is a paged ACC_STORE: its rows are checked against the bound one by one, as they are written (R72). -/
def pagedRegion (d : BitVec 512) : Bool := decide (dOpcode d = 0x01) && tbit d (64 + 31)

/-- The first fault found at issue, in the order of R59: those of the encoding, the formats and the alignment, the context, the bound
and the remote range; 0 for none. -/
def firstFault (s : State) (c : Nat) (d : BitVec 512) (coded : Nat) (l : List Rng) (remote : Bool) : Nat :=
  if coded ≠ 0 then coded
  else if !(ctxValid s c (dCtx d)) || decide (ctxOwner s c (dCtx d) ≠ dJob d) then 0x1021
  else if l.any (fun r => outOfBound s c (dCtx d) r && !(pagedRegion d && r.write)) then 0x3020
  else if remote then 0x8020
  else 0

/-- The core with a running fill's lines written up to, and not in, a cycle (R51, R52). -/
def fillOne (cyc : Nat) (x : CoreSt) (f : Fill) : CoreSt :=
  let upTo := min f.hi (f.lo + 2048 * (cyc - (f.start + 9)))
  if f.pos < upTo then spmZero x f.pos upTo else x

/-- A fill as far as it has come before a cycle. -/
def fillNow (cyc : Nat) (f : Fill) : Fill := { f with pos := max f.pos (min f.hi (f.lo + 2048 * (cyc - (f.start + 9)))) }

/-- The core with a mirrored write performed (R452). -/
def applyMirrored (x : CoreSt) (w : MirrorWrite) : CoreSt :=
  let y := foldState (fun u b => { u with spm := mapPut 0#8 u.spm b.1 b.2 }) x w.bytes
  foldState (fun u m => markWord u m.1 m.2) y w.marks

/-- The core with everything that has come about in its scratchpad before a cycle: fills (R51) and mirrored writes (R452). A fill that
has ended is dropped. -/
def fillTo (x : CoreSt) (cyc : Nat) : CoreSt :=
  let y := foldState (fillOne cyc) x x.fills
  let z := foldState applyMirrored y (y.mirrored.filter (fun w => decide (w.due < cyc)))
  { z with fills := (y.fills.map (fillNow cyc)).filter (fun f => decide (cyc ≤ f.last)),
           mirrored := y.mirrored.filter (fun w => decide (cyc ≤ w.due)) }

/-- The core with consumed markers written (R110). -/
def putMarkers (x : CoreSt) (l : List (Nat × Nat)) : CoreSt :=
  foldState (fun u m => spmWrite u m.2 [0xFF#8, 0xFF#8, 0xFF#8, 0xFF#8] false) x l

/-- The state with a core's fills, mirrored writes and consumed markers brought up to the present cycle. A marker of this cycle is written first: a
local write of the cycle is performed after it (R110), and a read of the cycle does not see it (R47). -/
def settle (s : State) (c : Nat) : State :=
  let x := core s c
  let s1 :=
    if x.fills.isEmpty && x.mirrored.isEmpty && x.markers.isEmpty then s
    else
      let cyc := coreCycle s c
      updCore (updCore s c (fun y => putMarkers (fillTo y cyc) (x.markers.filter (fun m => decide (m.1 < cyc))))) c (fun y => { y with before := x.before })
  if x.markers.isEmpty then s1
  else
    let cyc := coreCycle s c
    updCore s1 c (fun y =>
      { putMarkers y (x.markers.filter (fun m => decide (m.1 = cyc))) with markers := x.markers.filter (fun m => decide (cyc < m.1)) })

/-- Evaluates the head of queue `e` in this cycle (R59, R83). `want` picks the commands of the row, `ready` is condition 1, to which the pace of
unlocked commands on a core without a stage belongs (R405, log entry 120), `coded` the faults of encoding, format and alignment, `ranges` the scratchpad ranges, `remote` a range refused by protection, and
`issue` the issue itself with its absolute ranges. -/
def evalHead (s : State) (c e : Nat) (ecc : Ecc) (want : BitVec 512 → Bool) (ready : State → BitVec 512 → Bool)
    (coded : BitVec 512 → Nat) (ranges : State → BitVec 512 → List Rng) (remote : State → BitVec 512 → Bool)
    (issue : State → QEntry → List Rng → State) : State :=
  let s := settle s c
  let x := core s c
  let q := getQ x e
  let cyc := coreCycle s c
  match q.entries with
  | [] => s
  | ent :: _ =>
    if !want ent.desc || decide (x.clk.mode ≠ .run) || isHalted s (coreDie c) (corePage c 0) || decide (cyc < q.evalNext) then s
    else if ecc.entryBad then haltUnit s (coreDie c) (corePage c 0) (e * 256 + ent.slot)
    else if jobStopped s c cyc (dJob ent.desc) then skipHead s c e ent
    else
      let eng := ready s ent.desc && (dLocked ent.desc || ownsStage s c || paceAllows s 0 cyc)
      let tim := timeMet s c ent
      let dep := depMet x e ent
      if !(eng && tim && dep) then
        let s1 := headWaits s c e (waitBits (!tim) (!dep) false false (!eng))
        if dep then s1 else count s1 (coreDie c) (corePage c 0) 0x06 1
      else
        let l := ranges s ent.desc
        let f := firstFault s c ent.desc (coded ent.desc) l (remote s ent.desc)
        if f ≠ 0 then faultHead s c e ent f
        else if ctxFilling s c (dCtx ent.desc) cyc then headWaits s c e (waitBits false false false true false)
        else
          let a := absRanges s c ent.desc l
          let vis := sbVisible x cyc
          if a.any (sbConflict vis) || decide (vis.length + a.length > 64) then
            count (headWaits s c e (waitBits false false true false false)) (coreDie c) (corePage c 0) 0x05 1
          else issue s ent a

/-- The scoreboard with a command's entries released in a cycle (R64). -/
def releaseSb (l : List SbEntry) (seq cyc : Nat) : List SbEntry :=
  l.map (fun b => if b.seq = seq ∧ b.freed = none then { b with freed := some cyc } else b)

/-- Removes the first command in execution that satisfies a test. -/
def takeExec (p : Exec → Bool) (l : List Exec) : Option (Exec × List Exec) :=
  match l with
  | [] => none
  | x :: r =>
    if p x then some (x, r)
    else
      match takeExec p r with
      | none => none
      | some (y, q) => some (y, x :: q)

/-- Retires a command of queue `e` that has reached its retirement cycle (R62, R64, R75): scoreboard entries released, the notify
increment made, a fault of execution recorded. A command that a soft reset of its CORE page left behind changes no register of that page (R538). -/
def retireOne (s : State) (c e : Nat) (done : Exec → Bool) : State :=
  let x := core s c
  let q := getQ x e
  let cyc := coreCycle s c
  match takeExec done q.exec with
  | none => s
  | some (ex, rest) =>
    let x1 := setQ { x with sb := releaseSb x.sb ex.seq cyc } e { q with exec := rest }
    let s1 := putCore s c x1
    if ex.orphan then s1
    else
      let s2 := notify s1 c ex.desc
      if ex.lateFault = 0 then s2 else cmdError s2 c e ex.slot ex.desc ex.lateFault

/-- Queued and executing commands that name a context: CTXn_STATUS.REFS (R87). -/
def ctxRefs (x : CoreSt) (n : Nat) : Nat :=
  foldState (fun k e =>
    k + ((getQ x e).entries.filter (fun t => t.counted && decide (dCtx t.desc = n))).length
      + ((getQ x e).exec.filter (fun t => t.counted && decide (dCtx t.desc = n))).length) 0 (upFrom 0 4)

/-- CTXn_STATUS as it reads (R87). -/
def ctxStatus (s : State) (c n : Nat) : Word :=
  BitVec.ofNat 32 (b2n (ctxValid s c n) + 2 * b2n (ctxFilling s c n (coreCycle s c)) + ctxRefs (core s c) n % 2048 * 4)

/-- Q_STATUSe as it reads (R86). -/
def queueStatus (x : CoreSt) (e : Nat) : Word :=
  let q := getQ x e
  BitVec.ofNat 32 (q.entries.length + b2n ((q.entries.head?.map (fun t => t.overrun)).getD false) * 2 ^ 21) ||| q.waits

/-- Q_COUNTSe as it reads (R86). -/
def queueCounts (x : CoreSt) (e : Nat) : Word :=
  let q := getQ x e
  BitVec.ofNat 32 (q.enq + q.iss * 2 ^ 16)

end Sys2Proof.Machine
end

