-- ==== Sys2Proof/Machine/Mou.lean ====
section
/-!
DEFINITION. Sys2Proof/Machine/Mou.lean: the memory-operation unit (R80, R81, R84, R539).
-/
namespace Sys2Proof.Machine

/-- S_ADDR of a MOU command. -/
def mouS (d : BitVec 512) : Nat := df d 2 0 25
/-- D_ADDR of a MOU command. -/
def mouD (d : BitVec 512) : Nat := df d 4 0 25
/-- PATTERN. -/
def mouPattern (d : BitVec 512) : Nat := df d 5 0 32
/-- LENGTH in bytes. -/
def mouLen (d : BitVec 512) : Nat := df d 6 0 25

/-- Whether an opcode is a MOU opcode (R80). -/
def isMouOp (op : Nat) : Bool := [0xC0, 0xC1, 0xFF].contains op

/-- The fields a MOU command uses beyond W0 and W1 (R53, R80). -/
def mouFields (d : BitVec 512) : List (Nat × Nat × Nat) :=
  match dOpcode d with
  | 0xC0 => [(4, 0, 25), (5, 0, 32), (6, 0, 25)]
  | 0xC1 => [(2, 0, 25), (4, 0, 25), (6, 0, 25)]
  | _ => []

/-- The encoding and alignment fault of a MOU command, in the order of R59 (R53, R80, R539). A LENGTH above 24 MiB reaches beyond every
bound, so it faults as R49 states. -/
def mouCoded (d : BitVec 512) : Nat :=
  firstFailing
    [(!isMouOp (dOpcode d), 0x1020),
     (!restZero d (mouFields d), 0x1020),
     (decide (mouS d % 64 ≠ 0) || decide (mouD d % 64 ≠ 0) || decide (mouLen d % 64 ≠ 0), 0x3023)]

/-- A run of bytes as a range; none when empty. -/
def runRng (a n : Nat) (w : Bool) : List Rng := if n = 0 then [] else [{ lo := a, hi := a + n - 1, write := w }]

/-- The scratchpad ranges of a MOU command (R63). -/
def mouRanges (d : BitVec 512) : List Rng :=
  match dOpcode d with
  | 0xC0 => runRng (mouD d) (mouLen d) true
  | 0xC1 => runRng (mouS d) (mouLen d) false ++ runRng (mouD d) (mouLen d) true
  | _ => []

/-- Whether the MOU accepts a command (R51, R81): its occupancy has ended and no fill runs. -/
def mouReady (s : State) (c : Nat) : Bool :=
  let x := core s c
  decide (coreCycle s c ≥ x.q3.freeAt) && !fillRuns s c (coreCycle s c)

/-- `n` bytes of the pattern, repeated in ascending address order, low byte first (R80). -/
def patternBytes (p n : Nat) : List Byte := (upFrom 0 n).map (fun i => BitVec.ofNat 8 (p / 256 ^ (i % 4)))

/-- The poison marks of `n` words copied as from a temporary buffer (R80, R84). -/
def copyMarks (x y : CoreSt) (sw dw n : Nat) : CoreSt :=
  foldState (fun z i => markWord z (dw + i) (mapGet x.poison (sw + i) false)) y (upFrom 0 n)

/-- Puts a MOU command into execution with its latency (R81), lengthened by delays at the banks (R48). -/
def mouStart (s : State) (c : Nat) (ecc : Ecc) (ent : QEntry) (l : List Rng) : State :=
  let d := ent.desc
  let dl := bankDelay (core s c) 4 ecc.met
  let s1 := countDelay (applyEcc s c ecc) c dl
  match dOpcode d with
  | 0xC0 => startExec s1 c 3 ent l (ceilDiv (mouLen d) 2048 + dl) (2 + 6 + ceilDiv (mouLen d) 2048 + dl) 0
  | 0xC1 => startExec s1 c 3 ent l (ceilDiv (mouLen d) 1024 + dl) (2 + 12 + ceilDiv (mouLen d) 1024 + dl) 0
  | _ => startExec s1 c 3 ent l (1 + dl) (3 + dl) 0

/-- FILL at issue (R80). -/
def issueFill (s : State) (c : Nat) (ecc : Ecc) (ent : QEntry) (l : List Rng) : State :=
  let d := ent.desc
  let s1 := mouStart s c ecc ent l
  updCore s1 c (fun x => spmWrite x (ctxBase s1 c (dCtx d) + mouD d) (patternBytes (mouPattern d) (mouLen d)) false)

/-- COPY at issue (R80, R84): poison is carried to the destination. -/
def issueMouCopy (s : State) (c : Nat) (ecc : Ecc) (ent : QEntry) (l : List Rng) : State :=
  let d := ent.desc
  let s1 := mouStart s c ecc ent l
  let base := ctxBase s1 c (dCtx d)
  let src := seenCore (core s1 c) (coreCycle s1 c)
  updCore s1 c (fun x =>
    copyMarks src (spmWrite x (base + mouD d) (spmRead src (base + mouS d) (mouLen d)) false) ((base + mouS d) / 8)
      ((base + mouD d) / 8) (mouLen d / 8))

/-- Evaluates the head of the MOU queue for the row of an opcode; FILL's row also takes heads that are no MOU command (R57, R82). -/
def evalMou (s : State) (t : Time) (c op : Nat) (ecc : Ecc) (issue : State → QEntry → List Rng → State) :
    Host.Outcome State Fault Refusal :=
  .next (evalHead (advance s t) c 3 ecc
    (fun d => decide (dOpcode d = op) || (decide (op = 0xC0) && !isMouOp (dOpcode d)))
    (fun u _ => mouReady u c) mouCoded (fun _ d => mouRanges d) (fun _ _ => false) issue)

/-- FILL (R80). -/
def execFill (t : Time) (c : PhysCore) (ecc : Ecc) (s : State) : Host.Outcome State Fault Refusal :=
  evalMou s t c.val 0xC0 ecc (fun u ent l => issueFill u c.val ecc ent l)

/-- COPY of the MOU (R80). -/
def execMouCopy (t : Time) (c : PhysCore) (ecc : Ecc) (s : State) : Host.Outcome State Fault Refusal :=
  evalMou s t c.val 0xC1 ecc (fun u ent l => issueMouCopy u c.val ecc ent l)

/-- The MOU's NOP (R81). -/
def execMouNop (t : Time) (c : PhysCore) (ecc : Ecc) (s : State) : Host.Outcome State Fault Refusal :=
  evalMou s t c.val 0xFF ecc (fun u ent l => mouStart u c.val ecc ent l)

end Sys2Proof.Machine
end

