-- ==== Sys2Proof/Machine/Homes.lean ====
section
/-!
DEFINITION. Sys2Proof/Machine/Homes.lean: node numbers and coordinates (R35 to R38), the module offset map (R39 to R43), job slices
(R359), the sender-side region tables (R356, R366) and the injection queues of the mesh (R146).
-/
namespace Sys2Proof.Machine

/-- X, Y and Z of a node number (R37). -/
def nodeX (n : Nat) : Nat := n % 8
/-- The tray of a node number. -/
def nodeY (n : Nat) : Nat := n / 8 % 32
/-- The rack of a node number. -/
def nodeZ (n : Nat) : Nat := n / 256 % 256

/-- The node number of coordinates. -/
def nodeOf (x y z : Nat) : Nat := z * 256 + y * 8 + x

/-- What a module offset names (R39, R40). -/
inductive Home where
  | tier1 (stack addr : Nat)
  | tier0 (ord logical byte : Nat)
  | hole
  | tier2 (w : Nat)
  | regs (bar : Nat)
  | unmapped
deriving DecidableEq, Repr

/-- The home of a module offset (R39, R40). -/
def homeOf (off : Nat) : Home :=
  if off < 0x00C000000000 then .tier1 (off / 0x000C00000000) (off % 0x000C00000000)
  else if 0x010000000000 ≤ off ∧ off < 0x010800000000 then
    let k := off - 0x010000000000
    let slot := k / 0x02000000
    let b := k % 0x02000000
    if b < 0x01800000 then .tier0 (slot / 16) (slot % 16) b else .hole
  else if 0x020000000000 ≤ off ∧ off < 0x030000000000 then .tier2 (off - 0x020000000000)
  else if 0x0F0000000000 ≤ off ∧ off < 0x0F0010000000 then .regs (off - 0x0F0000000000)
  else .unmapped

/-- The die on which a home lies, or die 0 for an offset that has none. -/
def homeDie (off : Nat) : Nat :=
  match homeOf off with
  | .tier1 st _ => mmDie st
  | .tier0 o _ _ => cpDie o
  | .hole => cpDie ((off - 0x010000000000) / 0x02000000 / 16)
  | .tier2 _ => 98
  | .regs b => b / 0x100000
  | .unmapped => 0

/-- Whether an offset lies in the Tier 2 window (R39). -/
def inTier2 (off : Nat) : Bool :=
  match homeOf off with
  | .tier2 _ => true
  | _ => false

/-- Whether an offset lies in register space (R39). -/
def inRegs (off : Nat) : Bool := decide (0x0F0000000000 ≤ off) && decide (off < 0x0F0010000000)

/-- Whether a node belongs to the running job slice (R359). -/
def inSlice (s : State) (n : Nat) : Bool :=
  let o := s.slice.origin
  let ny := max s.ny 1
  let nz := max s.nz 1
  s.slice.running && decide ((nodeX n + 4 - nodeX o) % 4 < s.slice.x) && decide ((nodeY n + ny - nodeY o % ny) % ny < s.slice.y)
    && decide ((nodeZ n + nz - nodeZ o % nz) % nz < s.slice.z)

/-- A protection bank of a die. -/
def protBank (s : State) (die : Nat) (b : Bool) : ProtBank := if b then (router s die).protB else (router s die).protA

/-- The active protection bank of a die: PROT_STATUS.ACTIVE_BANK (R366). -/
def activeProt (s : State) (die : Nat) : ProtBank := protBank s die (tbit (reg s die 0 0x104) 0)

/-- Whether a region entry permits a range for a command (R356): `need` is the PERM bits it needs. -/
def entryPermits (s : State) (e : ProtEntry) (job node lo hi need qos : Nat) : Bool :=
  e.valid && decide (e.job = job)
    && (match e.mode with
        | 0 => decide (node = e.node)
        | 1 => inSlice s node
        | 2 => decide (node = ownNode s)
        | _ => false)
    && decide (e.base ≤ lo) && decide (hi < e.limit) && decide (e.perm &&& need = need) && decide (e.qos / 2 ^ qos % 2 = 1)

/-- Whether sender-side protection permits the bytes `lo` to `hi` of a node to a command of a die (R356): one entry must cover all. -/
def protPermits (s : State) (die job node lo hi need qos : Nat) : Bool :=
  let n := if inRegs lo || inRegs hi then need ||| 8 else need
  (activeProt s die).entries.any (fun p => entryPermits s p.2 job node lo hi n qos)

/-- The new value of an atomic of a width in bits (R75, R345): codes 0 fetch-add to 6 unsigned maximum. -/
def atomicNew (op w old a b : Nat) : Nat :=
  let x := a % 2 ^ w
  match op with
  | 0 => (old + x) % 2 ^ w
  | 1 => x
  | 2 => if old = x then b % 2 ^ w else old
  | 3 => if signed w x < signed w old then x else old
  | 4 => if signed w x > signed w old then x else old
  | 5 => min old x
  | 6 => max old x
  | _ => old

/-- The width of an atomic request in bytes, from WIDTH64 of its CLASS (R343). -/
def atomicBytes (m : FabMsg) : Nat := if m.cls / 4 % 2 = 1 then 8 else 4

/-- ATOMIC_OP of a request's CLASS (R343). -/
def atomicOp (m : FabMsg) : Nat := m.cls / 8 % 16

/-- The bytes an atomic stores over an old value (R345). -/
def atomicStore (m : FabMsg) (old : Nat) : List Byte :=
  let n := atomicBytes m
  toLE n (atomicNew (atomicOp m) (8 * n) old (ofLE (m.data.take 8)) (ofLE ((m.data.drop 8).take 8)))

/-- The old value of an atomic as its response carries it: 8 bytes (R343). -/
def atomicReply (old : Nat) : List Byte := toLE 8 old

/-- The OP of the response to a request: read, write and atomic responses, or 0xB with an error (R343). -/
def replyOp (m : FabMsg) (err : Nat) : Nat :=
  if err ≠ 0 then 0xB
  else
    match m.op with
    | 1 => 8
    | 2 => 9
    | _ => 0xA

/-- The response to a request (R343, R347): to its requester, by the same offset and tag, from this module (DEDUCED); the completion of a planned
write is in the express class. -/
def replyMsg (s : State) (m : FabMsg) (r : Resp) : FabMsg :=
  { m with
    dest := m.src, src := ownNode s, op := replyOp m r.err, cls := if m.op = 2 ∧ m.cls % 4 = 0 then m.cls + 2 else m.cls, len := r.data.length, hops := 0, status := r.err, data := r.data,
    poison := r.poison }

/-! ## Routing between modules (R37, R339 to R341) -/

/-- Whether a port is ACTIVE: LNK_STATE (R317). -/
def portActive (s : State) (p : Nat) : Bool := decide (fld (reg s (portDie p) (portPage p) 0x044) 0 4 = 5)

/-- Whether S directions are allocated to ports of this module (R315, R340). -/
def hasSwitch (s : State) : Bool :=
  (upFrom 0 42).any (fun p =>
    let d := fld (reg s (portDie p) (portPage p) 0x044) 8 5
    decide (8 ≤ d) && decide (d ≤ 15))

/-- The direction of R340 towards a node, and its alternative: the codes of R315. -/
def directionTo (s : State) (dest : Nat) : Nat × Option Nat :=
  let n := ownNode s
  let ny := max s.ny 1
  let nz := max s.nz 1
  let dz := (nodeZ dest + nz - nodeZ n % nz) % nz
  let dy := (nodeY dest + ny - nodeY n % ny) % ny
  let y := if dy ≤ ny / 2 then 4 else 5
  if nodeZ dest ≠ nodeZ n then (if dz ≤ nz / 2 then (6, some 7) else (7, some 6))
  else if nodeY dest ≠ nodeY n then
    if dy = 1 then (4, none)
    else if dy = ny - 1 then (5, none)
    else if hasSwitch s then (8 + (nodeY dest + nodeX dest) % 8, some y)
    else (y, none)
  else (Nat.xor (nodeX n) (nodeX dest), none)

/-- The ports of a direction's route list in a die's active bank, in order (R341, R357). -/
def routePorts (s : State) (die dir : Nat) : List Nat :=
  let w := mapGet (activeProt s die).routes dir 0xFFFFFFFFFFFFFFFF#64
  ((upFrom 0 8).map (fun i => fld w (8 * i) 8)).takeWhile (fun p => decide (p ≠ 0xFF))

/-- The port of a direction for an offset, where the direction has an ACTIVE port (R340, R341). -/
def portIn (s : State) (die dir off : Nat) : Option Nat :=
  let l := routePorts s die dir
  if l.any (portActive s) then some (nth l (off / 4096 % l.length) 0) else none

/-- The port by which a request or response leaves the module from a die (R340, R341); a planned one has no alternative. -/
def routeTo (s : State) (die dest qos off : Nat) : Option Nat :=
  let d := directionTo s dest
  match portIn s die d.1 off with
  | some p => some p
  | none =>
    match d.2 with
    | some e => if qos = 0 then none else portIn s die e off
    | none => none

/-- Whether a node is in the populated set of the cabling record, its rack and tray in range (R339). -/
def nodePresent (s : State) (n : Nat) : Bool :=
  match s.cab with
  | none => false
  | some c =>
    decide (nodeZ n < c.nz) && decide (nodeY n < c.ny) && decide (nth c.pop (nodeZ n * c.ny + nodeY n) 0 / 2 ^ nodeX n % 2 = 1)

/-- The port by which a request of this module leaves from a die, or none where R339 completes it with 0x4015. -/
def sendPort (s : State) (die : Nat) (m : FabMsg) : Option Nat :=
  if nodePresent s m.dest then routeTo s die m.dest (m.cls % 4) m.offset else none

/-- The bytes of a message on a link (R343): its 32-byte header, then its data. -/
def messageOut (m : FabMsg) : List Byte :=
  toLE 2 m.dest ++ toLE 2 m.src ++ toLE 6 m.offset ++ toLE 1 m.op ++ toLE 1 m.cls ++ toLE 2 m.len ++ toLE 1 m.job ++ toLE 1 m.hops ++ toLE 4 m.tag
    ++ toLE 4 m.expiry ++ toLE 2 m.status ++ toLE 6 0 ++ m.data

/-- A port's transmit side with a message in the queue of its class (R322, R348). -/
def queueTx (x : PortTx) (t : Nat) (m : FabMsg) : PortTx :=
  let i : TxItem := { entered := t, bytes := messageOut m, off := 0, poison := m.poison }
  match m.cls % 4 with
  | 0 => { x with planned := x.planned ++ [i] }
  | 1 => { x with control := x.control ++ [i] }
  | 2 => { x with express := x.express ++ [i] }
  | _ => { x with bulk := x.bulk ++ [i] }

/-- A message that has crossed one link more enters a port's transmit queue. -/
def queueOut (s : State) (p : Nat) (m : FabMsg) : State :=
  let x := mapGet s.ports p PortSt.reset
  { s with ports := mapPut PortSt.reset s.ports p { x with tx := queueTx x.tx s.now { m with hops := m.hops + 1 } } }

/-- The home answers a request (R341, R344): the response enters the transmit queue of the port for the request's
offset, unless its requester is here. -/
def reply (s : State) (m : FabMsg) (err : Nat) (data : List Byte) (poison : List Nat) : State :=
  let r : Resp :=
    { generation := m.tag / 2 ^ 21 % 2 ^ 11, err := err, data := if err = 0 then data else [], poison := poison, late := false }
  let n := replyMsg s m r
  let q := if n.dest = ownNode s then none else routeTo s (homeDie m.offset) n.dest (n.cls % 4) m.offset
  let u := { s with lastResp := r, lastSent := some n, lastPort := q }
  match q with
  | some p => queueOut u p n
  | none => u

/-- EXPIRY of a header: EPOCH_TICK in the low and SYNC_EPOCH in the high half, of a die's frame sequencer at a moment (R343, R349). -/
def expiryField (s : State) (die : Nat) (t : Time) : Nat :=
  let n := (t - (frsOf s die).epochBegan) / 64
  n % 65536 + ((reg s die 1 0x054).toNat + n / 65536) % 65536 * 2 ^ 16

/-! ## The way into the mesh (R30, R146) -/

/-- The output of a dynamic message by dimension order (R30): 0 to 3 an edge, 4 delivery. -/
def dynOut (die dst : Nat) : Nat :=
  if dst % 10 > die % 10 then 1
  else if dst % 10 < die % 10 then 3
  else if dst / 10 > die / 10 then 2
  else if dst / 10 < die / 10 then 0
  else 4

/-- An injection queue of a router by output. -/
def injQ (r : Router) (o : Nat) : InjQueue := nth r.inj o InjQueue.reset

/-- The router with an injection queue replaced. -/
def setInj (r : Router) (o : Nat) (q : InjQueue) : Router := { r with inj := setNth r.inj o q }

/-- The next flit for an output enters its queue, waits at the move engine while 32 are queued, and is discarded
when its injection cycle has passed. -/
def enqueueFlit (s : State) (die o : Nat) (f : Flit) : State :=
  let r := router s die
  let q := injQ r o
  if q.late > 0 then count (putRouter s die (setInj r o { q with enq := q.enq + 1, late := q.late - 1 })) die 0 0x06 1
  else if q.flits.length < 32 ∧ q.waiting.isEmpty then putRouter s die (setInj r o { q with flits := q.flits ++ [f], enq := q.enq + 1 })
  else putRouter s die (setInj r o { q with waiting := q.waiting ++ [f] })

/-- The output of the first dimension-ordered hop of a request of a die of this module (R146): towards its home, or towards the port by which it
leaves; 4 where it leaves by no output. -/
def firstHop (s : State) (die : Nat) (m : FabMsg) : Nat :=
  if m.dest = ownNode s then dynOut die (homeDie m.offset)
  else
    match sendPort s die m with
    | some p => dynOut die (portDie p)
    | none => 4

/-- Whether the injection queue of an output of a die is full: a requester whose flits it would take waits (R146). -/
def queueFull (s : State) (die o : Nat) : Bool :=
  let q := injQ (router s die) o
  decide (q.flits.length ≥ 32) || !q.waiting.isEmpty

/-- The bytes of a mesh flit's payload (R26). -/
def flitPayload : Nat := 3000

/-- Enqueues the full flits of a stream of bytes, and with `last` what is left as a last flit (R26, R146): the bytes that fill no flit yet. -/
def enqueueStream (fuel : Nat) (s : State) (die o : Nat) (bad last : Bool) (l : List Byte) : State × List Byte :=
  match fuel with
  | 0 => (s, l)
  | k + 1 =>
    if l.length ≥ flitPayload then
      enqueueStream k (enqueueFlit s die o { poison := bad, bytes := l.take flitPayload }) die o bad last (l.drop flitPayload)
    else if last && !l.isEmpty then (enqueueFlit s die o { poison := bad, bytes := l }, [])
    else (s, l)

end Sys2Proof.Machine
end

