-- ==== Sys2Proof/Machine/Mve.lean ====
section
/-!
DEFINITION. Sys2Proof/Machine/Mve.lean: the move engine (R76 to R79, R84, R345, R347, R349, R353, R356).
-/
namespace Sys2Proof.Machine

/-- L_ADDR. -/
def mveL (d : BitVec 512) : Nat := df d 2 0 25
/-- The 48-bit remote offset. -/
def mveOff (d : BitVec 512) : Nat := df d 3 0 32 + df d 4 0 16 * 2 ^ 32
/-- The node number. -/
def mveNode (d : BitVec 512) : Nat := df d 4 16 16
/-- ROW_BYTES. -/
def mveRowBytes (d : BitVec 512) : Nat := df d 5 0 20
/-- R_STRIDE. -/
def mveRStride (d : BitVec 512) : Nat := df d 6 0 32
/-- The local row pitch in bytes. -/
def mveLPitch (d : BitVec 512) : Nat := df d 7 0 16 * 64
/-- QOS. -/
def mveQos (d : BitVec 512) : Nat := df d 7 16 2
/-- WIDTH64. -/
def mveWide (d : BitVec 512) : Bool := tbit d (7 * 32 + 18)
/-- ATOMIC_OP. -/
def mveAtomicOp (d : BitVec 512) : Nat := df d 7 19 4
/-- FENCE_SCOPE. -/
def mveScope (d : BitVec 512) : Nat := df d 7 23 2
/-- INDEX_ADDR. -/
def mveIndexAddr (d : BitVec 512) : Nat := df d 12 0 25
/-- INDEX_COUNT. -/
def mveIndexCount (d : BitVec 512) : Nat := df d 13 0 16

/-- Whether an opcode is an MVE opcode. -/
def isMveOp (op : Nat) : Bool := [0x80, 0x81, 0x84, 0x85, 0x88, 0x89, 0x8A, 0x8C, 0xBF].contains op

/-- Whether an opcode is a copy or a gather: rows of multiples of 64 bytes (R76). -/
def mveCopy (op : Nat) : Bool := [0x80, 0x81, 0x84, 0x85].contains op

/-- Whether an opcode takes its rows from an index list. -/
def mveIndexed (op : Nat) : Bool := decide (op = 0x84) || decide (op = 0x85)

/-- Whether an opcode's bytes move inward (R63). -/
def mveInward (op : Nat) : Bool := [0x80, 0x84, 0x88, 0x8A].contains op

/-- Rows of a command (R76). -/
def mveRowCount (d : BitVec 512) : Nat :=
  if mveIndexed (dOpcode d) then mveIndexCount d
  else if mveCopy (dOpcode d) then df d 5 20 12 + 1
  else 1

/-- Bytes of a row of a command: 4 or 8 by WIDTH64 for ATOMIC. -/
def mveBytes (d : BitVec 512) : Nat := if dOpcode d = 0x8A then (if mveWide d then 8 else 4) else mveRowBytes d

/-- The fields an MVE command uses beyond W0 and W1 (R53, R76). OPERAND1 is taken as unused by every atomic but compare-and-swap (DESIGN CHOICE, log entry
117). -/
def mveFields (d : BitVec 512) : List (Nat × Nat × Nat) :=
  let remote := [(2, 0, 25), (3, 0, 32), (4, 0, 32), (7, 16, 2), (14, 0, 32)]
  let copy := remote ++ [(5, 0, 20), (6, 0, 32), (7, 0, 16)]
  match dOpcode d with
  | 0x80 => copy ++ [(5, 20, 12)]
  | 0x81 => copy ++ [(5, 20, 12)]
  | 0x84 => copy ++ [(12, 0, 25), (13, 0, 16)]
  | 0x85 => copy ++ [(12, 0, 25), (13, 0, 16)]
  | 0x88 => remote ++ [(5, 0, 20)]
  | 0x89 => remote ++ [(5, 0, 20)]
  | 0x8A =>
    remote ++ [(7, 18, 1), (7, 19, 4), (8, 0, 32), (9, 0, 32)] ++ (if mveAtomicOp d = 2 then [(10, 0, 32), (11, 0, 32)] else [])
  | 0x8C => [(7, 23, 2)]
  | _ => []

/-- The last byte of the remote range of a command that is not indexed. -/
def mveLast (d : BitVec 512) : Nat := mveOff d + (mveRowCount d - 1) * mveRStride d + mveBytes d - 1

/-- Whether a command's remote range meets the Tier 2 window (R302). -/
def mveMeetsTier2 (d : BitVec 512) : Bool :=
  if mveIndexed (dOpcode d) then inTier2 (mveOff d)
  else decide (mveOff d < 0x030000000000) && decide (mveLast d ≥ 0x020000000000)

/-- The encoding and alignment fault of an MVE command, in the order of R59 (R53, R76, R302, R347). -/
def mveCoded (d : BitVec 512) : Nat :=
  let op := dOpcode d
  let small := decide (op = 0x88) || decide (op = 0x89)
  let sized := small || decide (op = 0x8A)
  firstFailing
    [(!isMveOp op, 0x1020),
     (!restZero d (mveFields d), 0x1020),
     ((mveCopy op || sized) && (decide (mveQos d = 1) || (decide (mveQos d = 0) && !dLocked d)), 0x1020),
     (decide (op = 0x8A) && decide (mveAtomicOp d ≥ 7), 0x1020),
     (decide (op = 0x8C) && decide (mveScope d = 3), 0x1020),
     (small && !([8, 16, 32, 64].contains (mveRowBytes d)), 0x1020),
     (mveIndexed op && decide (mveIndexCount d = 0), 0x1020),
     (mveCopy op && mveMeetsTier2 d, 0x1020),
     (mveCopy op && decide (mveRowBytes d % 64 ≠ 0 ∨ mveL d % 64 ≠ 0), 0x3023),
     (mveIndexed op && decide (mveIndexAddr d % 64 ≠ 0), 0x3023),
     (sized && decide (mveL d % mveBytes d ≠ 0 ∨ mveOff d % mveBytes d ≠ 0), 0x3023)]

/-- The scratchpad ranges of an MVE command: the local range, and the index list (R63). -/
def mveRanges (d : BitVec 512) : List Rng :=
  let op := dOpcode d
  if !isMveOp op ∨ op = 0x8C ∨ op = 0xBF then []
  else
    rowsRng (mveL d) (mveLPitch d) (mveBytes d) (upFrom 0 (mveRowCount d)) (mveInward op)
      ++ (if mveIndexed op then
            [{ lo := mveIndexAddr d, hi := mveIndexAddr d + 4 * mveIndexCount d - 1, write := false }]
          else [])

/-- The PERM bit a command needs (R356). -/
def mveNeed (op : Nat) : Nat := if op = 0x8A then 4 else if mveInward op then 1 else 2

/-- Whether sender-side protection refuses the remote range of a COPY, LOAD, STORE or ATOMIC (R78, R356). -/
def mveRefused (s : State) (c : Nat) (d : BitVec 512) : Bool :=
  let op := dOpcode d
  [0x80, 0x81, 0x88, 0x89, 0x8A].contains op
    && !protPermits s (coreDie c) (dJob d) (mveNode d) (mveOff d) (mveLast d) (mveNeed op) (mveQos d)

/-- Whether the MVE accepts a command (R77, R353): the previous one has generated its last request, fewer than 16 are in execution, and
no fence is. -/
def mveReady (s : State) (c : Nat) : Bool :=
  let q := (core s c).q2
  decide (coreCycle s c ≥ q.freeAt) && q.exec.all (fun e => e.genDone) && decide (q.exec.length < 16)
    && !(core s c).reqs.any (fun r => decide (r.fenceScope ≠ 0))

/-- An MVE command at issue: dispatch takes two cycles before its first request (R77, R81). A fence is a request of its own; delays at the banks
come with its requests (R48). -/
def issueMve (s : State) (c : Nat) (ecc : Ecc) (ent : QEntry) (l : List Rng) : State :=
  let s1 := startExec (applyEcc s c ecc) c 2 ent l 1 3 0
  let cyc := coreCycle s1 c
  updCore s1 c (fun x =>
    { x with
      genNext := max x.genNext (cyc + 2),
      q2 := { x.q2 with exec := x.q2.exec.map (fun e =>
        if e.seq + 1 = x.seq ∧ dOpcode ent.desc = 0xBF then { e with genDone := true } else e) } })

/-- Evaluates the head of the MVE queue for the row of a kind of command; COPY_IN's row also takes heads that are no MVE command (R57,
R82). -/
def evalMve (s : State) (t : Time) (c : Nat) (ecc : Ecc) (want : BitVec 512 → Bool) : Host.Outcome State Fault Refusal :=
  .next (evalHead (advance s t) c 2 ecc want (fun u _ => mveReady u c) mveCoded (fun _ d => mveRanges d)
    (fun u d => mveRefused u c d) (fun u ent l => issueMve u c ecc ent l))

/-- Whether a command is no valid MVE operation: an unknown opcode, ATOMIC_OP or FENCE_SCOPE. -/
def mveBad (d : BitVec 512) : Bool :=
  !isMveOp (dOpcode d) || (decide (dOpcode d = 0x8A) && decide (mveAtomicOp d ≥ 7))
    || (decide (dOpcode d = 0x8C) && decide (mveScope d = 3))

/-- COPY_IN (R76). -/
def execCopyIn (t : Time) (c : PhysCore) (ecc : Ecc) (s : State) : Host.Outcome State Fault Refusal :=
  evalMve s t c.val ecc (fun d => decide (dOpcode d = 0x80) || mveBad d)

/-- COPY_OUT (R76). -/
def execCopyOut (t : Time) (c : PhysCore) (ecc : Ecc) (s : State) : Host.Outcome State Fault Refusal :=
  evalMve s t c.val ecc (fun d => decide (dOpcode d = 0x81))

/-- GATHER_IN (R78). -/
def execGatherIn (t : Time) (c : PhysCore) (ecc : Ecc) (s : State) : Host.Outcome State Fault Refusal :=
  evalMve s t c.val ecc (fun d => decide (dOpcode d = 0x84))

/-- SCATTER_OUT (R78). -/
def execScatterOut (t : Time) (c : PhysCore) (ecc : Ecc) (s : State) : Host.Outcome State Fault Refusal :=
  evalMve s t c.val ecc (fun d => decide (dOpcode d = 0x85))

/-- LOAD (R76). -/
def execLoad (t : Time) (c : PhysCore) (ecc : Ecc) (s : State) : Host.Outcome State Fault Refusal :=
  evalMve s t c.val ecc (fun d => decide (dOpcode d = 0x88))

/-- STORE (R76). -/
def execStore (t : Time) (c : PhysCore) (ecc : Ecc) (s : State) : Host.Outcome State Fault Refusal :=
  evalMve s t c.val ecc (fun d => decide (dOpcode d = 0x89))

/-- An ATOMIC of one operation. -/
def isAtomic (k : Nat) (d : BitVec 512) : Bool := decide (dOpcode d = 0x8A) && decide (mveAtomicOp d = k)

/-- Fetch-add (R345). -/
def execFetchAdd (t : Time) (c : PhysCore) (ecc : Ecc) (s : State) : Host.Outcome State Fault Refusal :=
  evalMve s t c.val ecc (isAtomic 0)

/-- Swap (R345). -/
def execSwap (t : Time) (c : PhysCore) (ecc : Ecc) (s : State) : Host.Outcome State Fault Refusal :=
  evalMve s t c.val ecc (isAtomic 1)

/-- Compare-and-swap (R345). -/
def execCompareAndSwap (t : Time) (c : PhysCore) (ecc : Ecc) (s : State) : Host.Outcome State Fault Refusal :=
  evalMve s t c.val ecc (isAtomic 2)

/-- Signed minimum (R345). -/
def execSignedMinimum (t : Time) (c : PhysCore) (ecc : Ecc) (s : State) : Host.Outcome State Fault Refusal :=
  evalMve s t c.val ecc (isAtomic 3)

/-- Signed maximum (R345). -/
def execSignedMaximum (t : Time) (c : PhysCore) (ecc : Ecc) (s : State) : Host.Outcome State Fault Refusal :=
  evalMve s t c.val ecc (isAtomic 4)

/-- Unsigned minimum (R345). -/
def execUnsignedMinimum (t : Time) (c : PhysCore) (ecc : Ecc) (s : State) : Host.Outcome State Fault Refusal :=
  evalMve s t c.val ecc (isAtomic 5)

/-- Unsigned maximum (R345). -/
def execUnsignedMaximum (t : Time) (c : PhysCore) (ecc : Ecc) (s : State) : Host.Outcome State Fault Refusal :=
  evalMve s t c.val ecc (isAtomic 6)

/-- A FENCE of one scope (R353). -/
def isFence (k : Nat) (d : BitVec 512) : Bool := decide (dOpcode d = 0x8C) && decide (mveScope d = k)

/-- FENCE.LOCAL (R353). -/
def execFenceLocal (t : Time) (c : PhysCore) (ecc : Ecc) (s : State) : Host.Outcome State Fault Refusal :=
  evalMve s t c.val ecc (isFence 0)

/-- FENCE.NODE (R353). -/
def execFenceNode (t : Time) (c : PhysCore) (ecc : Ecc) (s : State) : Host.Outcome State Fault Refusal :=
  evalMve s t c.val ecc (isFence 1)

/-- FENCE.GLOBAL (R353). -/
def execFenceGlobal (t : Time) (c : PhysCore) (ecc : Ecc) (s : State) : Host.Outcome State Fault Refusal :=
  evalMve s t c.val ecc (isFence 2)

/-- The MVE's NOP (R81). -/
def execMveNop (t : Time) (c : PhysCore) (ecc : Ecc) (s : State) : Host.Outcome State Fault Refusal :=
  evalMve s t c.val ecc (fun d => decide (dOpcode d = 0xBF))

/-! ## Requests (R76 to R79, R343, R349) -/

/-- The lowest of `n` request slots from `k` that no request holds (R77). -/
def freeSlot (l : List MveReq) (n k : Nat) : Nat :=
  match n with
  | 0 => k
  | m + 1 => if l.any (fun r => decide (r.slot = k)) then freeSlot l m (k + 1) else k

/-- The MVE command whose requests are being generated. -/
def generating (q : Queue) : Option Exec :=
  match q.exec.filter (fun e => !e.genDone) with
  | [] => none
  | e :: _ => some e

/-- The core with a command in execution of the MVE changed. -/
def updExec (x : CoreSt) (seq : Nat) (f : Exec → Exec) : CoreSt :=
  { x with q2 := { x.q2 with exec := x.q2.exec.map (fun e => if e.seq = seq then f e else e) } }

/-- The remote offset of a row: plain rows lie R_STRIDE apart, indexed ones at index × R_STRIDE (R76, R78). -/
def rowOffset (d : BitVec 512) (idx row : Nat) : Nat :=
  if mveIndexed (dOpcode d) then
    ((((mveOff d : Nat) : Int) + signed 32 idx * ((mveRStride d : Nat) : Int)) % (2 ^ 48 : Int)).toNat
  else (mveOff d + row * mveRStride d) % 2 ^ 48

/-- The deadline of a command in reference ticks: 156,250 by default for Tier 2 window offsets, 31,250 for others (R349). -/
def deadlineTicks (d : BitVec 512) : Nat :=
  if df d 14 0 32 = 0 then (if inTier2 (mveOff d) then 156250 else 31250) else df d 14 0 32

/-- The moment a command's deadline expires: the start of the expiry tick (R349). -/
def expiryOf (e : Exec) : Nat := (e.issuedAt / 64 + deadlineTicks e.desc) * 64

/-- OPERAND0 and OPERAND1 as an atomic request carries them (R343). -/
def atomicData (d : BitVec 512) : List Byte := toLE 16 (fld d 256 128)

/-- The error of a request that completes with one (R79): 0x4030, the first fabric error code kept, the failure counted. -/
def requestFails (s0 : State) (c slot : Nat) (d : BitVec 512) (code : Nat) : State :=
  let cyc := coreCycle s0 c
  let s := updCore s0 c (fun x => if x.failed.map Prod.fst = some cyc then x else { x with failed := some (cyc, code % 2 ^ 16) })
  let s1 := cmdError s c 2 slot d 0x4030
  let s2 :=
    if reg s1 (coreDie c) (corePage c 3) 0x04C = 0#32 then
      setReg s1 (coreDie c) (corePage c 3) 0x04C (BitVec.ofNat 32 (code % 2 ^ 16))
    else s1
  count s2 (coreDie c) (corePage c 3) 0x03 1

/-- The position after `len` bytes of a row: the next byte, or the next row, with the command's generation finished after the last. -/
def genAdvance (e : Exec) (row byte len : Nat) : Exec :=
  let d := e.desc
  let row' := if byte + len ≥ mveBytes d then row + 1 else row
  let byte' := if byte + len ≥ mveBytes d then 0 else byte + len
  { e with gen := row' * 2 ^ 20 + byte', genDone := decide (row' ≥ mveRowCount d) }

/-- The physical core to whose scratchpad a request of a core goes by its die's crossbar (R46), if it does: its home is a Tier 0 slot of the core's
own die. None within is a slot that no core carries. -/
def byCrossbar (s : State) (c : Nat) (m : FabMsg) : Option (Option Nat) :=
  if m.dest = ownNode s then
    match homeOf m.offset with
    | .tier0 o l _ => if cpDie o = coreDie c then some (physOf s (coreDie c) l) else none
    | .hole => if homeDie m.offset = coreDie c then some none else none
    | _ => none
  else none

/-- The request that generation forms for the bytes `byte` to `byte + len - 1` of a row (R76, R343). -/
def formRequest (s : State) (c : Nat) (e : Exec) (row byte len off slot gen : Nat) : FabMsg :=
  let d := e.desc
  let op := dOpcode d
  let x := seenCore (core s c) (coreCycle s c)
  let la := ctxBase s c (dCtx d) + mveL d + row * mveLPitch d + byte
  let out := !mveInward op
  { dest := mveNode d, src := ownNode s, offset := off,
    op := if op = 0x8A then 3 else if mveInward op then 1 else 2,
    cls := mveQos d + 4 * b2n (mveWide d) + 8 * (if op = 0x8A then mveAtomicOp d else 0), len := len, job := dJob d, hops := 0,
    tag := slot + coreDie c * 2 ^ 9 + coreOnDie c * 2 ^ 16 + gen * 2 ^ 21, expiry := expiryField s (coreDie c) (expiryOf e),
    status := 0, data := if op = 0x8A then atomicData d else if out then spmRead x la len else [],
    poison := if out && op != 0x8A then spmMarks x la len else [] }

/-- The trip of a request through the crossbar (R46, R135); one to a slot that no core carries, or to a core whose clock is stopped, waits for no
port. -/
def startTrip (s : State) (c : Nat) (target : Option Nat) (m : FabMsg) : XbarTrip :=
  let g := coreCycle s c
  let n := if m.op = 3 then atomicBytes m else m.len
  match target with
  | none => { target := none, msg := m, sent := g, arrive := 0, left := 0, last := 0, due := some (g + 14), ans := none }
  | some p => { target := some p, msg := m, sent := g, arrive := coreCycle s p, left := n, last := coreCycle s p, due := none, ans := none }

/-- The planned flits of a request for another die enter the injection queue of its first hop (R146): the bytes of an outward move packed into
flits of 3,000 bytes over the whole command, and one flit for a request that carries none (DESIGN CHOICE, log entry 115). -/
def enqueueRequest (s : State) (c : Nat) (e : Exec) (m : FabMsg) (last : Bool) : State :=
  let o := firstHop s (coreDie c) m
  if m.cls % 4 ≠ 0 ∨ o = 4 then s
  else if m.op ≠ 2 then enqueueFlit s (coreDie c) o { poison := false, bytes := [] }
  else
    let bad := e.packBad || !m.poison.isEmpty
    let r := enqueueStream 3 s (coreDie c) o bad last (e.pack ++ m.data)
    updCore r.1 c (fun x => updExec x e.seq (fun q => { q with pack := r.2, packBad := bad && !r.2.isEmpty }))

/-- Sends one request of a command: a slot taken, the message formed, the counters raised (R76, R77, R343). It goes by the crossbar, by the
mesh or towards a port. A node whose slot field is 4 to 7 gets nothing and completes with 0x4012 (R35); one that cannot be reached completes with
0x4015 (R339). -/
def sendRequest (s : State) (c : Nat) (e : Exec) (row byte len off : Nat) : State :=
  let d := e.desc
  let op := dOpcode d
  let x := core s c
  let la := ctxBase s c (dCtx d) + mveL d + row * mveLPitch d + byte
  let slot := freeSlot x.reqs 512 0
  let gen := (mapGet x.reqGen slot 0 + 1) % 2 ^ 11
  let m := formRequest s c e row byte len off slot gen
  let trip := if op = 0x8C then none else (byCrossbar s c m).map (fun p => startTrip s c p m)
  let r : MveReq :=
    { slot := slot, generation := gen, seq := e.seq, laddr := la, len := len, node := mveNode d, offset := off,
      inward := mveInward op, fenceScope := if op = 0x8C then mveScope d + 1 else 0, expiry := expiryOf e, orphanAt := none, trip := trip }
  let x1 := updExec { x with genNext := coreCycle s c + 1, reqGen := mapSet x.reqGen slot gen } e.seq (fun q => genAdvance q row byte len)
  if nodeX (mveNode d) ≥ 4 ∧ op ≠ 0x8C then
    requestFails (putCore s c x1) c e.slot d 0x4012
  else if mveNode d ≠ ownNode s ∧ op ≠ 0x8C ∧ sendPort s (coreDie c) m = none then
    requestFails (putCore s c x1) c e.slot d 0x4015
  else
    let x2 := { x1 with reqs := x1.reqs ++ [r], mveHigh := max x1.mveHigh (x1.reqs.length + 1) }
    let s1 := count (putCore s c x2) (coreDie c) (corePage c 3) 0x01 1
    if op = 0x8C then s1
    else
      let s2 := if trip.isSome then s1 else enqueueRequest s1 c e m (genAdvance e row byte len).genDone
      { s2 with lastSent := some m, lastPort := if mveNode d = ownNode s then none else sendPort s (coreDie c) m }

/-- A gather or scatter row whose index word is poisoned: no request; GATHER_IN writes the local row poisoned (R84), with free bytes (log
entry 106). -/
def poisonedIndexRow (s : State) (c : Nat) (e : Exec) (row : Nat) : State :=
  let d := e.desc
  let x := core s c
  let la := ctxBase s c (dCtx d) + mveL d + row * mveLPitch d
  let x1 :=
    if dOpcode d = 0x84 then
      spmWrite x la ((upFrom 0 (mveRowBytes d)).map (fun i => BitVec.ofNat 8 (Config.freeWord 84 i s.fresh).toNat)) true
    else x
  let x2 := updExec { x1 with genNext := coreCycle s c + 1 } e.seq (fun q => { genAdvance q row 0 (mveBytes d) with poisonSeen := true })
  notePoison (putCore { s with fresh := s.fresh + 1 } c x2) c 2 e.slot d (!e.poisonSeen)

/-- Whether the next request of a command waits at its move engine: it is planned, goes by the mesh, and the injection queue of its first hop is full
(R146). -/
def planWaits (s : State) (c : Nat) (m : FabMsg) : Bool :=
  let o := firstHop s (coreDie c) m
  decide (m.cls % 4 = 0) && (byCrossbar s c m).isNone && decide (o ≠ 4) && queueFull s (coreDie c) o

/-- The MVE generates its next request (R77, R78); `met` are its meetings at the banks (R48). -/
def generateRequest (s0 : State) (c : Nat) (met : List Nat) : State :=
  let s := settle s0 c
  let x := core s c
  let cyc := coreCycle s c
  match generating x.q2 with
  | none => s
  | some e =>
    if cyc < x.genNext then s
    else if x.reqs.length ≥ 512 then
      count (putCore s c { x with genNext := cyc + 1 }) (coreDie c) (corePage c 3) 0x02 1
    else
      let d := e.desc
      let op := dOpcode d
      let row := e.gen / 2 ^ 20
      let byte := e.gen % 2 ^ 20
      if mveBytes d = 0 ∧ op ≠ 0x8C then putCore s c (updExec x e.seq (fun q => { q with genDone := true }))
      else
        let v := seenCore x cyc
        let ia := ctxBase s c (dCtx d) + mveIndexAddr d + 4 * row
        if mveIndexed op && spmPoisonedRange v ia 4 then poisonedIndexRow s c e row
        else
          let off := (rowOffset d (spmNum v ia 4) row + byte) % 2 ^ 48
          let len := if op = 0x8C then 0 else min (mveBytes d - byte) (4096 - off % 4096)
          if mveIndexed op && !protPermits s (coreDie c) (dJob d) (mveNode d) off (off + len - 1) (mveNeed op) (mveQos d) then
            cmdError (putCore s c (updExec { x with genNext := cyc + 1 } e.seq (fun q => { q with genDone := true }))) c 2 e.slot d 0x8020
          else if op ≠ 0x8C ∧ planWaits s c (formRequest s c e row byte len off 0 0) then s
          else
            let dl := bankDelay x 3 met
            let u := sendRequest s c e row byte len off
            if dl = 0 then u else updCore (countDelay u c dl) c (fun y => { y with genNext := y.genNext + dl })

/-- The command in execution of the MVE with a sequence number. -/
def execBySeq (x : CoreSt) (seq : Nat) : Option Exec :=
  match x.q2.exec.filter (fun e => decide (e.seq = seq)) with
  | [] => none
  | e :: _ => some e

/-- The core without the request in a slot. -/
def dropReq (x : CoreSt) (slot : Nat) : CoreSt := { x with reqs := x.reqs.filter (fun r => decide (r.slot ≠ slot)) }

/-- A completion applied to its request (R79, R343, R350): an error leaves the local bytes of an inward move unchanged. -/
def completeRequest (s : State) (c : Nat) (r : MveReq) (p : Resp) : State :=
  let x := dropReq (core s c) r.slot
  let x1 := if p.err = 0 ∧ r.inward then spmStore x r.laddr (p.data.take r.len) p.poison else x
  let s1 := putCore s c x1
  let s2 := if p.late then count s1 (coreDie c) (corePage c 3) 0x04 1 else s1
  if p.err = 0 then s2
  else
    match execBySeq (core s c) r.seq with
    | none => s2
    | some e => requestFails s2 c e.slot e.desc p.err

/-- A response of an outstanding request (R343, R350): one for an orphaned slot is discarded and counted and frees the slot. -/
def applyResponse (s : State) (c : Nat) (r : MveReq) (p : Resp) : State :=
  match r.orphanAt with
  | some _ => count (updCore s c (fun x => dropReq x r.slot)) (coreDie c) (corePage c 3) 0x07 1
  | none => completeRequest (settle s c) c r p

/-- Whether a response that comes now comes in or after the cycle in which its request's deadline expires (R350). -/
def isLate (s : State) (c : Nat) (r : MveReq) : Bool := decide (coreCycle s c ≥ clkCycleUp (core s c).clk r.expiry)

/-- A response that arrives at its requester's slot (R343): one whose generation does not match is discarded. -/
def takeResponse (s : State) (c slot : Nat) (p : Resp) : State :=
  match (core s c).reqs.filter (fun r =>
    decide (r.slot = slot) && decide (r.generation = p.generation) && decide (r.fenceScope = 0) && r.trip.isNone) with
  | [] => s
  | r :: _ => applyResponse s c r p

/-- Whether a request's home lies in a fence's scope (R353). -/
def inScope (s : State) (c scope : Nat) (r : MveReq) : Bool :=
  match scope with
  | 0 => decide (r.node = ownNode s) && decide (homeDie r.offset = coreDie c)
  | 1 => decide (r.node = ownNode s)
  | _ => true

/-- FENCE_COMPLETE (R353): the fence completes once no earlier request in its scope is outstanding; the core cycles that it waited are counted. -/
def execFenceComplete (t : Time) (c : PhysCore) (s : State) : Host.Outcome State Fault Refusal :=
  let s1 := advance s t
  let x := core s1 c.val
  match x.reqs.filter (fun r => decide (r.fenceScope ≠ 0)) with
  | [] => .next s1
  | f :: _ =>
    if x.reqs.any (fun r =>
        decide (r.fenceScope = 0) && decide (r.seq < f.seq) && r.orphanAt.isNone && inScope s1 c.val (f.fenceScope - 1) r) then .next s1
    else
      let from_ := match execBySeq x f.seq with
        | none => s1.now
        | some e => e.issuedAt
      let waited := (s1.now - from_) * x.clk.mhz / 10000
      .next (count (putCore s1 c.val (dropReq x f.slot)) (coreDie c.val) (corePage c.val 3) 0x08 waited)

/-- The requests of a core whose deadline has passed complete with 0x4014 and leave their slots orphaned (R349). -/
def expireRequests (s : State) (c : Nat) : State :=
  let due := (core s c).reqs.filter (fun r => r.orphanAt.isNone && decide (r.fenceScope = 0) && decide (r.expiry ≤ s.now))
  foldState (fun u r =>
    let u1 := count (updCore u c (fun x =>
      { x with reqs := x.reqs.map (fun q => if q.slot = r.slot then { q with orphanAt := some u.now } else q) }))
      (coreDie c) (corePage c 3) 0x06 1
    match execBySeq (core u c) r.seq with
    | none => u1
    | some e => requestFails u1 c e.slot e.desc 0x4014) s due

/-- REQUEST_DEADLINE_EXPIRY (R349). -/
def execRequestDeadlineExpiry (t : Time) (c : PhysCore) (s : State) : Host.Outcome State Fault Refusal :=
  .next (expireRequests (advance s t) c.val)

/-- ORPHAN_SLOT_RELEASE (R349): an orphaned slot is freed 65,536 reference ticks after expiry. -/
def execOrphanSlotRelease (t : Time) (c : PhysCore) (slot : Fin 512) (s : State) : Host.Outcome State Fault Refusal :=
  let s1 := advance s t
  .next (updCore s1 c.val (fun x =>
    { x with reqs := x.reqs.filter (fun r =>
        !(decide (r.slot = slot.val) && r.orphanAt.isSome && decide (r.expiry + 65536 * 64 ≤ s1.now))) }))

/-- Whether an MVE command in execution is done (R62, R79): every request generated and none outstanding but orphaned ones. -/
def mveDone (x : CoreSt) (cyc : Nat) (e : Exec) : Bool :=
  e.genDone && decide (cyc ≥ e.retire) && !x.reqs.any (fun r => decide (r.seq = e.seq) && r.orphanAt.isNone)

/-- MVE_OUTSTANDING as it reads (R88). -/
def mveOutstanding (x : CoreSt) : Word := BitVec.ofNat 32 (x.reqs.length + x.mveHigh * 2 ^ 16)

end Sys2Proof.Machine
end

