-- ==== Sys2Proof/Machine/Mxe.lean ====
section
/-!
DEFINITION. Sys2Proof/Machine/Mxe.lean: the matrix engine (R67 to R72, R81, R84, R107): MMA, ACC_STORE, ACC_ZERO, NOP.
-/
namespace Sys2Proof.Machine

/-- M of an MXE command. -/
def mxeM (d : BitVec 512) : Nat := df d 6 16 7 + 1
/-- N of an MXE command. -/
def mxeN (d : BitVec 512) : Nat := df d 6 23 6 + 1
/-- K of an MMA. -/
def mmaK (d : BitVec 512) : Nat := df d 6 0 16
/-- ACC_SEL of an MXE command. -/
def accSel (d : BitVec 512) : Bool := tbit d (32 * 6 + 30)
/-- The active rows of an MXE command. -/
def mxeRows (d : BitVec 512) : List Nat := activeList (rowActive d) (mxeM d)
/-- The active columns of an MXE command. -/
def mxeCols (d : BitVec 512) : List Nat := activeList (colActive d 1) (mxeN d)

/-- The A operand of an MMA, at context-relative addresses (R56). -/
def mmaA (d : BitVec 512) : Tile :=
  { base := df d 2 0 25, pitch := df d 7 0 16 * 64, fmt := df d 2 25 4, sc := df d 2 29 2, scBase := df d 4 0 25, cols := mmaK d }

/-- The B operand of an MMA: one row per output column. -/
def mmaB (d : BitVec 512) : Tile :=
  { base := df d 3 0 25, pitch := df d 7 16 16 * 64, fmt := df d 3 25 4, sc := df d 3 29 2, scBase := df d 5 0 25, cols := mmaK d }

/-- A tile at absolute scratchpad addresses (R49). -/
def tileAt (t : Tile) (base : Nat) : Tile := { t with base := t.base + base, scBase := t.scBase + base }

/-- Quarter cycles per K element of a format (R69). -/
def rateQ (f : Nat) : Nat :=
  match f with
  | 0 => 32
  | 1 => 8
  | 2 => 8
  | 7 => 2
  | 9 => 2
  | 11 => 2
  | 10 => 1
  | _ => 4

/-- Whether a command is an MXE opcode (R69 to R72). -/
def isMxeOp (op : Nat) : Bool := decide (op = 0x00) || decide (op = 0x01) || decide (op = 0x02) || decide (op = 0x3F)

/-- The fields an MXE command uses beyond W0 and W1; column masks use bits [63:0] (R66), and an ACC_ZERO may carry masks, which do nothing (R67). The address
of a scale array is taken as unused with scale mode 0, and BIAS_ADDR with BIAS_EN 0 (DESIGN CHOICE, log entry 117). -/
def mxeFields (d : BitVec 512) : List (Nat × Nat × Nat) :=
  let cm := [(12, 0, 32), (13, 0, 32)]
  match dOpcode d with
  | 0x00 =>
    [(2, 0, 31), (3, 0, 31), (6, 0, 31), (7, 0, 32)] ++ (if df d 2 29 2 = 0 then [] else [(4, 0, 25)])
      ++ (if df d 3 29 2 = 0 then [] else [(5, 0, 25)]) ++ rowMaskFields ++ cm
  | 0x01 =>
    [(2, 0, 32), (4, 0, 32), (6, 0, 29), (6, 30, 1), (7, 25, 1)]
      ++ (if tbit d (64 + 31) then [(3, 0, 25), (5, 0, 24), (7, 0, 25)]
          else (if df d 2 29 2 = 0 then [] else [(3, 0, 25)]) ++ (if tbit d (7 * 32 + 25) then [(7, 0, 25)] else []))
      ++ rowMaskFields ++ cm
  | 0x02 => [(6, 30, 1)] ++ rowMaskFields ++ cm
  | _ => []

/-- The encoding, format and alignment fault of an MXE command, in the order of R59 (R53, R54, R69, R71, R539). -/
def mxeCoded (d : BitVec 512) : Nat :=
  let op := dOpcode d
  let a := mmaA d
  let b := mmaB d
  let cf := df d 2 25 4
  let cs := df d 2 29 2
  let paged := tbit d (64 + 31)
  let bias := tbit d (7 * 32 + 25)
  firstFailing
    [(!isMxeOp op, 0x1020),
     (!restZero d (mxeFields d), 0x1020),
     (decide (op = 0) && decide (mmaK d = 0), 0x1020),
     (decide (op = 1) && paged && bias, 0x1020),
     (decide (op = 0) && !(fmtKnown a.fmt && fmtKnown b.fmt && scaleAllowed a.fmt a.sc && scaleAllowed b.fmt b.sc), 0x2020),
     (decide (op = 0) && decide ((a.fmt = 0) ≠ (b.fmt = 0)), 0x2020),
     (decide (op = 1) && !(fmtKnown cf && scaleAllowed cf cs), 0x2020),
     (decide (op = 0) && decide (a.base % 64 ≠ 0 ∨ b.base % 64 ≠ 0 ∨ (a.sc ≠ 0 ∧ a.scBase % 64 ≠ 0) ∨ (b.sc ≠ 0 ∧ b.scBase % 64 ≠ 0)),
      0x3023),
     (decide (op = 1) && decide (df d 2 0 25 % 64 ≠ 0), 0x3023),
     (decide (op = 1) && !paged && decide (cs ≠ 0 ∧ df d 3 0 25 % 64 ≠ 0), 0x3023),
     (decide (op = 1) && (paged || bias) && decide (df d 7 0 25 % 4 ≠ 0), 0x3023)]

/-- The C operand of an ACC_STORE that is not paged. -/
def storeC (d : BitVec 512) : Tile :=
  { base := df d 2 0 25, pitch := df d 6 0 16 * 64, fmt := df d 2 25 4, sc := df d 2 29 2, scBase := df d 3 0 25, cols := mxeN d }

/-- Whether an ACC_STORE is PAGED. -/
def storePaged (d : BitVec 512) : Bool := tbit d (64 + 31)

/-- The scratchpad ranges of an MXE command (R63, R66, R72). -/
def mxeRanges (d : BitVec 512) : List Rng :=
  let rows := mxeRows d
  let cols := mxeCols d
  match dOpcode d with
  | 0x00 =>
    tileRng (mmaA d) rows false ++ tileRng (mmaB d) cols false ++ tileScaleRng (mmaA d) rows false
      ++ tileScaleRng (mmaB d) cols false
  | 0x01 =>
    if storePaged d then
      (match ends rows with
       | none => []
       | some (a, z) =>
         (if df d 3 0 25 = 0 then [] else [({ lo := df d 2 0 25, hi := df d 2 0 25 + df d 3 0 25 - 1, write := true } : Rng)])
         ++ [{ lo := df d 7 0 25 + 4 * ((df d 5 0 24 + a) / 256), hi := df d 7 0 25 + 4 * ((df d 5 0 24 + z) / 256) + 3,
               write := false }])
    else
      tileRng (storeC d) rows true ++ tileScaleRng (storeC d) rows true
        ++ (if tbit d (7 * 32 + 25) then
              (match ends cols with
               | none => []
               | some (a, z) => [{ lo := df d 7 0 25 + 4 * a, hi := df d 7 0 25 + 4 * z + 3, write := false }])
            else [])
  | _ => []

/-- Occupancy of an MXE command (R81). -/
def mxeOcc (d : BitVec 512) : Nat :=
  match dOpcode d with
  | 0x00 => ceilDiv (mmaK d * max (rateQ (df d 2 25 4)) (rateQ (df d 3 25 4))) 4
  | 0x01 => max 1 (ceilDiv (mxeM d * mxeN d * fmtByteUp (df d 2 25 4)) 2048)
  | _ => 1

/-- Pipeline term of an MXE command (R81). -/
def mxePipe (d : BitVec 512) : Nat :=
  match dOpcode d with
  | 0x00 => 12
  | 0x01 => if storePaged d then 14 else 10
  | _ => 0

/-- Whether the MXE accepts a command (R70, R81, R538). A command that is not the MXE's waits on occupancy alone. -/
def mxeReady (s : State) (c : Nat) (d : BitVec 512) : Bool :=
  let x := core s c
  let cyc := coreCycle s c
  let op := dOpcode d
  let me := if accSel d then x.mmaEnd1 else x.mmaEnd0
  let se := if accSel d then x.storeEnd1 else x.storeEnd0
  decide (cyc ≥ x.q0.freeAt) && (mapFind s.softWait (pageKey (coreDie c) (corePage c 1))).isNone
    && (!(decide (op = 1) || decide (op = 2)) || decide (cyc ≥ me))
    && (!(decide (op = 0) || decide (op = 2)) || decide (cyc ≥ se))

/-! ## The accumulator sets -/

/-- Accumulator set 0 or 1. -/
def accOf (x : CoreSt) (sel : Bool) : Map Word := if sel then x.acc1 else x.acc0

/-- Element (r, n) of an accumulator set. -/
def accGet (x : CoreSt) (sel : Bool) (r n : Nat) : Word := mapGet (accOf x sel) (r * 64 + n) 0#32

/-- The core with an accumulator element replaced. -/
def accPut (x : CoreSt) (sel : Bool) (r n : Nat) (v : Word) : CoreSt :=
  if sel then { x with acc1 := mapPut 0#32 x.acc1 (r * 64 + n) v } else { x with acc0 := mapPut 0#32 x.acc0 (r * 64 + n) v }

/-- Whether an accumulator set is poisoned (R84). -/
def accPoisoned (x : CoreSt) (sel : Bool) : Bool := if sel then x.accP1 else x.accP0

/-- The core with a set's poison replaced. -/
def accMark (x : CoreSt) (sel p : Bool) : CoreSt := if sel then { x with accP1 := p } else { x with accP0 := p }

/-- A whole set made +0 and clean (R67). -/
def accZero (x : CoreSt) (sel : Bool) : CoreSt :=
  if sel then { x with acc1 := [], accP1 := false } else { x with acc0 := [], accP0 := false }

/-- The exact sum of the products of elements `i`, `i + 1`, … of two rows (R107). -/
def groupSum (x : CoreSt) (a b : Tile) (r n : Nat) (l : List Nat) (acc : Val) : Val :=
  match l with
  | [] => acc
  | i :: q => groupSum x a b r n q (vAdd acc (vMul (tileElem x a r i) (tileElem x b n i)))

/-- An accumulator element after the groups of K from element `i` on (R107): each group's sum rounded once, multiplied by the two
scales and rounded once, and added and rounded once. -/
def mmaGroups (x : CoreSt) (a b : Tile) (r n g k : Nat) (fuel i : Nat) (acc : Word) : Word :=
  match fuel with
  | 0 => acc
  | q + 1 =>
    if i ≥ k then acc
    else
      let sum := f32ofVal (groupSum x a b r n (upFrom i (min g (k - i))) (.fin false 0 0))
      let part := f32ofVal (vMul (f32dec sum) (vMul (tileScale x a r i) (tileScale x b n i)))
      mmaGroups x a b r n g k q (i + g) (f32add acc part)

/-- The group length of an MMA (R107). -/
def mmaGroup (d : BitVec 512) : Nat := if df d 2 29 2 = 2 ∨ df d 3 29 2 = 2 then 16 else 32

/-- The row of one active row of A times every active column of B. -/
def mmaRow (d : BitVec 512) (src : CoreSt) (a b : Tile) (r : Nat) (x : CoreSt) : CoreSt :=
  foldState (fun y n =>
    accPut y (accSel d) r n (mmaGroups src a b r n (mmaGroup d) (mmaK d) (mmaK d + 1) 0 (accGet y (accSel d) r n))) x (mxeCols d)

/-- The data effect of an MMA on a core, with its operands read from `src` (R67, R84, R107). -/
def mmaCore (d : BitVec 512) (base : Nat) (src x : CoreSt) : CoreSt :=
  let a := tileAt (mmaA d) base
  let b := tileAt (mmaB d) base
  let ks := upFrom 0 (mmaK d)
  let p := (mxeRows d).any (fun r => tileRowPoisoned src a r ks) || (mxeCols d).any (fun n => tileRowPoisoned src b n ks)
  let x1 := if tbit d (6 * 32 + 29) then accZero x (accSel d) else x
  let x2 := foldState (fun y r => mmaRow d src a b r y) x1 (mxeRows d)
  if p then accMark x2 (accSel d) true else x2

/-- Whether an MMA reads poison (R84). -/
def mmaReadsPoison (d : BitVec 512) (base : Nat) (x : CoreSt) : Bool :=
  let ks := upFrom 0 (mmaK d)
  (mxeRows d).any (fun r => tileRowPoisoned x (tileAt (mmaA d) base) r ks)
    || (mxeCols d).any (fun n => tileRowPoisoned x (tileAt (mmaB d) base) n ks)

/-- The invalid TRN bytes an MMA reads (R95, R103). -/
def mmaBadTrits (d : BitVec 512) (base : Nat) (x : CoreSt) : Nat :=
  let ks := upFrom 0 (mmaK d)
  foldState (fun k r => k + badTritBytes x (tileAt (mmaA d) base) r ks) 0 (mxeRows d)
    + foldState (fun k n => k + badTritBytes x (tileAt (mmaB d) base) n ks) 0 (mxeCols d)

/-- Busy cycles, each counted in its own cycle, and command counts of the MXE page (R89). -/
def mxeCount (s : State) (c : Nat) (d : BitVec 512) (occ : Nat) : State :=
  let s1 := accrue s (coreDie c) (corePage c 1) 0x01 (coreCycle s c) occ
  match dOpcode d with
  | 0x00 => count s1 (coreDie c) (corePage c 1) 0x02 1
  | 0x01 => count s1 (coreDie c) (corePage c 1) 0x03 1
  | _ => s1

/-- An MXE command put into execution with R70's interlock noted; delays at the banks lengthen its occupancy (R48). -/
def mxeStart (s0 : State) (c : Nat) (ecc : Ecc) (ent : QEntry) (l : List Rng) : State :=
  let d := ent.desc
  let dl := bankDelay (core s0 c) 1 ecc.met
  let s := countDelay (applyEcc s0 c ecc) c dl
  let s1 := mxeCount (startExec s c 0 ent l (mxeOcc d + dl) (2 + mxePipe d + mxeOcc d + dl) 0) c d (mxeOcc d + dl)
  let nxt := (core s1 c).q0.lastRetire + 1
  match dOpcode d with
  | 0x00 => updCore s1 c (fun x => if accSel d then { x with mmaEnd1 := nxt } else { x with mmaEnd0 := nxt })
  | 0x01 => updCore s1 c (fun x => if accSel d then { x with storeEnd1 := nxt } else { x with storeEnd0 := nxt })
  | _ => s1

/-- MMA at issue, read and added up wholly in the issue cycle (log entry 81). -/
def issueMma (s : State) (c : Nat) (ecc : Ecc) (ent : QEntry) (l : List Rng) : State :=
  let d := ent.desc
  let s1 := mxeStart s c ecc ent l
  let x := seenCore (core s1 c) (coreCycle s1 c)
  let base := ctxBase s1 c (dCtx d)
  let s2 := putCore s1 c (mmaCore d base x (core s1 c))
  let s3 := reportEvents s2 (coreDie c) (corePage c 1) (cmdInfo d 0 ent.slot) (List.replicate (mmaBadTrits d base x) .badTrit)
  notePoison s3 c 0 ent.slot d (mmaReadsPoison d base x)

/-- ACC_ZERO at issue (R67). -/
def issueAccZero (s : State) (c : Nat) (ecc : Ecc) (ent : QEntry) (l : List Rng) : State :=
  updCore (mxeStart s c ecc ent l) c (fun x => accZero x (accSel ent.desc))

/-! ## ACC_STORE (R71, R72) -/

/-- The value of accumulator element (r, n) that ACC_STORE converts: × OUT_MUL, + bias (R71, R108). -/
def storeValue (d : BitVec 512) (base : Nat) (x : CoreSt) (r n : Nat) : Word :=
  let v := f32mul (accGet x (accSel d) r n) (dw d 4)
  if tbit d (7 * 32 + 25) then f32add v (BitVec.ofNat 32 (spmNum x (base + df d 7 0 25 + 4 * n) 4)) else v

/-- A row that ACC_STORE converts; `none` marks an inactive column. -/
def storeRow (d : BitVec 512) (base : Nat) (x : CoreSt) (r : Nat) : RowOut :=
  convRow (df d 2 25 4) (df d 2 29 2) .nearestEven true
    ((upFrom 0 (mxeN d)).map (fun n => if colActive d 1 n then some (f32dec (storeValue d base x r n)) else none))

/-- Whether any bias word a store reads is poisoned (R71). -/
def biasPoisoned (d : BitVec 512) (base : Nat) (x : CoreSt) : Bool :=
  tbit d (7 * 32 + 25) && (mxeCols d).any (fun n => spmPoisonedRange x (base + df d 7 0 25 + 4 * n) 4)

/-- What a paged store does with a row (R72). -/
inductive PagedRow where
  | dropped (poisonedEntry : Bool)
  | at (elems scales : Nat)
deriving DecidableEq, Repr

/-- The destination of row `r` of a paged store (R72), at absolute addresses. -/
def pagedRow (d : BitVec 512) (base bound : Nat) (x : CoreSt) (r : Nat) : PagedRow :=
  let t := storeC d
  let p := df d 5 0 24 + r
  let pa := base + df d 7 0 25 + 4 * (p / 256)
  let pte := spmNum x pa 4
  if spmPoisonedRange x pa 4 then .dropped true
  else if pte / 2 ^ 31 % 2 = 0 then .dropped false
  else
    let page := pte % 2 ^ 17 * 256
    let dst := page + p % 256 * t.pitch
    let dend := dst + roundUp (rowBytes t.fmt t.cols) 64
    let sp := scalePitch t.sc t.cols
    let sdst := page + 256 * t.pitch + p % 256 * sp
    let send := sdst + roundUp (blocksPerRow t.sc t.cols * scaleBytes t.sc) 64
    let lo := df d 2 0 25
    let hi := lo + df d 3 0 25
    if dst < lo ∨ dend > hi ∨ base + dend > bound then .dropped false
    else if t.sc ≠ 0 ∧ (sdst < lo ∨ send > hi ∨ base + send > bound) then .dropped false
    else .at (base + dst) (base + sdst)

/-- The core after one row of a paged store. -/
def storePagedRow (d : BitVec 512) (base bound : Nat) (src : CoreSt) (p : Bool) (y : CoreSt) (r : Nat) : CoreSt :=
  match pagedRow d base bound src r with
  | .dropped _ => y
  | .at e sa =>
    let o := storeRow d base src r
    let y1 := writeCodes y (df d 2 25 4) e o.codes p
    if df d 2 29 2 = 0 then y1 else spmWriteMask y1 sa (scaleRowBytes (df d 2 29 2) o.scales) p

/-- Whether a paged store writes row `r`. -/
def rowStored (d : BitVec 512) (base bound : Nat) (x : CoreSt) (r : Nat) : Bool :=
  if storePaged d then
    (match pagedRow d base bound x r with
     | .dropped _ => false
     | .at _ _ => true)
  else true

/-- Whether a paged store reads a poisoned page table entry for row `r`. -/
def entryPoisoned (d : BitVec 512) (base bound : Nat) (x : CoreSt) (r : Nat) : Bool :=
  storePaged d && (match pagedRow d base bound x r with
   | .dropped b => b
   | .at _ _ => false)

/-- ACC_STORE at issue (R67, R71, R72, R84). Of an engine command the spec fixes issue and retirement; here it reads its operands, writes its results and
records 0x3022 and 0x3024 wholly in the issue cycle (DESIGN CHOICE, log entry 81). -/
def issueAccStore (s : State) (c : Nat) (ecc : Ecc) (ent : QEntry) (l : List Rng) : State :=
  let d := ent.desc
  let s1 := mxeStart s c ecc ent l
  let x := seenCore (core s1 c) (coreCycle s1 c)
  let base := ctxBase s1 c (dCtx d)
  let bound := ctxBound s1 c (dCtx d)
  let rows := mxeRows d
  let p := accPoisoned x (accSel d) || biasPoisoned d base x
  let stored := rows.filter (rowStored d base bound x)
  let y :=
    if storePaged d then foldState (storePagedRow d base bound x p) (core s1 c) rows
    else foldState (fun y r => writeRowOut y (tileAt (storeC d) base) r (storeRow d base x r) p) (core s1 c) rows
  let s2 := putCore s1 c y
  let s3 := reportEvents s2 (coreDie c) (corePage c 1) (cmdInfo d 0 ent.slot)
    ((stored.map (fun r => inColumns (storeRow d base x r).events)).flatten)
  let s4 := foldState (fun u r => if rowStored d base bound x r then u else cmdError u c 0 ent.slot d 0x3022) s3 rows
  notePoison s4 c 0 ent.slot d (p || rows.any (entryPoisoned d base bound x))

/-- Evaluates the head of the MXE queue for the row of an opcode; MMA's row also takes heads that are no MXE command (R57, R82). -/
def evalMxe (s : State) (t : Time) (c op : Nat) (ecc : Ecc) (issue : State → QEntry → List Rng → State) :
    Host.Outcome State Fault Refusal :=
  .next (evalHead (advance s t) c 0 ecc
    (fun d => decide (dOpcode d = op) || (decide (op = 0) && !isMxeOp (dOpcode d)))
    (fun u d => mxeReady u c d) mxeCoded (fun _ d => mxeRanges d) (fun _ _ => false) issue)

/-- MMA (R67, R69, R84, R107). -/
def execMma (t : Time) (c : PhysCore) (ecc : Ecc) (s : State) : Host.Outcome State Fault Refusal :=
  evalMxe s t c.val 0x00 ecc (fun u ent l => issueMma u c.val ecc ent l)

/-- ACC_STORE (R71, R72). -/
def execAccStore (t : Time) (c : PhysCore) (ecc : Ecc) (s : State) : Host.Outcome State Fault Refusal :=
  evalMxe s t c.val 0x01 ecc (fun u ent l => issueAccStore u c.val ecc ent l)

/-- ACC_ZERO (R67). -/
def execAccZero (t : Time) (c : PhysCore) (ecc : Ecc) (s : State) : Host.Outcome State Fault Refusal :=
  evalMxe s t c.val 0x02 ecc (fun u ent l => issueAccZero u c.val ecc ent l)

/-- The MXE's NOP (R81). -/
def execMxeNop (t : Time) (c : PhysCore) (ecc : Ecc) (s : State) : Host.Outcome State Fault Refusal :=
  evalMxe s t c.val 0x3F ecc (fun u ent l => mxeStart u c.val ecc ent l)

/-- MXE_STATUS as it reads (R88): sets awaiting an MMA, a store in execution, poisoned sets. -/
def mxeStatus (s : State) (c : Nat) : Word :=
  let x := core s c
  let cyc := coreCycle s c
  BitVec.ofNat 32 (b2n (decide (cyc < x.mmaEnd0)) + 2 * b2n (decide (cyc < x.mmaEnd1))
    + 4 * b2n (decide (cyc < x.storeEnd0 ∨ cyc < x.storeEnd1)) + 8 * b2n x.accP0 + 16 * b2n x.accP1)

end Sys2Proof.Machine
end

