-- ==== Sys2Proof/Machine/HalfRate.lean ====
section
/-!
DEFINITION. Sys2Proof/Machine/HalfRate.lean: the half-rate VXE functions (R73). R108 bounds their results and no rule states them: the
result is a free value wherever it lies within the bound of R108, and the rounded function value otherwise (log entry 5).
The bound is tested against a value of the function kept to 2^−100 or better.
-/
namespace Sys2Proof.Machine

/-- A real number held as a fraction: numerator and positive denominator. -/
structure Frac where
  num : Int
  den : Nat
deriving DecidableEq, Repr

/-- ln 2 in units of 2^−128. -/
def ln2Fix : Int := 235865763225513294137944142764154484399

/-- √(2/π) in units of 2^−128. -/
def sqrt2PiFix : Int := 271506046879672464325182014351570923903

/-- 0.044715 in units of 2^−128. -/
def geluFix : Int := 15215726036869763393764795571311515575

/-- The value of m × 2^e in units of 2^−128, rounded down. -/
def toFix (s : Bool) (m : Nat) (e : Int) : Int :=
  let z : Int := if s then -(m : Int) else (m : Int)
  if 0 ≤ e + 128 then z * (pow2 (e + 128) : Nat) else z / (pow2 (-(e + 128)) : Nat)

/-- The Taylor series of exp from term `n` on, in units of 2^−128. -/
def expSeries (fuel : Nat) (n : Nat) (r term : Int) : Int :=
  match fuel with
  | 0 => 0
  | k + 1 => term + expSeries k (n + 1) r (term * r / 2 ^ 128 / ((n : Int) + 1))

/-- exp of a number in units of 2^−128. -/
def expFix (x : Int) : Frac :=
  let k := x / ln2Fix
  let m := expSeries 40 0 (x - k * ln2Fix) (2 ^ 128)
  if 0 ≤ k then { num := m * (pow2 k : Nat), den := 2 ^ 128 } else { num := m, den := 2 ^ 128 * pow2 (-k) }

/-- x / (1 + exp(−y)) for numbers in units of 2^−128. -/
def sigmoidTimes (x y : Int) : Frac :=
  let e := expFix (-y)
  { num := x * (e.den : Int), den := 2 ^ 128 * (e.den + e.num.toNat) }

/-- The function of a half-rate opcode at a finite number (R73); none where its value is not a finite real number or lies past the FP32
range. -/
def halfRateReal (op : Nat) (s : Bool) (m : Nat) (e : Int) : Option Frac :=
  let x := toFix s m e
  match op with
  | 0x50 => if x > 90 * 2 ^ 128 then none else if x < -(200 * 2 ^ 128) then some { num := 0, den := 1 } else some (expFix x)
  | 0x51 =>
    if m = 0 then none
    else
      let z : Int := if s then -1 else 1
      if 0 ≤ e then some { num := z, den := m * pow2 e } else some { num := z * (pow2 (-e) : Nat), den := m }
  | 0x52 =>
    if m = 0 ∨ s then none
    else
      -- the square root of 1 / (m × 2^e), from the whole square root of 2^(2q) / m
      let h : Int := e / 2
      let m2 := m * 2 ^ (e % 2).toNat
      let r := isqrtFrom (2 ^ 256 / m2) 140 0
      if 0 ≤ h then some { num := r, den := 2 ^ 128 * pow2 h } else some { num := (r * pow2 (-h) : Nat), den := 2 ^ 128 }
  | 0x53 =>
    if x > 100 * 2 ^ 128 then some { num := 1, den := 1 }
    else if x < -(100 * 2 ^ 128) then some { num := -1, den := 1 }
    else
      let y := expFix (2 * x)
      some { num := y.num - (y.den : Int), den := y.num.toNat + y.den }
  | 0x54 => if x < -(200 * 2 ^ 128) then some { num := 0, den := 1 } else some (sigmoidTimes x (min x (200 * 2 ^ 128)))
  | _ =>
    let c := 2 ^ 128
    let y := 2 * sqrt2PiFix * (x + geluFix * (x * x / c * x / c) / c) / c
    if y < -(200 * 2 ^ 128) then some { num := 0, den := 1 } else some (sigmoidTimes x (min y (200 * 2 ^ 128)))

/-- Whether a finite FP32 number lies within `ulps` ulp of a real number, or within 2^−22 of it where that is larger and allowed
(R108). -/
def withinBound (ulps : Nat) (wide : Bool) (f : Frac) (w : Word) : Bool :=
  match f32dec w with
  | .fin s m e =>
    let y : Int := (if s then -(m : Int) else (m : Int)) * (pow2 (e + 160) : Nat)
    let u : Int := if f.num = 0 then -149 else max (-149) (ratLog2 f.num.natAbs f.den 0 - 23)
    let t := ulps * pow2 (u + 160)
    let tol := if wide then max t (2 ^ 138) else t
    decide ((y * (f.den : Int) - f.num * 2 ^ 160).natAbs ≤ tol * f.den)
  | _ => false

/-- The result of a half-rate function (R73, R108). EXP of a number below −200, such as a score near −2^100, is exactly 0 (R202, R205, log
entry 5). -/
def halfRate (op : Nat) (w : Word) : Word :=
  let y := Config.halfRate op w
  match f32dec w with
  | .fin s m e =>
    match halfRateReal op s m e with
    | none => y
    | some f =>
      if op = 0x50 ∧ f.num = 0 then 0#32 else
      let exact := f32ofRat .nearestEven (decide (f.num < 0)) f.num.natAbs f.den 0
      if f32dec exact = .inf (decide (f.num < 0)) then y
      else if withinBound (if op < 0x53 then 2 else 4) (decide (op ≥ 0x53)) f y then y
      else exact
  | _ => y

end Sys2Proof.Machine
end

