-- ==== Sys2Proof/Machine/Vxe.lean ====
section
/-!
DEFINITION. Sys2Proof/Machine/Vxe.lean: the vector engine (R66 to R68, R73 to R75, R81, R84, R262, R540, R541).
-/
namespace Sys2Proof.Machine

/-- ROWS of a VXE command. -/
def vxeR (d : BitVec 512) : Nat := df d 6 0 7 + 1
/-- COLS of a VXE command. -/
def vxeC (d : BitVec 512) : Nat := df d 6 7 13 + 1
/-- Columns to a mask bit: 2^COL_GRAN (R66). -/
def vxeG (d : BitVec 512) : Nat := 2 ^ df d 6 20 3
/-- IMM of a VXE command. -/
def vxeImm (d : BitVec 512) : Word := dw d 5
/-- The active rows of a VXE command. -/
def vxeRows (d : BitVec 512) : List Nat := activeList (rowActive d) (vxeR d)
/-- The active columns of a VXE command. -/
def vxeCols (d : BitVec 512) : List Nat := activeList (colActive d (vxeG d)) (vxeC d)

/-- Whether an opcode is a VXE opcode (R73). -/
def isVxeOp (op : Nat) : Bool :=
  [0x40, 0x41, 0x42, 0x43, 0x44, 0x45, 0x46, 0x48, 0x50, 0x51, 0x52, 0x53, 0x54, 0x55, 0x58, 0x59, 0x5A, 0x5B, 0x5C, 0x60, 0x61,
    0x62, 0x63, 0x7F].contains op

/-- Whether an opcode has an S1 operand (R540). -/
def vxeBinary (op : Nat) : Bool := (decide (0x40 ≤ op) && decide (op ≤ 0x45)) || decide (op = 0x61) || decide (op = 0x63)

/-- Whether an opcode gives IMM a use (R540). -/
def vxeUsesImm (op : Nat) : Bool := [0x46, 0x48, 0x60, 0x61, 0x63].contains op

/-- S0_BCAST. -/
def s0Bcast (d : BitVec 512) : Bool := tbit d (64 + 31)
/-- S1_BCAST. -/
def s1Bcast (d : BitVec 512) : Bool := tbit d (96 + 31)

/-- A VXE operand from its address word, with the rows and columns that R540's table gives it; its scales follow those rows, of a broadcast operand
too (R56, R540). -/
def vxeTile (d : BitVec 512) (k pitch stored cols : Nat) : Tile :=
  { base := df d k 0 25, pitch := pitch, fmt := df d k 25 4, sc := df d k 29 2, scBase := df d k 0 25 + stored * pitch, cols := cols }

/-- The S0 operand by its shape (R540). -/
def vxeS0 (d : BitVec 512) : Tile :=
  let p := df d 7 0 16 * 64
  match dOpcode d with
  | 0x61 => vxeTile d 2 p (vxeImm d).toNat (vxeC d)
  | 0x62 => vxeTile d 2 p (vxeR d) 3
  | _ => vxeTile d 2 p (vxeR d) (vxeC d)

/-- The S1 operand by its shape (R540). -/
def vxeS1 (d : BitVec 512) : Tile :=
  let p := df d 7 0 16 * 64
  match dOpcode d with
  | 0x61 => vxeTile d 3 p 1 (vxeR d)
  | 0x63 => vxeTile d 3 p (vxeR d) (vxeImm d).toNat
  | _ => vxeTile d 3 p (vxeR d) (vxeC d)

/-- The D operand by its shape (R540). -/
def vxeD (d : BitVec 512) : Tile :=
  let p := df d 7 16 16 * 64
  match dOpcode d with
  | 0x58 => vxeTile d 4 p (vxeR d) 1
  | 0x59 => vxeTile d 4 p (vxeR d) 1
  | 0x5A => vxeTile d 4 p (vxeR d) 1
  | 0x5C => vxeTile d 4 p 1 1
  | 0x60 => vxeTile d 4 p (vxeR d) (2 * (vxeImm d).toNat)
  | _ => vxeTile d 4 p (vxeR d) (vxeC d)

/-- The row of an operand that row `r` of the command reads: the first for a broadcast one (R73, log entry 14). -/
def bcastRow (b : Bool) (r : Nat) : Nat := if b then 0 else r

/-- The fields a VXE command uses beyond W0 and W1 (R53, R540). -/
def vxeFields (d : BitVec 512) : List (Nat × Nat × Nat) :=
  let op := dOpcode d
  if op = 0x7F then []
  else
    [(2, 0, 32), (4, 0, 31), (6, 0, 23), (7, 0, 32), (12, 0, 32), (13, 0, 32), (14, 0, 32), (15, 0, 32)] ++ rowMaskFields
      ++ (if vxeBinary op then [(3, 0, 32)] else []) ++ (if vxeUsesImm op then [(5, 0, 32)] else [])

/-- Whether an operand's format and scale mode are those of FP32 or INT32 words. -/
def plainWord (t : Tile) : Bool := decide (t.fmt = 0) && decide (t.sc = 0)

/-- The encoding, format and alignment fault of a VXE command, in the order of R59 (R53, R54, R66, R75, R262, R539, R540). -/
def vxeCoded (d : BitVec 512) : Nat :=
  let op := dOpcode d
  let imm := (vxeImm d).toNat
  let a := vxeS0 d
  let b := vxeS1 d
  let z := vxeD d
  let bin := vxeBinary op
  let run := decide (op ≠ 0x7F)
  firstFailing
    [(!isVxeOp op, 0x1020),
     (!restZero d (vxeFields d), 0x1020),
     (run && dColPred d && decide (vxeC d > 128 * vxeG d), 0x1020),
     (decide (op = 0x48) && decide (imm ≥ 8), 0x1020),
     (decide (op = 0x60) && decide (imm = 0 ∨ imm > 64), 0x1020),
     (decide (op = 0x63) && decide (imm = 0 ∨ imm > 64), 0x1020),
     (decide (op = 0x61) && decide (imm = 0 ∨ imm > 393216), 0x1020),
     ((decide (op = 0x61) || decide (op = 0x62)) && s0Bcast d, 0x1020),
     ((decide (op = 0x61) || decide (op = 0x63)) && s1Bcast d, 0x1020),
     (run && !(fmtKnown a.fmt && scaleAllowed a.fmt a.sc && fmtKnown z.fmt && scaleAllowed z.fmt z.sc), 0x2020),
     (bin && !(fmtKnown b.fmt && scaleAllowed b.fmt b.sc), 0x2020),
     ([0x58, 0x59, 0x5A, 0x5B, 0x5C, 0x60].contains op && !plainWord z, 0x2020),
     (decide (op = 0x62) && !(plainWord a && decide (z.fmt = 0) && decide (z.sc = 0)), 0x2020),
     (decide (op = 0x61) && !plainWord b, 0x2020),
     (decide (op = 0x63) && !(plainWord a && plainWord b && decide (z.fmt = 8) && decide (z.sc = 0)), 0x2020),
     (run && decide (a.base % 64 ≠ 0 ∨ z.base % 64 ≠ 0), 0x3023),
     (bin && decide (b.base % 64 ≠ 0), 0x3023)]

/-- An operand's rows as a range with its scales, between the active rows (R63, R66). -/
def vxeRng (t : Tile) (rows : List Nat) (w : Bool) : List Rng := hull (tileRng t rows w ++ tileScaleRng t rows w)

/-- The stored rows of an operand that the active rows read. -/
def readRows (b : Bool) (rows : List Nat) : List Nat := if b && !rows.isEmpty then [0] else rows

/-- The scratchpad ranges of a VXE command (R63, R75, R540). -/
def vxeRanges (d : BitVec 512) : List Rng :=
  let op := dOpcode d
  let rows := vxeRows d
  if op = 0x7F ∨ !isVxeOp op then []
  else
    (if op = 0x61 then vxeRng (vxeS0 d) (upFrom 0 (vxeImm d).toNat) false else vxeRng (vxeS0 d) (readRows (s0Bcast d) rows) false)
      ++ (if op = 0x61 then vxeRng (vxeS1 d) (readRows true rows) false
          else if vxeBinary op then vxeRng (vxeS1 d) (readRows (s1Bcast d) rows) false
          else [])
      ++ (if op = 0x5C then vxeRng (vxeD d) [0] true else vxeRng (vxeD d) rows true)

/-- Whether a format is BF16 or FP16. -/
def half16 (f : Nat) : Bool := decide (f = 1) || decide (f = 2)

/-- Elements per cycle: 512 when every format used is BF16 or FP16, 256 otherwise (R73). -/
def vxeLanes (d : BitVec 512) : Nat :=
  if half16 (vxeS0 d).fmt && half16 (vxeD d).fmt && (!vxeBinary (dOpcode d) || half16 (vxeS1 d).fmt) then 512 else 256

/-- Whether an opcode is of the half-rate group (R73). -/
def vxeHalf (op : Nat) : Bool := decide (0x50 ≤ op) && decide (op ≤ 0x55)

/-- Occupancy of a VXE command (R73, R81). -/
def vxeOcc (d : BitVec 512) : Nat :=
  let op := dOpcode d
  if op = 0x7F then 1
  else
    let rate := if vxeHalf op then vxeLanes d / 2 else vxeLanes d
    vxeR d * ceilDiv (vxeC d) rate + (if op = 0x60 then vxeR d * (vxeImm d).toNat else 0)

/-- Pipeline term of a VXE command (R81). -/
def vxePipe (d : BitVec 512) : Nat :=
  let op := dOpcode d
  if op = 0x7F then 0
  else if vxeHalf op then 22
  else if decide (0x58 ≤ op) && decide (op ≤ 0x61) then 18
  else 14

/-- Whether the VXE accepts a command (R81, R538). -/
def vxeReady (s : State) (c : Nat) : Bool :=
  decide (coreCycle s c ≥ (core s c).q1.freeAt) && (mapFind s.softWait (pageKey (coreDie c) (corePage c 2))).isNone

/-! ## Values -/

/-- The sums of neighbours, one level of a balanced binary tree; an absent lane adds nothing (R74). -/
def pairUp (f : Word → Word → Word) (l : List (Option Word)) : List (Option Word) :=
  match l with
  | [] => []
  | [a] => [a]
  | a :: b :: r =>
    (match a, b with
     | some x, some y => some (f x y)
     | some x, none => some x
     | none, y => y) :: pairUp f r

/-- A balanced binary tree over a group of lanes (R74). -/
def treeOf (f : Word → Word → Word) (fuel : Nat) (l : List (Option Word)) : Option Word :=
  match fuel with
  | 0 => l.headD none
  | k + 1 => treeOf f k (pairUp f l)

/-- Two partial results combined; an absent one adds nothing. -/
def combine (f : Word → Word → Word) (a b : Option Word) : Option Word :=
  match a, b with
  | some x, some y => some (f x y)
  | some x, none => some x
  | none, y => y

/-- The results of a row's groups, in ascending column order (R74). -/
def groupResults (f : Word → Word → Word) (lanes : Nat) (l : List (Option Word)) : List (Option Word) :=
  (chunksOf (l.length + 1) lanes l).map (fun g => treeOf f 9 g)

/-- A row reduced (R74): the groups' trees, combined in ascending column order. -/
def reduceRow (f : Word → Word → Word) (lanes : Nat) (l : List (Option Word)) : Option Word :=
  foldState (combine f) none (groupResults f lanes l)

/-- Running sums of a row (R74): sequential over the active columns. -/
def cumsumRow (acc : Option Word) (l : List (Option Word)) : List (Option Word) :=
  match l with
  | [] => []
  | none :: r => none :: cumsumRow acc r
  | some v :: r =>
    let a := match acc with
      | none => v
      | some x => f32add x v
    some a :: cumsumRow (some a) r

/-- Whether candidate `b` goes before `a` in TOPK: a larger number, a number before a NaN; equal values keep column order (R74). R74 does not say whether
−0 and +0 are equal; here they are (DESIGN CHOICE, log entry 119). -/
def topkBefore (a b : Word) : Bool :=
  let x := f32dec a
  let y := f32dec b
  if x = .nan then decide (y ≠ .nan)
  else
    match x, y with
    | .fin s m e, .fin u n g => if m = 0 ∧ n = 0 then false else vLt (.fin s m e) (.fin u n g)
    | x', y' => vLt x' y'

/-- A candidate put into a list sorted for TOPK, after those it does not exceed. -/
def topkInsert (c : Nat × Word) (l : List (Nat × Word)) : List (Nat × Word) :=
  match l with
  | [] => [c]
  | x :: r => if topkBefore x.2 c.2 then c :: x :: r else x :: topkInsert c r

/-- The candidates in TOPK order (R74). -/
def topkSort (l : List (Nat × Word)) : List (Nat × Word) := foldState (fun acc c => topkInsert c acc) [] l

/-- The words TOPK writes for a row: k values, then k column indices (R540, R541). -/
def topkRow (k : Nat) (l : List (Nat × Word)) : List Word :=
  let top := (topkSort l).take k
  top.map (fun x => x.2) ++ List.replicate (k - top.length) 0xFF800000#32
    ++ top.map (fun x => BitVec.ofNat 32 x.1) ++ List.replicate (k - top.length) 0xFFFFFFFF#32

/-- The mixing step of the random generator (R262). -/
def rngMix (x k : Word) : Word :=
  let a := x ^^^ k
  let b := (a ^^^ (a >>> 16)) * 0x7FEB352D#32
  let c := (b ^^^ (b >>> 15)) * 0x846CA68B#32
  c ^^^ (c >>> 16)

/-- The random number of column `c` under keys and a counter base, an exact FP32 value in [0, 1) (R262). -/
def rngValue (key0 key1 n0 : Word) (c : Nat) : Word :=
  let h := rngMix (rngMix (rngMix (n0 + BitVec.ofNat 32 c) key0) key1) (key0 ^^^ 0x5BD1E995#32)
  f32ofRat .nearestEven false (h >>> 8).toNat 1 (-24)

/-- The element-wise result of an opcode (R73, R541). -/
def vxeElem (d : BitVec 512) (a b z : Word) : Word :=
  match dOpcode d with
  | 0x40 => f32add a b
  | 0x41 => f32sub a b
  | 0x42 => f32mul a b
  | 0x43 => f32fma a b z
  | 0x44 => f32max a b
  | 0x45 => f32min a b
  | 0x46 => f32mul a (vxeImm d)
  | 0x48 => a
  | op => halfRate op a

/-- The rounding mode and saturation of a VXE write (R99, R100). -/
def vxeRnd (d : BitVec 512) : Rnd × Bool :=
  if dOpcode d = 0x48 then (rndOf (vxeImm d).toNat, tbit (vxeImm d) 2) else (.nearestEven, false)

/-- The operands of a VXE command at absolute addresses. -/
def absTile (t : Tile) (base : Nat) : Tile := { t with base := t.base + base, scBase := t.scBase + base }

/-- An FP32 value of element `i` of stored row `r`, or an INT32 word as it stands. -/
def srcWord (x : CoreSt) (t : Tile) (r i : Nat) : Word := tileVxe x t r i

/-- The raw 32-bit word `i` of stored row `r`. -/
def rawWord (x : CoreSt) (t : Tile) (r i : Nat) : Word := BitVec.ofNat 32 (elemCode x 0 (t.base + r * t.pitch) i)

/-- The active values of row `r` of S0, `none` at inactive columns. -/
def srcRow (d : BitVec 512) (x : CoreSt) (t : Tile) (r : Nat) : List (Option Word) :=
  (upFrom 0 (vxeC d)).map (fun i =>
    if colActive d (vxeG d) i then some (srcWord x t (bcastRow (s0Bcast d) r) i) else none)

/-- What a VXE command computes for a row: FP32 values to convert, raw words, or nothing to write. -/
inductive RowVal where
  | vals (l : List (Option Word))
  | raw (l : List (Option Word))
  | skip
deriving DecidableEq, Repr

/-- The squares of a row, each rounded once (R541). -/
def squares (l : List (Option Word)) : List (Option Word) := l.map (fun o => o.map (fun v => f32mul v v))

/-- The result of row `r` of a command other than NORM2 and GATHER_ROWS (R73, R74, R540, R541). -/
def vxeRow (d : BitVec 512) (x : CoreSt) (a b z : Tile) (r : Nat) : RowVal :=
  let cols := upFrom 0 (vxeC d)
  let act := colActive d (vxeG d)
  let lanes := vxeLanes d
  match dOpcode d with
  | 0x58 => .raw [some ((reduceRow f32add lanes (srcRow d x a r)).getD 0#32)]
  | 0x59 => .raw [some ((reduceRow f32max lanes (srcRow d x a r)).getD 0xFF800000#32)]
  | 0x5A => .raw [some ((reduceRow f32add lanes (squares (srcRow d x a r))).getD 0#32)]
  | 0x5B => .raw (cumsumRow none (srcRow d x a r))
  | 0x60 =>
    .raw ((topkRow (vxeImm d).toNat
      (((cols.filter act).map (fun i => (i, srcWord x a (bcastRow (s0Bcast d) r) i))))).map some)
  | 0x62 =>
    .vals (cols.map (fun i =>
      if act i then some (rngValue (rawWord x a r 0) (rawWord x a r 1) (rawWord x a r 2) i) else none))
  | 0x63 =>
    let keys := (upFrom 0 (vxeImm d).toNat).map (fun j => rawWord x b r j)
    .vals (cols.map (fun i =>
      if act i then some (if keys.contains (rawWord x a (bcastRow (s0Bcast d) r) i) then f32ofNat 1 else 0#32) else none))
  | 0x7F => .skip
  | _ =>
    .vals (cols.map (fun i =>
      if act i then
        some (vxeElem d (srcWord x a (bcastRow (s0Bcast d) r) i)
          (if vxeBinary (dOpcode d) then srcWord x b (bcastRow (s1Bcast d) r) i else 0#32)
          (if dOpcode d = 0x43 then srcWord x z r i else 0#32))
      else none))

/-- A row of raw 32-bit words as codes. -/
def rawOut (l : List (Option Word)) : RowOut := { codes := l.map (fun o => o.map BitVec.toNat), scales := [], events := [] }

/-- The codes of a computed row (R99 to R102). -/
def vxeOut (d : BitVec 512) (z : Tile) (v : RowVal) : RowOut :=
  match v with
  | .vals l => convRow z.fmt z.sc (vxeRnd d).1 (vxeRnd d).2 (l.map (fun o => o.map f32dec))
  | .raw l => rawOut l
  | .skip => { codes := [], scales := [], events := [] }

/-- The columns of S1 that row `r` reads. -/
def s1Cols (d : BitVec 512) (cols : List Nat) : List Nat :=
  if dOpcode d = 0x63 then upFrom 0 (vxeImm d).toNat else cols

/-- Whether row `r` of a command depends on a poisoned input (R84). -/
def vxeRowPoison (d : BitVec 512) (x : CoreSt) (a b z : Tile) (r : Nat) : Bool :=
  let cols := if dOpcode d = 0x62 then upFrom 0 3 else vxeCols d
  tileRowPoisoned x a (bcastRow (s0Bcast d) r) cols
    || (vxeBinary (dOpcode d) && tileRowPoisoned x b (bcastRow (s1Bcast d) r) (s1Cols d cols))
    || (decide (dOpcode d = 0x43) && tileRowPoisoned x z r cols)

/-- The events of the invalid TRN bytes row `r` reads (R95). -/
def vxeRowTrits (d : BitVec 512) (x : CoreSt) (a b z : Tile) (r : Nat) : List (Nat × DataEvent) :=
  let cols := vxeCols d
  tritEvents (badTritCols x a (bcastRow (s0Bcast d) r) cols
    ++ (if vxeBinary (dOpcode d) then badTritCols x b (bcastRow (s1Bcast d) r) cols else [])
    ++ (if dOpcode d = 0x43 then badTritCols x z r cols else []))

/-- A VXE command in progress: the core, the data events, and whether poison was consumed. -/
structure VxeAcc where
  x : CoreSt
  events : List DataEvent
  poison : Bool
deriving DecidableEq, Repr

/-- One row computed from the sources `src` and written (R67, R84, R541); its events in ascending order of columns, a read before the
conversion of its column (R103). -/
def vxeStep (d : BitVec 512) (src : CoreSt) (a b z : Tile) (k : VxeAcc) (r : Nat) : VxeAcc :=
  let o := vxeOut d z (vxeRow d src a b z r)
  let p := vxeRowPoison d src a b z r
  { x := writeRowOut k.x z r o p,
    events := k.events ++ inColumns (vxeRowTrits d src a b z r ++ o.events),
    poison := k.poison || p }

/-- NORM2 (R541): the squares of the active rows summed in one running sum, and one square root, written to D[0][0]. -/
def vxeNorm2 (d : BitVec 512) (src x : CoreSt) (a z : Tile) : VxeAcc :=
  let rows := vxeRows d
  let sum := foldState (fun acc r => foldState (combine f32add) acc (groupResults f32add (vxeLanes d) (squares (srcRow d src a r))))
    none rows
  let v : Word := match sum with
    | none => 0#32
    | some w => f32sqrt w
  let p := rows.any (fun r => tileRowPoisoned src a (bcastRow (s0Bcast d) r) (vxeCols d))
  { x := writeRowOut x z 0 (rawOut [some v]) p,
    events := List.replicate (foldState (fun k r => k + badTritBytes src a (bcastRow (s0Bcast d) r) (vxeCols d)) 0 rows) .badTrit,
    poison := p }

/-- The code that a bit-for-bit copy takes of element `i` (R541). A TRN byte whose five elements are all copied keeps its value, valid or not: the
digits it is rebuilt from carry what exceeds 242 in the highest one. Of a byte copied in part the digits are those of R95. -/
def copyCode (d : BitVec 512) (x : CoreSt) (a : Tile) (n i : Nat) : Nat :=
  let row := a.base + n * a.pitch
  let five := upFrom (i / 5 * 5) 5
  if a.fmt = 10 && five.all (fun k => decide (k < vxeC d) && colActive d (vxeG d) k) then
    let b := (spmGet x (row + i / 5)).toNat
    if i % 5 = 4 then b / 81 else b / 3 ^ (i % 5) % 3
  else elemCode x a.fmt row i

/-- The codes of a gathered row, bit for bit (R541); the places of a written block that are not copied take zero (R67). -/
def copyCodes (d : BitVec 512) (x : CoreSt) (a : Tile) (n : Nat) : RowOut :=
  let cols := upFrom 0 (vxeC d)
  let act (j : Nat) : Bool := cols.any (fun i => colActive d (vxeG d) i && decide (i / blockLen a.sc a.cols = j))
  { codes := cols.map (fun i =>
      if colActive d (vxeG d) i then some (copyCode d x a n i)
      else if a.sc ≠ 0 ∧ act (i / blockLen a.sc a.cols) = true then some 0
      else none),
    scales :=
      if a.sc = 0 then []
      else (upFrom 0 (blocksPerRow a.sc a.cols)).map (fun j =>
        if act j then
          some (spmNum x (a.scBase + n * scalePitch a.sc a.cols + j * scaleBytes a.sc) (scaleBytes a.sc))
        else none),
    events := [] }

/-- The codes of an output row that a poisoned index selects (R84): no rule states them, and they are free values (log entry 106). The inactive elements of a
scaled block with an active one are zero (R67). -/
def freeRow (d : BitVec 512) (z : Tile) (n r : Nat) : RowOut :=
  let cols := upFrom 0 (vxeC d)
  let w (k : Nat) : Nat := (Config.freeWord 84 (r * 1024 + k) n).toNat
  let act (j : Nat) : Bool := cols.any (fun i => colActive d (vxeG d) i && decide (i / blockLen z.sc z.cols = j))
  { codes := cols.map (fun i =>
      if colActive d (vxeG d) i then some (if z.fmt = 10 then w i % 3 else w i % 2 ^ (fmtBits5 z.fmt / 5))
      else if z.sc ≠ 0 ∧ act (i / blockLen z.sc z.cols) = true then some 0
      else none),
    scales :=
      if z.sc = 0 then []
      else (upFrom 0 (blocksPerRow z.sc z.cols)).map (fun j => if act j then some (w (512 + j) % 256 ^ scaleBytes z.sc) else none),
    events := [] }

/-- The rows of GATHER_ROWS in ascending order (R75, R84, R541): a poisoned index poisons its row, an index out of range ends the
command; the result says whether one did. `n` is the count of free values drawn. -/
def gatherRows (d : BitVec 512) (src : CoreSt) (a b z : Tile) (n : Nat) (l : List Nat) (k : VxeAcc) : VxeAcc × Bool :=
  match l with
  | [] => (k, false)
  | r :: q =>
    let cols := vxeCols d
    if elemPoisoned src 0 b.base r then
      gatherRows d src a b z n q { x := writeRowOut k.x z r (freeRow d z n r) true, events := k.events, poison := true }
    else
      let i := (rawWord src b 0 r).toNat
      if i ≥ (vxeImm d).toNat then (k, true)
      else
        let o :=
          if z.fmt = a.fmt ∧ z.sc = a.sc then copyCodes d src a i
          else
            convRow z.fmt z.sc .nearestEven false
              ((upFrom 0 (vxeC d)).map (fun j =>
                if colActive d (vxeG d) j then some (f32dec (srcWord src a i j)) else none))
        let p := tileRowPoisoned src a i cols
        gatherRows d src a b z n q
          { x := writeRowOut k.x z r o p,
            events := k.events ++ inColumns ((if z.fmt = a.fmt ∧ z.sc = a.sc then [] else tritEvents (badTritCols src a i cols)) ++ o.events),
            poison := k.poison || p }

/-- The data effect of a VXE command on its core, with its operands read from `src`, and whether GATHER_ROWS met an index out of range; `n` is the
count of free values drawn. -/
def vxeData (d : BitVec 512) (base n : Nat) (src x : CoreSt) : VxeAcc × Bool :=
  let a := absTile (vxeS0 d) base
  let b := absTile (vxeS1 d) base
  let z := absTile (vxeD d) base
  let k : VxeAcc := { x := x, events := [], poison := false }
  match dOpcode d with
  | 0x7F => (k, false)
  | 0x5C => (vxeNorm2 d src x a z, false)
  | 0x61 => gatherRows d src a b z n (vxeRows d) k
  | _ => (foldState (vxeStep d src a b z) k (vxeRows d), false)

/-- A VXE command at issue: it reads its operands and writes its results wholly in the issue cycle (R73, R81; DESIGN CHOICE, log entry 81). Delays at
the banks lengthen its occupancy (R48). -/
def issueVxe (s : State) (c : Nat) (ecc : Ecc) (ent : QEntry) (l : List Rng) : State :=
  let d := ent.desc
  let dl := bankDelay (core s c) 2 ecc.met
  let s0 := countDelay (applyEcc s c ecc) c dl
  let base := ctxBase s0 c (dCtx d)
  let r := vxeData d base s0.fresh (seenCore (core s0 c) (coreCycle s0 c)) (core s0 c)
  let s1 :=
    startExec (if dOpcode d = 0x61 then { s0 with fresh := s0.fresh + 1 } else s0) c 1 ent l (vxeOcc d + dl) (2 + vxePipe d + vxeOcc d + dl)
      (if r.2 then 0x3020 else 0)
  let s2 := updCore s1 c (fun x => { x with spm := r.1.x.spm, poison := r.1.x.poison })
  let s3 := count (accrue s2 (coreDie c) (corePage c 2) 0x01 (coreCycle s2 c) (vxeOcc d + dl)) (coreDie c) (corePage c 2) 0x02 1
  let s4 := reportEvents s3 (coreDie c) (corePage c 2) (cmdInfo d 1 ent.slot) r.1.events
  notePoison s4 c 1 ent.slot d r.1.poison

/-- Evaluates the head of the VXE queue for the row of an opcode; ADD's row also takes heads that are no VXE command (R57, R82). -/
def evalVxe (s : State) (t : Time) (c op : Nat) (ecc : Ecc) : Host.Outcome State Fault Refusal :=
  .next (evalHead (advance s t) c 1 ecc
    (fun d => decide (dOpcode d = op) || (decide (op = 0x40) && !isVxeOp (dOpcode d)))
    (fun u _ => vxeReady u c) vxeCoded (fun _ d => vxeRanges d) (fun _ _ => false)
    (fun u ent l => issueVxe u c ecc ent l))

/-- ADD: D := S0 + S1 (R73). -/
def execAdd (t : Time) (c : PhysCore) (ecc : Ecc) (s : State) : Host.Outcome State Fault Refusal :=
  evalVxe s t c.val 0x40 ecc

/-- SUB: D := S0 − S1 (R73). -/
def execSub (t : Time) (c : PhysCore) (ecc : Ecc) (s : State) : Host.Outcome State Fault Refusal :=
  evalVxe s t c.val 0x41 ecc

/-- MUL: D := S0 × S1 (R73). -/
def execMul (t : Time) (c : PhysCore) (ecc : Ecc) (s : State) : Host.Outcome State Fault Refusal :=
  evalVxe s t c.val 0x42 ecc

/-- FMA: D := S0 × S1 + D, fused (R73, R108). -/
def execFma (t : Time) (c : PhysCore) (ecc : Ecc) (s : State) : Host.Outcome State Fault Refusal :=
  evalVxe s t c.val 0x43 ecc

/-- MAX (R541). -/
def execMax (t : Time) (c : PhysCore) (ecc : Ecc) (s : State) : Host.Outcome State Fault Refusal :=
  evalVxe s t c.val 0x44 ecc

/-- MIN (R541). -/
def execMin (t : Time) (c : PhysCore) (ecc : Ecc) (s : State) : Host.Outcome State Fault Refusal :=
  evalVxe s t c.val 0x45 ecc

/-- SCALE: D := S0 × IMM (R540). -/
def execScale (t : Time) (c : PhysCore) (ecc : Ecc) (s : State) : Host.Outcome State Fault Refusal :=
  evalVxe s t c.val 0x46 ecc

/-- CONVERT under the rounding and saturation of IMM (R99, R100). -/
def execConvert (t : Time) (c : PhysCore) (ecc : Ecc) (s : State) : Host.Outcome State Fault Refusal :=
  evalVxe s t c.val 0x48 ecc

/-- EXP (R73, R108). -/
def execExp (t : Time) (c : PhysCore) (ecc : Ecc) (s : State) : Host.Outcome State Fault Refusal :=
  evalVxe s t c.val 0x50 ecc

/-- RECIP (R73, R108). -/
def execRecip (t : Time) (c : PhysCore) (ecc : Ecc) (s : State) : Host.Outcome State Fault Refusal :=
  evalVxe s t c.val 0x51 ecc

/-- RSQRT (R73, R108). -/
def execRsqrt (t : Time) (c : PhysCore) (ecc : Ecc) (s : State) : Host.Outcome State Fault Refusal :=
  evalVxe s t c.val 0x52 ecc

/-- TANH (R73, R108). -/
def execTanh (t : Time) (c : PhysCore) (ecc : Ecc) (s : State) : Host.Outcome State Fault Refusal :=
  evalVxe s t c.val 0x53 ecc

/-- SILU (R73, R108). -/
def execSilu (t : Time) (c : PhysCore) (ecc : Ecc) (s : State) : Host.Outcome State Fault Refusal :=
  evalVxe s t c.val 0x54 ecc

/-- GELU in tanh form (R73, R108). -/
def execGelu (t : Time) (c : PhysCore) (ecc : Ecc) (s : State) : Host.Outcome State Fault Refusal :=
  evalVxe s t c.val 0x55 ecc

/-- ROW_SUM (R74). -/
def execRowSum (t : Time) (c : PhysCore) (ecc : Ecc) (s : State) : Host.Outcome State Fault Refusal :=
  evalVxe s t c.val 0x58 ecc

/-- ROW_MAX (R541). -/
def execRowMax (t : Time) (c : PhysCore) (ecc : Ecc) (s : State) : Host.Outcome State Fault Refusal :=
  evalVxe s t c.val 0x59 ecc

/-- ROW_SQSUM (R541). -/
def execRowSqsum (t : Time) (c : PhysCore) (ecc : Ecc) (s : State) : Host.Outcome State Fault Refusal :=
  evalVxe s t c.val 0x5A ecc

/-- CUMSUM (R74). -/
def execCumsum (t : Time) (c : PhysCore) (ecc : Ecc) (s : State) : Host.Outcome State Fault Refusal :=
  evalVxe s t c.val 0x5B ecc

/-- NORM2 (R541). -/
def execNorm2 (t : Time) (c : PhysCore) (ecc : Ecc) (s : State) : Host.Outcome State Fault Refusal :=
  evalVxe s t c.val 0x5C ecc

/-- TOPK (R74). -/
def execTopk (t : Time) (c : PhysCore) (ecc : Ecc) (s : State) : Host.Outcome State Fault Refusal :=
  evalVxe s t c.val 0x60 ecc

/-- GATHER_ROWS (R75). -/
def execGatherRows (t : Time) (c : PhysCore) (ecc : Ecc) (s : State) : Host.Outcome State Fault Refusal :=
  evalVxe s t c.val 0x61 ecc

/-- RNG (R262). -/
def execRng (t : Time) (c : PhysCore) (ecc : Ecc) (s : State) : Host.Outcome State Fault Refusal :=
  evalVxe s t c.val 0x62 ecc

/-- MATCH (R540). -/
def execMatchEntries (t : Time) (c : PhysCore) (ecc : Ecc) (s : State) : Host.Outcome State Fault Refusal :=
  evalVxe s t c.val 0x63 ecc

/-- The VXE's NOP (R73). -/
def execVxeNop (t : Time) (c : PhysCore) (ecc : Ecc) (s : State) : Host.Outcome State Fault Refusal :=
  evalVxe s t c.val 0x7F ecc

end Sys2Proof.Machine
end

