-- ==== Sys2Proof/Machine/CoreRows.lean ====
section
/-!
DEFINITION. Sys2Proof/Machine/CoreRows.lean: what happens to a core besides its engines' commands: descriptor windows (R57), retirement
(R62, R538), task contexts (R50, R51), status registers (R86 to R88) and accesses through the die crossbar (R41, R46, R52).
-/
namespace Sys2Proof.Machine

/-! ## Descriptor windows (R57) -/

/-- A requester's number among the writers of queue windows. -/
def writerKey (who : Requester) : Nat :=
  match who with
  | .host => 0
  | .trunk0 => 1
  | .trunk99 => 2
  | .bmc => 3
  | .fabric n d k => 4 + (n.val * 128 + d.val) * 32 + k.val

/-- The key of a writer's staging buffer of queue `q`. -/
def stageKey (who : Requester) (q : Nat) : Nat := writerKey who * 4 + q

/-- A descriptor with word W`k` replaced. -/
def setWord (d : BitVec 512) (k : Nat) (v : Word) : BitVec 512 := setFld d (32 * k) 32 v.toNat

/-- A write of W0 to W14 of a queue window: it goes into the writer's staging buffer. -/
def stageWord (s : State) (who : Requester) (c q k : Nat) (v : Word) : State :=
  updCore s c (fun x =>
    { x with stage := mapPut 0#512 x.stage (stageKey who q) (setWord (mapGet x.stage (stageKey who q) 0#512) k v) })

/-- A write of W15 of a queue window: the staged descriptor enters the queue, waking a stopped core, or is discarded with 0x1023 when the
queue holds 256 entries (R57, R82). The staging buffer keeps its words (DESIGN CHOICE, log entry 118). -/
def enqueueWindow (s : State) (who : Requester) (c q : Nat) (v : Word) : State :=
  let s1 := stageWord s who c q 15 v
  let d := mapGet (core s1 c).stage (stageKey who q) 0#512
  if (queueOf s1 c q).entries.length ≥ queueDepth then coreError s1 c 0x1023 q
  else
    let s2 := enterQueue s1 c q d
    if coreStopped s2 c then count (wakeCore s2 c) (coreDie c) 1 0x06 1 else s2

/-- DESCRIPTOR_ENQUEUE (R57). -/
def execDescriptorEnqueue (t : Time) (who : Requester) (c : PhysCore) (q : Fin 4) (v : Word) (s : State) :
    Host.Outcome State Fault Refusal :=
  .next (pageWrite (advance s t) (coreDie c.val) (corePage c.val 0) (0x13C + 0x40 * q.val) false
    (fun u => enqueueWindow u who c.val q.val v))

/-! ## Retirement (R62, R538) -/

/-- The accumulators after a soft reset of the MXE page: both sets +0 and clean (R538). -/
def clearAccumulators (x : CoreSt) : CoreSt :=
  { x with acc0 := [], acc1 := [], accP0 := false, accP1 := false, mmaEnd0 := 0, mmaEnd1 := 0, storeEnd0 := 0, storeEnd1 := 0 }

/-- Finishes a soft reset of the MXE or VXE page that waited for the engine's last command (R538). -/
def finishSoftWait (s : State) (c q : Nat) : State :=
  let k := pageKey (coreDie c) (corePage c (q + 1))
  if (mapFind s.softWait k).isSome && (queueOf s c q).exec.isEmpty then
    let s1 := { s with softWait := mapErase s.softWait k }
    if q = 0 then updCore s1 c clearAccumulators else s1
  else s

/-- Whether a command of queue `q` may retire now (R62): the MXE, VXE and MOU in issue order at the retirement cycle, the MVE when its last
request has completed. A command that faulted at issue waits for none (R82). -/
def mayRetire (s : State) (c q : Nat) (e : Exec) : Bool :=
  let x := core s c
  if q = 2 then mveDone x (coreCycle s c) e
  else decide (e.retire ≤ coreCycle s c) && (e.genDone || decide (((getQ x q).exec.filter (fun h => !h.genDone)).head?.map (fun h => h.seq) = some e.seq))

/-- COMMAND_RETIRE (R62). -/
def execCommandRetire (t : Time) (c : PhysCore) (q : Fin 4) (s : State) : Host.Outcome State Fault Refusal :=
  let s1 := settle (advance s t) c.val
  .next (finishSoftWait (retireOne s1 c.val q.val (mayRetire s1 c.val q.val)) c.val q.val)

/-! ## Task contexts (R50, R51, R87) -/

/-- The error of a context access that is refused: the context and the reason (R82). -/
def ctxRefuse (s : State) (c n reason : Nat) : State :=
  recordError s (coreDie c) (corePage c 4) 0x1022 (n + reason * 16)

/-- Whether the range of context `n` overlaps that of a VALID context with a different owner (R50). -/
def ctxOverlaps (s : State) (c n owner : Nat) : Bool :=
  (upFrom 0 16).any (fun m =>
    m != n && tbit (ctxReg s c m 0xC) 0 && decide (ctxOwner s c m ≠ owner) && decide (ctxBase s c n < ctxBound s c m)
      && decide (ctxBase s c m < ctxBound s c n))

/-- The state with a field of a context register replaced. -/
def setCtx (s : State) (c n off lo len v : Nat) : State :=
  setRegFld s (coreDie c) (corePage c 4) (0x100 + 0x10 * n + off) lo len v

/-- The zero-fill that an assignment starts (R51). -/
def assignFill (s : State) (c n : Nat) : Fill :=
  let w := coreCycle s c
  { ctx := n, start := w, last := w + 8 + ceilDiv (ctxBound s c n - ctxBase s c n) 2048, lo := ctxBase s c n, hi := ctxBound s c n,
    pos := ctxBase s c n }

/-- An assignment of context `n` with an owner (R50, R51). -/
def ctxAssign (s : State) (c n owner : Nat) : State :=
  if ctxBase s c n ≥ ctxBound s c n ∨ ctxBound s c n > 98304 * 256 then ctxRefuse s c n 0
  else if tbit (ctxReg s c n 0xC) 0 then ctxRefuse s c n 2
  else if ctxOverlaps s c n owner then ctxRefuse s c n 1
  else
    let s1 := setCtx (setCtx s c n 8 0 8 owner) c n 0xC 0 1 1
    updCore s1 c (fun x => { x with fills := x.fills ++ [assignFill s1 c n] })

/-- A release of context `n` (R50). -/
def ctxRelease (s : State) (c n : Nat) : State :=
  if !tbit (ctxReg s c n 0xC) 0 then s
  else if ctxRefs (core s c) n ≠ 0 then ctxRefuse s c n 2
  else setCtx s c n 0xC 0 1 0

/-- A write of CTXn_CTRL acts by its action bits (R50). -/
def writeCtxCtrl (s : State) (c n : Nat) (v : Word) : State :=
  if tbit v 9 then ctxRelease s c n
  else if tbit v 8 then ctxAssign s c n (fld v 0 8)
  else if tbit (ctxReg s c n 0xC) 0 then ctxRefuse s c n 3
  else setCtx s c n 8 0 8 (fld v 0 8)

/-- A write of CTXn_BASE or CTXn_BOUND (R50). -/
def writeCtxRange (s : State) (c n off : Nat) (v : Word) : State :=
  if tbit (ctxReg s c n 0xC) 0 then ctxRefuse s c n 3 else setCtx s c n off 0 17 (fld v 0 17)

/-- A write of CTXn_CTRL through the register page. -/
def ctxCtrlAccess (s : State) (c n : Nat) (v : Word) : State :=
  let u := settle s c
  pageWrite u (coreDie c) (corePage c 4) (0x108 + 0x10 * n) true (fun u => writeCtxCtrl u c n v)

/-- CONTEXT_ASSIGN (R50, R51). -/
def execContextAssign (t : Time) (c : PhysCore) (n : Fin 16) (v : Word) (s : State) : Host.Outcome State Fault Refusal :=
  .next (ctxCtrlAccess (advance s t) c.val n.val v)

/-- CONTEXT_RELEASE (R50). -/
def execContextRelease (t : Time) (c : PhysCore) (n : Fin 16) (v : Word) (s : State) : Host.Outcome State Fault Refusal :=
  .next (ctxCtrlAccess (advance s t) c.val n.val v)

/-- CONTEXT_OWNER_WRITE (R50). -/
def execContextOwnerWrite (t : Time) (c : PhysCore) (n : Fin 16) (v : Word) (s : State) : Host.Outcome State Fault Refusal :=
  .next (ctxCtrlAccess (advance s t) c.val n.val v)

/-- CONTEXT_FILL_DONE (R51): a fill whose last cycle has passed is complete. -/
def execContextFillDone (t : Time) (c : PhysCore) (s : State) : Host.Outcome State Fault Refusal :=
  .next (settle (advance s t) c.val)

/-! ## Status registers with a clear bit (R86, R88) -/

/-- A write of SB_HW_CLR: with bit 0 set the high-water mark clears (R86). -/
def writeSbHwClr (s : State) (c : Nat) (v : Word) : State :=
  if tbit v 0 then updCore s c (fun x => { x with sbHigh := 0 }) else s

/-- SB_HW_CLR (R86). -/
def execSbHwClr (t : Time) (c : PhysCore) (v : Word) (s : State) : Host.Outcome State Fault Refusal :=
  .next (pageWrite (advance s t) (coreDie c.val) (corePage c.val 0) 0x050 false (fun u => writeSbHwClr u c.val v))

/-- A write of MVE_HW_CLR: with bit 0 set the high-water mark clears (R88). -/
def writeMveHwClr (s : State) (c : Nat) (v : Word) : State :=
  if tbit v 0 then updCore s c (fun x => { x with mveHigh := 0 }) else s

/-- MVE_HW_CLR (R88). -/
def execMveHwClr (t : Time) (c : PhysCore) (v : Word) (s : State) : Host.Outcome State Fault Refusal :=
  .next (pageWrite (advance s t) (coreDie c.val) (corePage c.val 3) 0x048 false (fun u => writeMveHwClr u c.val v))

/-- A write of a JOB_SKIP register (R83, R86). -/
def writeJobSkip (s : State) (c i : Nat) (v : Word) : State :=
  setReg (noteJobChange s c true) (coreDie c) (corePage c 0) (0x0A0 + 4 * i) v

/-- A W1C write of a JOB_FAULT register (R83, R86): a bit that a fault sets in the same cycle stays set. -/
def writeJobFault (s : State) (c i : Nat) (v : Word) : State :=
  let s1 := noteJobChange s c false
  let x := core s1 c
  let keep : Word := if x.clk.mode = .run then BitVec.ofNat 32 (fld x.jfSet (32 * i) 32) else 0#32
  let off := 0x080 + 4 * i
  setReg s1 (coreDie c) (corePage c 0) off (reg s1 (coreDie c) (corePage c 0) off &&& ~~~(v &&& ~~~keep))

/-! ## The die crossbar (R40, R41, R46, R47, R52) -/

/-- A response without data, with an error code. -/
def errResp (code : Nat) : Resp := { generation := 0, err := code, data := [], poison := [], late := false }

/-- The core with the fill lines of the present cycle written too, so that a write of this cycle stands (R52): of a line that the write covers in part
the rest is zero (DESIGN CHOICE, log entry 116). -/
def fillAhead (x : CoreSt) (cyc : Nat) : CoreSt :=
  { foldState (fillOne (cyc + 1)) x x.fills with fills := x.fills.map (fillNow (cyc + 1)) }

/-- An access to a core's scratchpad through its crossbar port (R40, R47, R52): the state after it and its response. -/
def portAccess (s : State) (c : Nat) (a : XbarAccess) (ecc : Ecc) : State × Resp :=
  if a.off + (if a.write then a.data.length else a.len) > 0x01800000 then (s, errResp 0x4011)
  else
    let s1 := count (applyEcc (settle s c) c ecc) (coreDie c) (corePage c 4) 0x04 1
    if a.write then
      (updCore s1 c (fun x => spmStore (fillAhead x (coreCycle s1 c)) a.off a.data a.poison), errResp 0)
    else
      let x := seenCore (core s1 c) (coreCycle s1 c)
      (s1, { generation := 0, err := 0, data := spmRead x a.off a.len, poison := spmMarks x a.off a.len, late := false })

/-- An access to bytes of a logical core's slot (R40, R41). A slot that no core carries answers as an unmapped offset (DESIGN CHOICE, log entry
17). -/
def tier0Access (s : State) (ord logical : Nat) (a : XbarAccess) (ecc : Ecc) : State × Resp :=
  if a.off + (if a.write then a.data.length else a.len) > 0x01800000 then (s, errResp 0x4011)
  else
    match physOf s (cpDie ord) logical with
    | none => (s, errResp 0x4010)
    | some c => portAccess s c a ecc

/-- An atomic at a core's scratchpad (R292, R345): a read and a write through the crossbar port with nothing between them. -/
def portAtomic (s : State) (c b : Nat) (m : FabMsg) (ecc : Ecc) : State × Resp :=
  if b + atomicBytes m > 0x01800000 then (s, errResp 0x4011)
  else
    let s1 := count (applyEcc (settle s c) c ecc) (coreDie c) (corePage c 4) 0x04 2
    let x := core s1 c
    if spmPoisonedRange x (b / 64 * 64) 64 then (s1, errResp 0x3052)
    else
      let old := spmNum x b (atomicBytes m)
      (updCore s1 c (fun x => spmWrite (fillAhead x (coreCycle s1 c)) b (atomicStore m old) false),
        { errResp 0 with data := atomicReply old })

/-! ## Requests of the module's own move engines (R46, R81, R135) -/

/-- A request that waits for or uses a crossbar port: its sender and slot, its cycle at the port, the bytes left, the last cycle that took any, and
the directions of the port it uses. -/
structure PortItem where
  sender : Nat
  slot : Nat
  arrive : Nat
  left : Nat
  last : Nat
  reads : Bool
  writes : Bool
deriving DecidableEq, Repr

/-- The requests of a core at the port of core `p`. -/
def itemsOf (s : State) (p c : Nat) : List PortItem :=
  (core s c).reqs.filterMap (fun r =>
    match r.trip with
    | none => none
    | some t =>
      if t.target = some p ∧ t.left > 0 then
        some { sender := c, slot := r.slot, arrive := t.arrive, left := t.left, last := t.last, reads := decide (t.msg.op ≠ 2),
               writes := decide (t.msg.op ≠ 1) }
      else none)

/-- One cycle of a port (R135): 512 bytes in each direction, to the requests in ascending order of their cores, 512 bytes at most to one request; one
that does not fit waits, and those behind it in its direction wait too. The result says of each request whether it waited. -/
def portCycle (cyc r w : Nat) (l : List PortItem) : List (PortItem × Bool) :=
  match l with
  | [] => []
  | p :: q =>
    if p.left = 0 ∨ cyc < p.arrive then (p, false) :: portCycle cyc r w q
    else
      let n := min 512 p.left
      if (p.reads && decide (r < n)) || (p.writes && decide (w < n)) then
        (p, true) :: portCycle cyc (if p.reads then 0 else r) (if p.writes then 0 else w) q
      else
        ({ p with left := p.left - n, last := cyc }, false) ::
          portCycle cyc (if p.reads then r - n else r) (if p.writes then w - n else w) q

/-- The cycles of a port from `cyc` up to and not in `upTo`: the requests after them, and each sender once for every cycle that it waited. -/
def portCycles (fuel cyc upTo : Nat) (l : List PortItem) (waits : List Nat) : List PortItem × List Nat :=
  match fuel with
  | 0 => (l, waits)
  | k + 1 =>
    if cyc ≥ upTo ∨ l.all (fun p => decide (p.left = 0)) = true then (l, waits)
    else
      let r := portCycle cyc 512 512 l
      let again := r.any (fun p => decide (p.1.left > 0) && decide (p.1.arrive ≤ cyc))
      let next := if again then cyc + 1
        else foldState (fun m p => if p.1.left = 0 then m else min m p.1.arrive) upTo r
      portCycles k next upTo (r.map Prod.fst) (waits ++ ((r.filter Prod.snd).map (fun p => p.1.sender)).eraseDups)

/-- The requester's cycle in which a request that its port took last in cycle `last` is performed and completes (R46): 14 cycles of the slower clock
after it left, and the cycles it was at the port, rounded up to an edge of the requester. -/
def tripDue (s : State) (c p : Nat) (t : XbarTrip) (last : Nat) : Nat :=
  let fr := max 1 (core s c).clk.mhz
  let ft := max 1 (core s p).clk.mhz
  let fs := min fr ft
  t.sent + ceilDiv (((last - t.arrive) * fs + 14 * ft) * fr) (ft * fs)

/-- The requests of a core at a port after some of its cycles. -/
def putItem (s : State) (p : Nat) (i : PortItem) : State :=
  updCore s i.sender (fun x =>
    { x with reqs := x.reqs.map (fun r =>
        if r.slot = i.slot then
          { r with trip := r.trip.map (fun t =>
              { t with left := i.left, last := i.last, due := if i.left = 0 then some (tripDue s i.sender p t i.last) else none }) }
        else r) })

/-- The port of a core brought up to its present cycle (R135): each cycle of waiting is counted in the sender's MVE page. While the core's clock is
stopped its port holds nothing up (DESIGN CHOICE, log entry 115). -/
def servePort (s : State) (p : Nat) : State :=
  let l := ((upFrom (p / 18 * 18) 18).map (itemsOf s p)).flatten
  if l.isEmpty then s
  else
    let x := core s p
    let cyc := coreCycle s p
    let r :=
      if x.clk.mode = .run then
        portCycles (foldState (fun n i => n + i.left / 512 + 2) 0 l) (max x.portNext (foldState (fun m i => min m i.arrive) cyc l)) cyc l []
      else (l.map (fun i => { i with left := 0, last := cyc }), [])
    let s1 := foldState (fun u i => putItem u p i) (updCore s p (fun y => { y with portNext := cyc })) r.1
    foldState (fun u c => countPast u (coreDie c) (corePage c 3) 0x05 1) s1 r.2

/-- Every crossbar port of a core's die brought up to the present. -/
def servePorts (s : State) (c : Nat) : State := foldState servePort s (upFrom (c / 18 * 18) 18)

/-- Performs a request at the scratchpad it was sent to (R40, R46, R345). -/
def tripPerform (s : State) (t : XbarTrip) (ecc : Ecc) : State × Resp :=
  match t.target, homeOf t.msg.offset with
  | some p, .tier0 _ _ b =>
    if t.msg.op = 3 then portAtomic s p b t.msg ecc
    else portAccess s p { off := b, write := decide (t.msg.op = 2), len := t.msg.len, data := t.msg.data, poison := t.msg.poison } ecc
  | _, .hole => (s, errResp 0x4011)
  | _, _ => (s, errResp 0x4010)

/-- Whether a request's time at its target has come (R46). -/
def tripReady (s : State) (c : Nat) (t : XbarTrip) : Bool :=
  match t.due with
  | none => false
  | some n => decide (n ≤ coreCycle s c)

/-- The first request of the cores of a die that is on its way by the crossbar to an access of a logical core's slot. -/
def tripFor (s : State) (die logical : Nat) (a : XbarAccess) : Option (Nat × MveReq × XbarTrip) :=
  let fits (c : Nat) (r : MveReq) : Option (Nat × MveReq × XbarTrip) :=
    match r.trip with
    | none => none
    | some t =>
      if t.ans.isNone ∧ homeOf t.msg.offset = .tier0 (dieOrd die) logical a.off ∧ t.msg.len = a.len ∧ t.msg.data = a.data
          ∧ t.msg.op = (if a.write then 2 else 1) then some (c, r, t)
      else none
  ((upFrom (dieOrd die * 18) 18).map (fun c => (core s c).reqs.filterMap (fits c))).flatten.head?

/-- A request performed: its answer is kept for its completion. -/
def keepAnswer (s : State) (c slot : Nat) (p : Resp) : State :=
  updCore s c (fun x =>
    { x with reqs := x.reqs.map (fun r => if r.slot = slot then { r with trip := r.trip.map (fun t => { t with ans := some p }) } else r) })

/-- CROSSBAR_ACCESS (R41, R46): an access of a move engine of the die is performed when it is due, 14 cycles after it left; the access of the mesh router
when it comes. -/
def execCrossbarAccess (t : Time) (die : ComputeDie) (logical : Fin 16) (a : XbarAccess) (ecc : Ecc) (s : State) :
    Host.Outcome State Fault Refusal :=
  let s1 := servePorts (advance s t) (die.val * 18)
  match tripFor s1 (cpDie die.val) logical.val a with
  | some (c, r, tr) =>
    if tripReady s1 c tr then
      let q := tripPerform s1 tr ecc
      .next { keepAnswer q.1 c r.slot q.2 with lastResp := q.2 }
    else .next s1
  | none =>
    let r := tier0Access s1 die.val logical.val a ecc
    .next { r.1 with lastResp := r.2 }

/-- MVE_REQUEST_COMPLETION (R46, R79, R81): a request that went by the crossbar completes when it is due, with what its access gave; any other with the
response that comes. -/
def execMveRequestCompletion (t : Time) (c : PhysCore) (slot : Fin 512) (resp : Resp) (s : State) : Host.Outcome State Fault Refusal :=
  let s1 := servePorts (advance s t) c.val
  match (core s1 c.val).reqs.find? (fun r => decide (r.slot = slot.val) && r.trip.isSome) with
  | none => .next (takeResponse s1 c.val slot.val resp)
  | some r =>
    match r.trip with
    | none => .next s1
    | some tr =>
      if tripReady s1 c.val tr then
        let q : State × Resp := match tr.ans with
          | some p => (s1, p)
          | none => tripPerform s1 tr { entryBad := false, badWords := [], corrected := 0, met := [] }
        .next (applyResponse q.1 c.val r { q.2 with late := isLate q.1 c.val r })
      else .next s1

/-- MVE_REQUEST_GENERATE (R77, R78). -/
def execMveRequestGenerate (t : Time) (c : PhysCore) (ecc : Ecc) (s : State) : Host.Outcome State Fault Refusal :=
  let s1 := advance s t
  if decide ((core s1 c.val).clk.mode ≠ .run) || isHalted s1 (coreDie c.val) (corePage c.val 0) then .next s1
  else .next (generateRequest (applyEcc (servePorts s1 c.val) c.val ecc) c.val ecc.met)

end Sys2Proof.Machine
end

