-- ==== Sys2Proof/Machine/Frames.lean ====
section
/-!
DEFINITION. Sys2Proof/Machine/Frames.lean: the frame sequencer (R149 to R190): frame programs, entries, pushes, batch slots, stretch,
agreements, step notices and the steps of a frame boundary that belong to the sequencer itself.
-/
namespace Sys2Proof.Machine

/-! ## Registers and banks -/

/-- Whether the FRS page has IRQ_STATUS.OUT_OF_STEP's condition: FRAME_STATUS.OUT_OF_STEP (R181). -/
def outOfStep (s : State) (die : Nat) : Bool := tbit (reg s die 1 0x044) 2

/-- FRAME_STATUS.START_ARMED. -/
def startArmed (s : State) (die : Nat) : Bool := tbit (reg s die 1 0x044) 1

/-- FRAME_NUM of a die. -/
def frameNum (s : State) (die : Nat) : Nat := (reg s die 1 0x048).toNat

/-- The dies that have a frame sequencer (R530). -/
def frsDies : List Nat := (upFrom 0 100).filter (fun d => decide (d ≠ 9))

/-- The program bank in use: PROG_STATUS.ACTIVE_BANK. -/
def progBank (s : State) (die : Nat) : FBank :=
  if tbit (reg s die 1 0x064) 0 then (frsOf s die).bankB else (frsOf s die).bankA

/-- Whether a program bank is empty. -/
def bankEmpty (b : FBank) : Bool := b.segs.isEmpty

/-- The base frame in ticks: that of the program in force, or FRAME_CTRL.LEN without one (R151, R188), which counts as the next multiple of 80 so
that every frame is a multiple of 5 ticks (R27; DESIGN CHOICE, log entry 27). -/
def baseTicks (s : State) (die : Nat) : Nat :=
  if bankEmpty (progBank s die) then max 80 (roundUp (fld (reg s die 1 0x040) 0 24) 80) else (progBank s die).base

/-- The ticks of a frame up to the end of its extension (R151). -/
def extTicks (base lvl : Nat) : Nat := base * (16 + lvl) / 16

/-- FRAME_TICK: the tick within the frame, 0 while no frame runs. -/
def frameTick (s : State) (die : Nat) : Nat := if frsRunning s die then (s.now - (frsOf s die).began) / 64 else 0

/-- Whether the current tick lies in the extension or the gap (R151). -/
def inExtension (s : State) (die : Nat) : Bool := frsRunning s die && decide (frameTick s die ≥ baseTicks s die)

/-- Ticks since the sync epoch began (R149); 0 before the first pulse. -/
def epochTicks (s : State) (die : Nat) : Nat :=
  let fr := frsOf s die
  if fr.synced then (s.now - fr.epochBegan) / 64 else 0

/-- EPOCH_TICK[15:0]. -/
def epochTick (s : State) (die : Nat) : Nat := epochTicks s die % 65536

/-- SYNC_EPOCH as counted: a missing pulse leaves the count running (R149). -/
def syncEpoch (s : State) (die : Nat) : Nat := ((reg s die 1 0x054).toNat + epochTicks s die / 65536) % 2 ^ 32

/-- The moment and the frame in which the slice stops are kept when the first die leaves the step (R466, R472). -/
def noteStop (s : State) (die : Nat) : State :=
  if frsDies.any (fun d => outOfStep s d) then s else { s with fo := { s.fo with faultAt := s.now, stopFrame := frameNum s die } }

/-- A die leaves the step: OUT_OF_STEP set, the error recorded, the interrupt raised (R181, R190). -/
def leaveStep (s : State) (die code info : Nat) : State :=
  setIrq (recordError (setRegFld (noteStop s die) die 1 0x044 2 1 1) die 1 code info) die 1 16

/-- FRAME_STATUS as it reads (R188). -/
def frameStatus (s : State) (die : Nat) : Word :=
  let fr := frsOf s die
  let ext := inExtension s die
  BitVec.ofNat 32 (fld (reg s die 1 0x044) 0 3 + fr.s * 8 + b2n ext * 256
    + (if frsRunning s die then fr.seg * 512 else 0)
    + (if frsRunning s die && !ext && decide (frameTick s die < fr.slotEnd) then fr.slotTypes * 2 ^ 17 else 0))

/-! ## Sync pulses (R149) -/

/-- A frame-sync pulse at one die. -/
def pulseDie (s : State) (die : Nat) : State :=
  if !reachable s die 1 then s
  else
    let fr := frsOf s die
    let e := epochTick s die
    if fr.synced && decide (e ≠ 0) then leaveStep s die 0x4043 e
    else
      let n := if fr.synced then syncEpoch s die else ((reg s die 1 0x054).toNat + 1) % 2 ^ 32
      putFrs (setReg s die 1 0x054 (BitVec.ofNat 32 n)) die
        { fr with epochBegan := s.now / 64 * 64, synced := true, missing := 0 }

/-- A pulse missing at one die: counted; the sixteenth in a row leaves the step. -/
def pulseMissingDie (s : State) (die : Nat) : State :=
  if !reachable s die 1 || !(frsOf s die).synced then s
  else
    let m := (frsOf s die).missing + 1
    let s1 := count (updFrs s die (fun fr => { fr with missing := m })) die 1 0x0B 1
    if m = 16 then leaveStep s1 die 0x4043 0xFFFF else s1

/-! ## Entries (R155 to R159) -/

/-- OP of an entry. -/
def entOp (e : BitVec 128) : Nat := fld e 0 8
/-- AT of an entry, in ticks. -/
def entAt (e : BitVec 128) : Nat := fld e 8 24

/-- A segment of a bank. -/
def segOf (b : FBank) (i : Nat) : Seg := nth b.segs i { start := 0, len := 0, firstEntry := 0, count := 0, nxt := 0 }

/-- The entries of a segment. -/
def segEntries (b : FBank) (g : Seg) : List (BitVec 128) := (b.entries.drop g.firstEntry).take g.count

/-- Moves on to the next segment once its predecessor's entries have started and its range has passed (R155). -/
def advanceSeg (b : FBank) (base tick fuel : Nat) (fr : Frs) : Frs :=
  match fuel with
  | 0 => fr
  | k + 1 =>
    let g := segOf b fr.seg
    if fr.idx ≥ g.count ∧ tick ≥ g.start + g.len ∧ g.start + g.len < base ∧ g.len > 0 then
      advanceSeg b base tick k { fr with seg := fr.nextSeg, idx := 0, nextSeg := (segOf b fr.nextSeg).nxt }
    else fr

/-- The edge of the mesh cycle of a frame in which a moment lies (R159). -/
def frameEdge (fr : Frs) (t : Time) : Time := fr.began + (t - fr.began) / 5 * 5

/-- Starts the next entry of a die's program if it is of the operation asked for and may start now (R159): at a mesh cycle edge, at or after the
start of its AT tick and a cycle after its predecessor. A bank entry found uncorrectable halts the sequencer (R442). -/
def startEntry (s : State) (die op : Nat) (entryOk : Bool) (act : State → BitVec 128 → State) : State :=
  if !frsRunning s die || outOfStep s die || isHalted s die 1 then s
  else
    let b := progBank s die
    let base := baseTicks s die
    let fr := advanceSeg b base (frameTick s die) (b.segs.length + 1) (frsOf s die)
    match (segEntries b (segOf b fr.seg)).drop fr.idx with
    | [] => s
    | e :: _ =>
      let at_ := frameEdge fr s.now
      if entOp e ≠ op ∨ at_ < fr.began + 64 * entAt e ∨ at_ < fr.startNext ∨ at_ ≥ fr.began + 64 * base then s
      else if !entryOk then
        haltUnit s die 1 ((segOf b fr.seg).firstEntry + fr.idx)
      else
        let s1 := putFrs (traceRec s die 1 0) die { fr with idx := fr.idx + 1, startNext := at_ + 5 }
        let s2 := if at_ ≥ fr.began + 64 * (entAt e + 1) then count s1 die 1 0x03 1 else s1
        atTime s2 at_ (fun u => act u e)

/-- Whether the digest of a memory die has TEST_ONLY set: it reads in test slots, and while no frames run (R381). -/
def testDigest (s : State) (die : Nat) : Bool :=
  decide (dieType die = .memory) && (mapGet s.mbc (dieOrd die) Mbc.reset).dgAt.isSome && tbit (reg s die 8 0x40C) 1

/-- A TEST_ONLY digest stops reading, as of a moment. -/
def pauseDigest (s : State) (die stop : Nat) : State :=
  if testDigest s die then
    let x := mapGet s.mbc (dieOrd die) Mbc.reset
    let n := match x.dgSince with
      | some t => min s.now stop - t
      | none => 0
    { s with mbc := mapPut Mbc.reset s.mbc (dieOrd die) ({ x with dgRan := x.dgRan + n, dgSince := none }) }
  else s

/-- A TEST_ONLY digest reads from now on. -/
def resumeDigest (s : State) (die : Nat) : State :=
  if testDigest s die then
    let x := mapGet s.mbc (dieOrd die) Mbc.reset
    { s with mbc := mapPut Mbc.reset s.mbc (dieOrd die) ({ x with dgSince := some s.now }) }
  else s

/-- A SLOT entry opens its slot (R153, R157); a TEST_ONLY digest reads in it where it is a test slot (R381). -/
def slotEntry (s : State) (die : Nat) (e : BitVec 128) : State :=
  let fr := frsOf s die
  let s1 := pauseDigest s die (fr.began + 64 * fr.slotEnd)
  let s2 := updFrs s1 die (fun fr => { fr with slotTypes := fld e 32 6, slotEnd := entAt e + fld e 40 24 })
  if tbit e 36 then resumeDigest s2 die else s2

/-- Whether an entry of a segment stands in its last slot: no SLOT entry has a larger AT than its slot (R153). -/
def inLastSlot (b : FBank) (g : Seg) (at_ : Nat) : Bool :=
  (segEntries b g).all (fun x => decide (entOp x ≠ 1) || decide (entAt x ≤ at_))

/-- Whether the condition of a JUMP holds (R157). -/
def jumpHolds (s : State) (die : Nat) (e : BitVec 128) : Bool :=
  let i := fld e 35 5
  let c :=
    match fld e 32 2 with
    | 1 => tbit (sampledReg s (barOff die 1 0x078)) i
    | 2 => tbit (reg s die 1 0x048) i
    | _ => true
  if tbit e 34 then !c else c

/-- A JUMP entry (R155, R157). -/
def jumpEntry (s : State) (die : Nat) (e : BitVec 128) : State :=
  if jumpHolds s die e then
    let b := progBank s die
    let fr := frsOf s die
    let g := segOf b fr.seg
    let target := fld e 40 8
    count
      (putFrs s die
        (if inLastSlot b g (entAt e) || decide (g.start + g.len ≥ baseTicks s die) then { fr with deferred := some target }
         else { fr with nextSeg := target }))
      die 1 0x07 1
  else s

/-! ## Batch slots (R166 to R169) -/

/-- The key of a job slot. -/
def slotKey (job slot : Nat) : Nat := job * 4096 + slot

/-- The newest point of a timeline at or before a step; free before the first. -/
def pointAt (l : List SlotPoint) (step : Nat) : SlotPoint :=
  match l with
  | [] => { step := 0, st := 0, len := 0 }
  | p :: r => if p.step ≤ step then p else pointAt r step

/-- The job slot's timeline on a die. -/
def slotLine (fr : Frs) (job slot : Nat) : List SlotPoint := mapGet fr.slots (slotKey job slot) []

/-- The step number of a job on a die (R167). -/
def jobStep (fr : Frs) (job : Nat) : Nat := mapGet fr.steps job 0

/-- The state of a job slot as a stage group with a lag sees it (R169): free before the plan started. -/
def slotSeen (fr : Frs) (job slot lag : Nat) : SlotPoint :=
  if jobStep fr job < mapGet fr.planSteps job 0 + lag then { step := 0, st := 0, len := 0 } else pointAt (slotLine fr job slot) (jobStep fr job - lag)

/-- The prompt tokens that remain at the start of a step (R167). -/
def tokensLeft (p : SlotPoint) (chunk step : Nat) : Nat := p.len - (step - p.step) * chunk

/-- A job of a bank by its tag. -/
def jobOf (b : FBank) (tag : Nat) : Option FJob :=
  match b.jobs.filter (fun j => decide (j.tag = tag)) with
  | [] => none
  | j :: _ => some j

/-- A stage group of a bank. -/
def groupOf (b : FBank) (i : Nat) : SGroup := nth b.groups i { tag := 0, lag := 0, layer := 0 }

/-- Whether a row of a slot-masked PUSH is active (R162). -/
def rowOn (fr : Frs) (b : FBank) (e : BitVec 128) (r : Nat) : Bool :=
  let g := groupOf b (fld e 78 8)
  match jobOf b g.tag with
  | none => false
  | some j =>
    let slot := fld e 66 12 + r
    if slot ≥ j.slots then false
    else
      let p := slotSeen fr g.tag slot g.lag
      match fld e 64 2 with
      | 1 => decide (p.st = 1) && decide (tokensLeft p j.chunk (jobStep fr g.tag - g.lag) > fld e 102 8)
      | 2 => decide (p.st = 2)
      | 3 => decide (p.st = 1) || decide (p.st = 2)
      | _ => false

/-- The row mask of a slot-masked PUSH (R134, R162). -/
def rowMask (fr : Frs) (b : FBank) (e : BitVec 128) : Nat :=
  foldState (fun m r => if rowOn fr b e r then m + 2 ^ r else m) 0 (upFrom 0 128)

/-- A descriptor with ROW_PRED_EN set and the mask in W8 to W11 (R162). -/
def maskDesc (d : BitVec 512) (m : Nat) : BitVec 512 := setFld (setFld d 25 1 1) 256 128 m

/-! ## Pushes (R160, R161) -/

/-- The variant a PUSH takes (R161). -/
def pushVariant (fr : Frs) (b : FBank) (e : BitVec 128) : Nat :=
  let g := groupOf b (fld e 78 8)
  b2n (tbit e 86 && tbit fr.replay g.tag) + 2 * b2n (tbit e 87 && mapGet fr.wideLayers (g.tag * 1024 + g.layer) false)

/-- The descriptors of a PUSH, in index order. -/
def pushDescs (fr : Frs) (b : FBank) (e : BitVec 128) : List (BitVec 512) :=
  let first := fld e 32 16 + pushVariant fr b e * fld e 88 14
  let l := (b.descs.drop first).take (fld e 48 8 + 1)
  if tbit e 62 then
    let m := rowMask fr b e
    l.map (fun d => maskDesc d m)
  else l

/-- Wakes a gated core for a PUSH: counted, and 0x6040 recorded (R160). -/
def implicitWake (s : State) (c : Nat) : State :=
  if coreStopped s c then
    recordError (count (wakeCore s c) (coreDie c) 1 0x06 1) (coreDie c) 1 0x6040 (coreOnDie c)
  else s

/-- Descriptors with their earliest cycles of entry: descriptor `j` at `c0 + 4 + j`. -/
def holdDescs (c q c0 : Nat) (l : List (BitVec 512)) : List HeldDesc :=
  match l with
  | [] => []
  | d :: r => { core := c, queue := q, desc := d, earliest := c0 + 4 } :: holdDescs c q (c0 + 1) r

/-- A PUSH entry (R160 to R162). -/
def pushEntry (s : State) (die : Nat) (e : BitVec 128) : State :=
  match physOf s die (fld e 56 4) with
  | none => s
  | some c =>
    let fr := frsOf s die
    let l := pushDescs fr (progBank s die) e
    let s1 := putFrs s die { fr with held := fr.held ++ holdDescs c (fld e 60 2) (clkCycleUp (core s c).clk s.now) l }
    implicitWake s1 c

/-- Removes the first held descriptor of a core. -/
def takeHeld (c : Nat) (l : List HeldDesc) : Option (HeldDesc × List HeldDesc) :=
  match l with
  | [] => none
  | h :: r =>
    if h.core = c then some (h, r)
    else
      match takeHeld c r with
      | none => none
      | some (x, q) => some (x, h :: q)

/-- Counter code 0x05 takes the core cycles before the present one in which the next descriptor of a core was held at a full queue (R160, R190). -/
def settleHeld (s : State) (die c : Nat) : State :=
  let fr := frsOf s die
  match takeHeld c fr.held with
  | none => s
  | some (h, _) =>
    let q := queueOf s c h.queue
    let lo := max (max h.earliest (mapGet fr.pushNext c 0)) (mapGet fr.heldTo c 0)
    let hi := if q.entries.length ≥ queueDepth then coreCycle s c else min q.roomAt (coreCycle s c)
    if lo < hi then countPast (putFrs s die { fr with heldTo := mapSet fr.heldTo c hi }) die 1 0x05 (hi - lo) else s

/-- The next held descriptor of a core enters its queue if it may (R160): its clock runs, its cycle has come, at most one a cycle, and the
queue has room. -/
def enterHeld (s0 : State) (die c : Nat) : State :=
  let s := settleHeld s0 die c
  let fr := frsOf s die
  match takeHeld c fr.held with
  | none => s
  | some (h, rest) =>
    if coreStopped s c then implicitWake s c
    else
      let cyc := coreCycle s c
      if decide ((core s c).clk.mode ≠ .run) || decide (cyc < h.earliest) || decide (cyc < mapGet fr.pushNext c 0)
          || decide ((queueOf s c h.queue).entries.length ≥ queueDepth) then s
      else
        count (enterQueue (putFrs s die { fr with held := rest, pushNext := mapSet fr.pushNext c (cyc + 1) }) c h.queue h.desc) die 1 0x04 1

/-! ## Request levels, REPORT and EXCHANGE (R173 to R179) -/

/-- The largest STRETCH_WIDE among norm-watch entries in RECOMPUTE or WIDE (R116, R173). -/
def nwLevel (s : State) (die : Nat) : Nat :=
  if dieType die = .compute then
    foldState (fun m i =>
      let st := fld (reg s die 1 (0x854 + 0x20 * i)) 0 2
      if st = 1 ∨ st = 2 then max m (fld (reg s die 1 (0x840 + 0x20 * i)) 14 4) else m) 0 (upFrom 0 16)
  else 0

/-- The FW level as sampled; a value above 16 asks for 16. -/
def fwLevel (s : State) (die : Nat) : Nat := min 16 (fld (sampledReg s (barOff die 1 0x070)) 0 5)

/-- DIE: the largest request level of a die (R173). -/
def dieLevelNow (s : State) (die : Nat) : Nat :=
  max (max (nwLevel s die) (frsOf s die).ovr) (max (frsOf s die).thr (fwLevel s die))

/-- STRETCH_REQ as it reads (R188). -/
def stretchReq (s : State) (die : Nat) : Word :=
  let fr := frsOf s die
  let fw := min 16 (fld (reg s die 1 0x070) 0 5)
  BitVec.ofNat 32 (max (max (nwLevel s die) fr.ovr) (max fr.thr fw) + nwLevel s die * 2 ^ 5 + fr.ovr * 2 ^ 10 + fr.thr * 2 ^ 15
    + fw * 2 ^ 20)

/-- STRETCH_STATE as it reads (R188). -/
def stretchState (fr : Frs) : Word :=
  BitVec.ofNat 32 (fr.s + fr.target * 2 ^ 5 + fr.below % 256 * 2 ^ 10 + fr.ovrHold % 256 * 2 ^ 18)

/-- A REPORT entry samples the die's level and sends it to die 0 (R175); die 0's own needs no message. -/
def reportEntry (s : State) (die : Nat) : State :=
  updFrs s die (fun fr => { fr with reported := some (frameNum s die, dieLevelNow s die) })

/-- A REPORT arrives at die 0 (R175). -/
def reportArrives (s : State) (src level : Nat) : State :=
  updFrs s 0 (fun fr => { fr with dieLevel := mapSet fr.dieLevel src (frameNum s 0, level) })

/-- The level of a die as die 0 knows it, and whether its REPORT of this frame is missing. -/
def heardLevel (s : State) (d : Nat) : Nat × Bool :=
  match mapFind (frsOf s 0).dieLevel d with
  | none => (0, true)
  | some (f, l) => (l, decide (f ≠ frameNum s 0))

/-- The module level at an EXCHANGE (R175). -/
def moduleLevel (s : State) : Nat :=
  foldState (fun m d => max m (heardLevel s d).1) (dieLevelNow s 0) (frsDies.filter (fun d => decide (d ≠ 0)))

/-- The missing REPORTs that die 0 counts (R175). -/
def missingReports (s : State) : Nat := (frsDies.filter (fun d => decide (d ≠ 0) && (heardLevel s d).2)).length

/-- An EXCHANGE entry of die 0 (R168, R179, R185). `boundary` is the module's boundary time as measured. -/
def exchangeEntry (s : State) (boundary : Int) : State :=
  let s1 := count s 0 1 0x0A (missingReports s)
  updFrs s1 0 (fun fr =>
    { fr with
      sent := some (frameNum s 0,
        { node := fld (reg s 90 8 0x040) 0 16, level := moduleLevel s, changes := fr.chgQueue.take 16, boundary := boundary }) })

/-! ## The slice agreement (R168, R179, R185, R186) -/

/-- Accepts changes in order, at most one per job slot and at most `n`. -/
def acceptChanges (n : Nat) (got l : List SlotChg) : List SlotChg :=
  match l with
  | [] => got
  | c :: r =>
    if got.length ≥ n then got
    else if got.any (fun g => decide (g.job = c.job) && decide (g.slot = c.slot)) then acceptChanges n got r
    else acceptChanges n (got ++ [c]) r

/-- Inserts an exchange in ascending node order. -/
def insertXchg (x : Xchg) (l : List Xchg) : List Xchg :=
  match l with
  | [] => [x]
  | y :: r => if x.node < y.node then x :: y :: r else y :: insertXchg x r

/-- The exchanges in ascending node order. -/
def sortXchgs (l : List Xchg) : List Xchg :=
  match l with
  | [] => []
  | x :: r => insertXchg x (sortXchgs r)

/-- The largest of a list of integers and a first one. -/
def maxInt (m : Int) (l : List Int) : Int :=
  match l with
  | [] => m
  | x :: r => maxInt (max m x) r

/-- The boundary time of a rack: that of its module with the lowest node number (R185); exchanges in ascending order. -/
def rackTime (l : List Xchg) (rack : Nat) : Option Int :=
  match l.filter (fun x => decide (x.node / 256 = rack)) with
  | [] => none
  | x :: _ => some x.boundary

/-- The lead of a rack over the rack whose boundaries fall latest (R185, R186). -/
def rackLead (l : List Xchg) (rack : Nat) : Int :=
  match rackTime l rack with
  | none => 0
  | some t => maxInt t (l.map (fun x => (rackTime l (x.node / 256)).getD t)) - t

/-- The agreement A(F) that the exchanges of frame F give, as a module of a rack receives it (R179). -/
def agreementOf (frame rack : Nat) (xs : List Xchg) : Agreement :=
  let l := sortXchgs xs
  { frame := frame, target := foldState (fun m x => max m x.level) 0 l,
    changes := acceptChanges 16 [] (l.map (fun x => x.changes.take 16)).flatten, gap := decide (rackLead l rack ≥ 5),
    offset := rackLead l rack }

/-- A(F) reaches a die (R168, R179, R187): die 0 takes this module's accepted changes off its queue and shows the offset. -/
def agreementArrives (s : State) (die : Nat) (a : Agreement) : State :=
  let own := fld (reg s 90 8 0x040) 0 16
  let s1 := updFrs s die (fun fr =>
    { fr with
      agreements := fr.agreements ++ [a],
      chgQueue := if die = 0 then foldState (fun q x => if x.node = own then q.erase x else q) fr.chgQueue a.changes else fr.chgQueue })
  let s2 := if die = 0 then setRegFld s1 0 1 0x07C 0 16 (unsign 16 a.offset) else s1
  if a.offset > 80 ∨ a.offset < -80 then leaveStep s2 die 0x4042 (unsign 16 a.offset) else s2

/-- The firmware submits a slot change: the write of SLOT_CHG1 (R168). -/
def submitChange (s : State) (v : Word) : State :=
  let c0 := reg s 0 1 0x0C0
  let fr := frsOf s 0
  if fr.chgQueue.length ≥ 64 then recordError s 0 1 0x1043 (fld c0 12 8)
  else
    putFrs s 0 { fr with chgQueue := fr.chgQueue ++ [
      { node := fld (reg s 90 8 0x040) 0 16, job := fld c0 12 8, slot := fld c0 0 12, newState := fld c0 20 2,
        len := fld v 0 23 }] }

/-! ## Step notices (R182 to R184) -/

/-- A step notice reaches a die (R183, R184): one for a frame whose end has passed leaves the step. -/
def noticeArrives (s : State) (die : Nat) (n : StepNote) : State :=
  if !frsRunning s die then s
  else if n.frame < frameNum s die then leaveStep s die 0x4041 (n.job.val + n.layer.val * 256)
  else updFrs s die (fun fr => { fr with notices := fr.notices ++ [n] })

/-- The jobs that replay in the frame after a frame, from its notices (R183). -/
def replaySet (l : List StepNote) (frame : Nat) : BitVec 256 :=
  foldState (fun m n => if n.frame = frame ∧ n.replay then m ||| BitVec.ofNat 256 (2 ^ n.job.val) else m) 0#256 l

/-- The layer states after the notices of a frame (R161, R183). -/
def wideAfter (l : List StepNote) (frame : Nat) (m : Map Bool) : Map Bool :=
  foldState (fun w n => if n.frame = frame then mapPut false w (n.job.val * 1024 + n.layer.val) n.wide else w) m l

/-! ## A frame boundary (R150 to R152) -/

/-- Whether a slot's state changes by itself at a step, and to what (R166, R169). -/
def autoChange (j : FJob) (p : SlotPoint) (step : Nat) : Option SlotPoint :=
  if p.st = 1 ∧ step ≥ p.step + ceilDiv p.len (max j.chunk 1) then some { step := step, st := 2, len := 0 }
  else if p.st = 3 ∧ step ≥ p.step + j.depth then some { step := step, st := 0, len := 0 }
  else none

/-- Points older than every PIPE_LAG can see are dropped. -/
def trimLine (l : List SlotPoint) (step : Nat) : List SlotPoint :=
  match l with
  | [] => []
  | p :: r => if p.step + 255 ≤ step then (if p.st = 0 then [] else [p]) else p :: trimLine r step

/-- The timelines of a job after the automatic transitions of its new step (R169). -/
def autoSlots (j : FJob) (step : Nat) (m : Map (List SlotPoint)) : Map (List SlotPoint) :=
  foldState (fun u kv =>
    if kv.1 / 4096 = j.tag then
      match kv.2 with
      | [] => u
      | p :: _ =>
        match autoChange j p step with
        | some q => mapPut [] u kv.1 (trimLine (q :: kv.2) step)
        | none => mapPut [] u kv.1 (trimLine kv.2 step)
    else u) m m

/-- Whether a submitted transition is one of R166. -/
def changeLegal (st new len : Nat) : Bool :=
  (decide (st = 0) && decide (new = 1) && decide (len ≥ 1)) || (decide (st = 0) && decide (new = 2) && decide (len = 0))
    || (decide (st = 1) && decide (new = 3)) || (decide (st = 2) && decide (new = 3))

/-- Applies or refuses a due slot change on a die; die 0 of the submitting module reports the result (R168, R190). -/
def applyChange (s : State) (die : Nat) (c : SlotChg) : State :=
  let fr := frsOf s die
  let step := jobStep fr c.job
  let l := slotLine fr c.job c.slot
  let inTable :=
    match jobOf (progBank s die) c.job with
    | none => false
    | some j => decide (c.slot < j.slots)
  let ok := inTable && changeLegal (pointAt l step).st c.newState c.len
  let s1 :=
    if ok then
      putFrs s die { fr with
        slots := mapPut [] fr.slots (slotKey c.job c.slot) (trimLine ({ step := step, st := c.newState, len := c.len } :: l) step) }
    else s
  if die = 0 ∧ c.node = fld (reg s 90 8 0x040) 0 16 then
    let s2 := setReg s1 0 1 0x0CC (BitVec.ofNat 32 (frameNum s 0))
    let s3 := setRegFld s2 0 1 0x0C8 8 1 (b2n (!ok))
    if ok then setIrq s3 0 1 17
    else setIrq (recordError s3 0 1 0x1042 (c.slot + c.job * 2 ^ 12 + c.newState * 2 ^ 20)) 0 1 18
  else s1

/-- Marks the LOCKED commands of a queue that a boundary passes as overrun, and counts those newly marked (R60). -/
def overrunQueue (q : Queue) : Queue × Nat :=
  ({ q with entries := q.entries.map (fun e => if dLocked e.desc then { e with overrun := true } else e) },
   (q.entries.filter (fun e => dLocked e.desc && !e.overrun)).length)

/-- A boundary at one core (R60, R150): CYCLE and the overrun marks. `n` counts the commands that became overrun. -/
def boundaryCore (acc : State × Nat) (c : Nat) : State × Nat :=
  let s := acc.1
  let x := core s c
  let q0 := overrunQueue x.q0
  let q1 := overrunQueue x.q1
  let q2 := overrunQueue x.q2
  let q3 := overrunQueue x.q3
  let n := q0.2 + q1.2 + q2.2 + q3.2
  let clk := { x.clk with frameC := clkCycleUp x.clk s.now }
  (count (putCore s c { x with q0 := q0.1, q1 := q1.1, q2 := q2.1, q3 := q3.1, clk := clk }) (coreDie c) (corePage c 0) 0x04 n,
   acc.2 + n)

/-- The cores of a die, by their numbers in the module. -/
def dieCores (die : Nat) : List Nat := if dieType die = .compute then upFrom (dieOrd die * 18) 18 else []

/-- OVR after a boundary (R174). -/
def stepOvr (s : State) (die late : Nat) : State :=
  updFrs s die (fun fr =>
    if late > 0 then { fr with ovr := min 16 (fr.ovr + 1), ovrHold := 0 }
    else if fr.ovrHold + 1 ≥ (progBank s die).ovrHold then { fr with ovr := fr.ovr - 1, ovrHold := 0 }
    else { fr with ovrHold := fr.ovrHold + 1 })

/-- An armed program swap takes effect, or is refused for an empty bank (R34, R189). -/
def swapProgram (s : State) (die : Nat) : State :=
  if tbit (reg s die 1 0x064) 1 && armedBefore s (barOff die 1 0x060) s.now then
    let nb := fld (reg s die 1 0x060) 0 1
    let s1 := setRegFld s die 1 0x064 1 1 0
    if bankEmpty (if nb = 1 then (frsOf s die).bankB else (frsOf s die).bankA) then recordError s1 die 1 0x1010 nb
    else setRegFld s1 die 1 0x064 0 1 nb
  else s

/-- The applied level after the governing TARGET (R180). -/
def levelStep (decay target : Nat) (fr : Frs) : Frs :=
  if target ≥ fr.s then { fr with s := target, target := target, below := 0 }
  else if fr.below + 1 = decay then { fr with s := fr.s - 1, target := target, below := 0 }
  else { fr with target := target, below := fr.below + 1 }

/-- The agreement that governs a boundary, if it has arrived. -/
def governing (fr : Frs) (frame lag : Nat) : Option Agreement :=
  match fr.agreements.filter (fun a => decide (a.frame + lag = frame)) with
  | [] => none
  | a :: _ => some a

/-- Step 3 of a boundary (R179 to R181, R186): the level and the gap of the new frame. Frames before the first governed one keep the
level (DEDUCED, log entry 20). -/
def fixStretch (s : State) (die : Nat) : State :=
  let b := progBank s die
  let fr := frsOf s die
  let f := frameNum s die
  if outOfStep s die then putFrs s die { fr with gap := false }
  else if f < b.agreeLag then putFrs s die { fr with gap := false }
  else
    match governing fr f b.agreeLag with
    | none => putFrs (leaveStep s die 0x4040 (f % 2 ^ 24)) die { fr with gap := false }
    | some a =>
      let fr1 := levelStep b.decay a.target fr
      let s1 := putFrs s die
        { fr1 with gap := a.gap, agreements := fr.agreements.filter (fun x => decide (x.frame ≥ a.frame)),
                   chgWait := fr1.chgWait ++ a.changes.map (fun c => (c, f)) }
      if fr1.s ≠ fr.s then setIrq s1 die 1 19 else s1

/-- Die 0's accounting of the step that a boundary ends (R172): committed when its frame is not followed by a replay of it. -/
def account (b : FBank) (rep : BitVec 256) (fr : Frs) : Frs :=
  foldState (fun u j =>
    if tbit rep j.tag then { u with acctReplays := mapSet u.acctReplays j.tag (mapGet u.acctReplays j.tag 0 + 1) }
    else
      let n := ((upFrom 0 j.slots).filter (fun i =>
        let st := (slotSeen fr j.tag i 0).st
        decide (st = 1) || decide (st = 2))).length
      { u with acctSteps := mapSet u.acctSteps j.tag (mapGet u.acctSteps j.tag 0 + 1),
               acctSlots := mapSet u.acctSlots j.tag (mapGet u.acctSlots j.tag 0 + n) }) fr b.jobs

/-- Step 4 of a boundary for one job (R167 to R169): the step advances unless it is replayed, then its automatic transitions. -/
def stepJob (rep : BitVec 256) (fr : Frs) (j : FJob) : Frs :=
  if tbit rep j.tag then fr
  else
    let t := jobStep fr j.tag + 1
    { fr with steps := mapSet fr.steps j.tag t, slots := autoSlots j t fr.slots }

/-- The submitted changes due at a boundary are applied, but those of replaying jobs wait (R168). -/
def dueChanges (s : State) (die : Nat) (rep : BitVec 256) : State :=
  let fr := frsOf s die
  let due := fr.chgWait.filter (fun p => !tbit rep p.1.job)
  let s1 := putFrs s die { fr with chgWait := fr.chgWait.filter (fun p => tbit rep p.1.job) }
  foldState (fun u p => applyChange u die p.1) s1 due

/-- Step 5 of a boundary (R183): the replay set and the layer states. -/
def latchReplay (s : State) (die ended : Nat) (rep : BitVec 256) : State :=
  let s1 := updFrs s die (fun fr =>
    { fr with replay := rep, carry := 0#256, wideLayers := wideAfter fr.notices ended fr.wideLayers,
              notices := fr.notices.filter (fun n => decide (n.frame > ended)) })
  if rep = 0#256 then s1 else setIrq (count s1 die 1 0x08 1) die 1 20

/-- Step 6 of a boundary (R155): the first segment of the new frame; a program taken at a swap begins with its FIRST_SEG (DEDUCED). -/
def firstSegment (s : State) (die : Nat) (old : FBank) (swapped : Bool) : State :=
  let b := progBank s die
  updFrs s die (fun fr =>
    let g := if swapped then b.firstSeg else (fr.deferred.getD (segOf old fr.seg).nxt)
    { fr with seg := g, idx := 0, nextSeg := (segOf b g).nxt, deferred := none, slotTypes := 0, slotEnd := 0, startNext := s.now })

/-- A frame begins at this moment with the level and gap fixed (R151). -/
def beginFrame (s : State) (die : Nat) : State :=
  let base := baseTicks s die
  let s1 := updFrs s die (fun fr =>
    { fr with began := s.now, ends := s.now + 64 * (extTicks base fr.s + (if fr.gap then 5 else 0)) })
  let fr := frsOf s1 die
  let s2 := count s1 die 1 0x01 1
  let s3 := if fr.s > 0 then count s2 die 1 0x02 1 else s2
  let s4 := if fr.gap then count s3 die 1 0x09 1 else s3
  setRegFld (setRegFld s4 die 1 0x07C 16 1 (b2n fr.gap)) die 1 0x068 0 24
    ((progBank s die).agreeLag + (progBank s die).decay * 2 ^ 8 + (progBank s die).ovrHold * 2 ^ 16)

/-- A stop takes effect (R189): CYCLE holds 0, and armed swaps stay pending. Held descriptors still enter their queues (R160). No rule says that the
boundary that stops frames marks queued LOCKED commands overrun: the model marks none there (DESIGN CHOICE, log entry 27). -/
def stopFrames (s : State) (die : Nat) : State :=
  let s1 := setRegFld s die 1 0x044 0 2 0
  resumeDigest (updFrs s1 die (fun fr => { fr with stop := false, slotTypes := 0, slotEnd := 0 })) die

/-- What a start leaves of a sequencer's earlier frames: no agreement, notice or REPORT of them counts, but a recomputation that a fallback switch
carries runs in frame 0 (R118); the applied level and the timelines carry on (DEDUCED, log entry 20). -/
def startFresh (fr : Frs) (nwEn : Bool) : Frs :=
  { fr with gap := false, stop := false, agreements := [], notices := [], replay := fr.carry, carry := 0#256, nwEn := nwEn, verdicts := [], reported := none,
            sent := none, dieLevel := fr.dieLevel.map (fun p => (p.1, (2 ^ 32, p.2.2))) }

/-- A start takes effect (R150, R181, R189): frame 0 begins; `swaps` are the other armed swaps of step 2. LOCKED commands queued at the start are
marked overrun and counted as at a boundary, while OVR does not step (R60 and R174 name boundaries; DESIGN CHOICE, log entry 27). -/
def startFrames (s : State) (die : Nat) (swaps : State → State) : State :=
  let s1 := setRegFld (setReg (pauseDigest s die s.now) die 1 0x048 0#32) die 1 0x044 0 3 1
  let s2 := (foldState boundaryCore (s1, 0) (dieCores die)).1
  let s3 := swaps (swapProgram s2 die)
  let s4 := updFrs s3 die (fun fr =>
    { startFresh fr (tbit (reg s3 die 1 0x800) 0 && decide (dieType die = .compute)) with planSteps := fr.steps })
  beginFrame (firstSegment s4 die (progBank s4 die) true) die

/-- Steps 1 to 6 of a frame boundary on a die (R152); `swaps` are the other armed swaps of step 2. -/
def frameBoundary (s : State) (die : Nat) (swaps : State → State) : State :=
  let ended := frameNum s die
  let old := progBank s die
  let rep := replaySet (frsOf s die).notices ended
  let s1 := setReg s die 1 0x048 (BitVec.ofNat 32 (ended + 1))
  let s2 := if die = 0 then updFrs s1 0 (account old rep) else s1
  let oc := foldState boundaryCore (s2, 0) (dieCores die)
  let s3 := if dieType die = .compute then stepOvr oc.1 die oc.2 else oc.1
  let s4 := swapProgram s3 die
  let swapped := decide (fld (reg s4 die 1 0x064) 0 1 ≠ fld (reg s die 1 0x064) 0 1)
  let s5 := fixStretch (swaps s4) die
  let s6 := updFrs s5 die (fun fr =>
    let u := foldState (stepJob rep) fr (progBank s5 die).jobs
    if swapped then { u with planSteps := u.steps } else u)
  let s7 := dueChanges s6 die rep
  let s8 := latchReplay s7 die ended rep
  let s9 := updFrs s8 die (fun fr => { fr with nwEn := tbit (reg s8 die 1 0x800) 0 && decide (dieType die = .compute) })
  beginFrame (firstSegment s9 die old swapped) die

/-! ## Register writes of the FRS page (R188, R189) -/

/-- A write of FRAME_CTRL (R189). LEN is refused while RUN is 1; only a write that would change it is such a write. A start that may not be
armed refuses the whole write, and RUN 1 while frames run takes back a pending stop (DEDUCED, log entries 27 and 39). -/
def writeFrameCtrl (s : State) (die : Nat) (v : Word) : State :=
  let run := tbit (reg s die 1 0x040) 24
  let lenSame := decide (fld v 0 24 = fld (reg s die 1 0x040) 0 24)
  let s0 :=
    if run then (if lenSame then s else recordError s die 1 0x1041 0x040)
    else setRegFld s die 1 0x040 0 24 (fld v 0 24)
  if tbit v 24 then
    if run || startArmed s die then s0
    else if frsRunning s die then updFrs (setRegFld s0 die 1 0x040 24 1 1) die (fun fr => { fr with stop := false })
    else if syncEpoch s die < (reg s die 1 0x05C).toNat then
      setRegFld (setRegFld s0 die 1 0x040 24 1 1) die 1 0x044 1 1 1
    else recordError s die 1 0x1041 0x040
  else
    let s1 := setRegFld s0 die 1 0x040 24 1 0
    if startArmed s die then setRegFld s1 die 1 0x044 1 1 0
    else if frsRunning s die then updFrs s1 die (fun fr => { fr with stop := true })
    else s1

/-- RUN 0 is written to a die's frame sequencer. -/
def runZero (s : State) (die : Nat) : State :=
  if reachable s die 1 && frsRunning s die then writeFrameCtrl s die (setBit (reg s die 1 0x040) 24 false) else s

/-- Fault classes 2 and 3 (R458): the module writes RUN 0 on all its frame sequencers. -/
def stopModule (s : State) : State := foldState runZero s frsDies

/-- A write of PROG_CTRL (R34, R189). -/
def writeProgCtrl (s : State) (die : Nat) (v : Word) : State :=
  if tbit (reg s die 1 0x064) 1 then recordError s die 1 0x1041 0x060
  else
    let s1 := setRegFld s die 1 0x060 0 1 (fld v 0 1)
    if tbit v 1 then noteArm (setRegFld s1 die 1 0x064 1 1 1) (barOff die 1 0x060) else s1

/-- A write of SYNC_EPOCH or START_EPOCH: refused while RUN is 1 (R189). -/
def writeEpoch (s : State) (die off : Nat) (v : Word) : State :=
  if tbit (reg s die 1 0x040) 24 then recordError s die 1 0x1041 off
  else if off = 0x054 then
    updFrs (setReg s die 1 off v) die (fun fr => { fr with epochBegan := s.now - (s.now - fr.epochBegan) % (65536 * 64) })
  else setReg s die 1 off v

/-- Slot states of sixteen job slots as a SLOT_STATE word shows them (R188). -/
def slotStateWord (s : State) (w : Nat) : Word :=
  let fr := frsOf s 0
  let job := fld (reg s 0 1 0x0D0) 0 8
  BitVec.ofNat 32 (foldState (fun m i => m + (slotSeen fr job (16 * w + i) 0).st * 4 ^ i) 0 (upFrom 0 16))

end Sys2Proof.Machine
end

