-- ==== Sys2Proof/Machine/HostOps.lean ====
section
/-!
DEFINITION. Sys2Proof/Machine/HostOps.lean: what the module does towards the host: writes to host memory, MSI-X vectors (R499), the log ring
(R505, R507), control slots (R153), and the feature floor (R494).
-/
namespace Sys2Proof.Machine

/-- The die of a Trunk cluster or tracker: 0 is die 0, 1 is die 99. -/
def trDie (k : Nat) : Nat := if k = 0 then 0 else 99

/-- The state with the host side changed. -/
def updHost (s : State) (f : HostSt → HostSt) : State := { s with host := f s.host }

/-- Bytes written to host memory. -/
def hostBytes (h : HostSt) (a : Nat) (l : List Byte) : HostSt :=
  match l with
  | [] => h
  | b :: r => hostBytes { h with mem := mapSet h.mem a b } (a + 1) r

/-- A host write of bytes at an address. -/
def putHost (s : State) (a : Nat) (l : List Byte) : State := updHost s (fun h => hostBytes h a l)

/-- The state in which the control slot bit of SLOT_TYPES is set, or frames do not run, on a die (R153, R154). -/
def inCtl (s : State) (die : Nat) : Bool := !frsRunning s die || decide ((frsOf s die).slotTypes / 32 % 2 = 1)

/-- A name for the present control slot of a die, while frames run in one. -/
def ctlSlot (s : State) (die : Nat) : Option Nat :=
  if frsRunning s die && decide ((frsOf s die).slotTypes / 32 % 2 = 1) then some (frameNum s die * 2 ^ 24 + (frsOf s die).slotEnd) else none

/-! ## MSI-X (R499) -/

/-- The Mask bit of a vector's table entry; a vector is masked at reset (PRESUMED from the PCIe specification, log entry 36). -/
def vecMasked (h : HostSt) (v : Nat) : Bool := tbit (mapGet h.msix (4 * v + 3) 1#32) 0

/-- A vector is sent, or pending while it is masked (R499). -/
def raiseVec (s : State) (v : Nat) : State :=
  if vecMasked s.host v then updHost s (fun h => { h with pending := mapPut false h.pending v true })
  else count (updHost s (fun h => { h with sent := v :: h.sent })) 1 8 0x67 1

/-- A ring vector is raised at most once per control slot of its die (R499). -/
def raiseRing (s : State) (k v : Nat) : State :=
  match ctlSlot s (trDie k) with
  | none => raiseVec s v
  | some n =>
    if mapFind s.host.raised v = some n then s else raiseVec (updHost s (fun h => { h with raised := mapSet h.raised v n })) v

/-- A write of a word of the MSI-X table: a pending vector that is unmasked is sent (R498, R499). -/
def writeMsix (s : State) (i : Nat) (v : Word) : State :=
  let s1 := updHost s (fun h => { h with msix := mapSet h.msix i v })
  let n := i / 4
  if i % 4 = 3 ∧ !tbit v 0 ∧ mapGet s.host.pending n false then
    raiseVec (updHost s1 (fun h => { h with pending := mapErase h.pending n })) n
  else s1

/-! ## Features (R494, R495) -/

/-- Whether a feature is in the floor of the running plan's slice. -/
def hasFeature (s : State) (n : Nat) : Bool := tbit (reg s 0 8 (0x090 + 4 * (n / 32))) (n % 32)

/-! ## The log ring (R505 to R507) -/

/-- Whether Fradin firmware runs: FW_STATUS.STATE (R510). -/
def fwRuns (s : State) : Bool := decide (fld (reg s 0 8 0x050) 0 2 = 2)

/-- Bytes of nine argument words that the manual defines per trace point and does not give: free values (log entry 9). -/
def logArgs (s : State) : List Byte × State :=
  foldState (fun a i => (a.1 ++ toLE 4 (Config.freeWord 505 i a.2.fresh).toNat, a.2)) ([], { s with fresh := s.fresh + 1 }) (upFrom 0 9)

/-- An entry of the log ring of Trunk cluster `k` (R505). -/
def logEntry (s : State) (k sev code point src job : Nat) : State :=
  let n := nth s.host.logN k 0
  let a := logArgs s
  let tag := if hasFeature s 10 then job else 0xFF
  let frame := if frsRunning s 0 then frameNum s 0 else 0xFFFFFFFF
  let e := toLE 8 n ++ toLE 8 s.power.slowMs ++ toLE 4 frame ++ toLE 2 code ++ toLE 2 point ++ toLE 1 sev ++ toLE 1 src ++ toLE 1 tag
    ++ toLE 1 0 ++ a.1
  let s1 := updHost a.2 (fun h => { h with log := mapSet h.log (k * 16384 + n % 16384) e, logN := setNth h.logN k (n + 1) })
  let s2 := setReg s1 (trDie k) 8 0x0B0 (BitVec.ofNat 32 (n % 2 ^ 32))
  let s3 := count s2 (trDie k) 8 0x98 1
  if sev = 4 then raiseVec s3 0 else s3

/-- An event of a severity: written at LOG_CTRL.LEVEL or above, ALERT and ERROR always (R505). -/
def logEvent (s : State) (k sev code point src job : Nat) : State :=
  if !fwRuns s then s
  else if sev ≥ 3 ∨ sev ≥ fld (reg s (trDie k) 8 0x0A0) 0 3 then logEntry s k sev code point src job else s

/-- A trace point of a group, whose number within the group is a free value (R507, log entry 37). -/
def tracePoint (s : State) (k group src job : Nat) : State :=
  if fwRuns s && tbit (reg s (trDie k) 8 (if group < 32 then 0x0C0 else 0x0C4)) (group % 32) then
    let d := drawFree s 507 group
    logEntry d.2 k 0 0 (group * 1024 + d.1.toNat % 1024) src job
  else s

/-! ## The Heartwood die's approved mode (R486) -/

/-- APPROVED as the conditions of R486 stand. -/
def showApproved (s : State) : State :=
  let st := reg s 9 8 0x040
  setRegFld s 9 8 0x040 2 1 (b2n (tbit st 0 && !tbit st 1 && !s.sec.unapproved))

/-- A condition of R486 has failed: APPROVED stays 0 until the next cold start. -/
def leaveApproved (s : State) : State := showApproved { s with sec := { s.sec with unapproved := true } }

/-- A plan load: the first one since a cold start finds PLAN_SIG_REQ as it then stays (R486, R489). -/
def notePlanLoad (s : State) : State :=
  let first := !s.sec.planSeen
  let s1 := { s with sec := { s.sec with planSeen := true } }
  if first && !tbit (reg s 9 8 0x044) 0 then leaveApproved s1 else s1

end Sys2Proof.Machine
end

