-- ==== Sys2Proof/Machine/NormWatch.lean ====
section
/-!
DEFINITION. Sys2Proof/Machine/NormWatch.lean: the norm watch of a compute die (R110 to R122).
-/
namespace Sys2Proof.Machine

/-- The offset of a register of norm-watch entry `i` (R120): 0x840 CFG, 0x844 ADDR, 0x848 VERDICT, 0x84C MEAN, 0x850 LAST, 0x854 STATE. -/
def nwOff (i off : Nat) : Nat := off + 0x20 * i

/-- A register of a norm-watch entry. -/
def nwReg (s : State) (die i off : Nat) : Word := reg s die 1 (nwOff i off)

/-- The state with a field of a norm-watch entry's register replaced. -/
def setNw (s : State) (die i off lo n v : Nat) : State := setRegFld s die 1 (nwOff i off) lo n v

/-- What a verdict found in its sample (R111): the jump, and the value v where it is defined. -/
inductive Sample where
  | missing
  | odd
  | value (v : Word)
deriving DecidableEq, Repr

/-- The sample that a word read gives (R111). -/
def sampleOf (w : Word) (poisoned : Bool) : Sample :=
  if poisoned ∨ w = 0xFFFFFFFF#32 then .missing
  else
    match f32dec w with
    | .fin neg m _ => if neg ∧ m ≠ 0 then .odd else .value (f32sqrt w)
    | _ => .odd

/-- Whether v lies outside the ratios about the mean (R111): compared exactly. -/
def ratioJump (r low m v : Word) : Bool :=
  vLt (vMul (f32dec r) (f32dec m)) (f32dec v)
    || (vLt (f32dec 0#32) (f32dec low) && vLt (f32dec v) (vMul (f32dec low) (f32dec m)))

/-- The updated mean (R111): m + 2^−ALPHA × (v − m), each operation rounded to FP32 (DEDUCED, log entry 21); v itself while m is +0 in
warm-up. -/
def meanAfter (alpha : Nat) (warm : Bool) (m v : Word) : Word :=
  if warm ∧ m = 0#32 then v
  else f32add m (f32ofVal (vMul (f32dec (f32sub v m)) (.fin false 1 (-(alpha : Int)))))

/-- What a verdict does to the fallback state machine (R112, R113). -/
structure Verdict where
  state : Nat
  wideLeft : Nat
  /-- Tokens released with the anomaly flag. -/
  flag : Bool
  /-- The step is recomputed. -/
  recompute : Bool
deriving DecidableEq, Repr

/-- The transition of the fallback state machine (R112, R113): `warm` is WARM_LEFT after this verdict, `again` whether the frame recomputes a
step of the job, `first` whether the layer jumped when the step was first computed, `fp32` whether its activations are FP32. A layer that first jumps in
the recomputation becomes WIDE whatever its format. -/
def verdictStep (st wl warm : Nat) (jump again first fp32 : Bool) : Verdict :=
  match st with
  | 1 => { state := 2, wideLeft := 64, flag := jump, recompute := false }
  | 2 =>
    if jump then { state := 2, wideLeft := 64, flag := true, recompute := false }
    else if again then { state := 2, wideLeft := wl, flag := false, recompute := false }
    else if wl - 1 = 0 then { state := if warm > 0 then 3 else 0, wideLeft := 0, flag := false, recompute := false }
    else { state := 2, wideLeft := wl - 1, flag := false, recompute := false }
  | _ =>
    if jump then
      if again && !(fp32 && first) then { state := 2, wideLeft := 64, flag := true, recompute := false }
      else if fp32 then { state := st, wideLeft := wl, flag := true, recompute := false }
      else { state := 1, wideLeft := wl, flag := false, recompute := true }
    else { state := if st = 3 ∧ warm = 0 then 0 else st, wideLeft := wl, flag := false, recompute := false }

/-- Whether a layer state is RECOMPUTE or WIDE. -/
def isWide (st : Nat) : Bool := decide (st = 1) || decide (st = 2)

/-- The moment at which the verdict tick of an entry begins, counted back from the end of the extension (R110, R151). -/
def verdictAt (s : State) (die i : Nat) : Nat :=
  let fr := frsOf s die
  fr.began + 64 * (extTicks (baseTicks s die) fr.s - fld (nwReg s die i 0x848) 0 16)

/-- Whether the job of entry `i` is skipped on its norm owner's physical core: the entry takes no verdict then (R269). -/
def watchSkipped (s : State) (die i : Nat) : Bool :=
  let cfg := nwReg s die i 0x840
  match physOf s die (fld cfg 10 4) with
  | none => false
  | some c => tbit (jobBits s c 0x0A0) (fld cfg 18 8)

/-- Whether VERDICT.TICKS of entry `i` names a tick of the present frame (R110, R120). -/
def ticksInFrame (s : State) (die i : Nat) : Bool :=
  let n := fld (nwReg s die i 0x848) 0 16
  decide (0 < n) && decide (n ≤ extTicks (baseTicks s die) (frsOf s die).s)

/-- Whether entry `i` takes its verdict now: enabled, VALID, its job not skipped, and at its tick for the first time in this frame (R110, R121,
R269). -/
def verdictDue (s : State) (die i : Nat) : Bool :=
  let fr := frsOf s die
  frsRunning s die && fr.nwEn && tbit (nwReg s die i 0x840) 31 && ticksInFrame s die i && !watchSkipped s die i
    && decide (verdictAt s die i ≤ s.now)
    && decide (verdictAt s die i + 64 > s.now) && decide (mapGet fr.verdicts i 0 ≠ frameNum s die + 1)

/-- The consumed marker is written to the sample word one core cycle after the read (R110): at once where the core's clock is stopped. -/
def markSample (s : State) (c a : Nat) : State :=
  if (core s c).clk.mode = .run then updCore s c (fun x => { x with markers := x.markers ++ [(coreCycle s c + 1, a)] })
  else updCore s c (fun x => spmWrite x a [0xFF#8, 0xFF#8, 0xFF#8, 0xFF#8] false)

/-- The sample word of entry `i` read through the crossbar; the consumed marker follows (R110). A word that cannot be read is missing. -/
def readSample (s : State) (die i : Nat) : Sample × State :=
  let cfg := nwReg s die i 0x840
  let a := fld (nwReg s die i 0x844) 0 25
  let no : Ecc := { entryBad := false, badWords := [], corrected := 0, met := [] }
  match physOf s die (fld cfg 10 4) with
  | none => (.missing, s)
  | some c =>
    let r := portAccess s c { off := a, write := false, len := 4, data := [], poison := [] } no
    if r.2.err = 0 then
      (sampleOf (BitVec.ofNat 32 (ofLE r.2.data)) (!r.2.poison.isEmpty), markSample (count r.1 die (corePage c 4) 0x04 1) c a)
    else (.missing, r.1)

/-! ## Wide-all events (R117) -/

/-- The layers of a job over the slice, as the plan in force places them. -/
def jobLayers (s : State) (job : Nat) : List Nat :=
  match s.plan with
  | none => []
  | some pl => (pl.stages.filter (fun g => decide (g.job = job))).map (fun g => g.layer)

/-- STRETCH_FW of die 0 for the wide-all events that stand (R176). -/
def wideStretch (s : State) : State :=
  putSampled s (barOff 0 1 0x070) (setFld (reg s 0 1 0x070) 0 5 (if s.serv.wideAll.isEmpty then 0 else 9))

/-- The firmware of die 0 takes a layer's state (R117): an event begins when every layer of the job is in RECOMPUTE or WIDE, and ends at the first step
in which one is NORMAL. -/
def noteLayer (s : State) (job layer : Nat) (wide normal : Bool) : State :=
  if !fwRuns s then s
  else
    let s1 := { s with serv := { s.serv with
      wideLayer := mapPut false s.serv.wideLayer (job * 1024 + layer) wide,
      normalLayer := mapPut false s.serv.normalLayer (job * 1024 + layer) normal } }
    let l := jobLayers s1 job
    let all := !l.isEmpty && l.all (fun y => mapGet s1.serv.wideLayer (job * 1024 + y) false)
    let was := mapGet s.serv.wideAll job false
    if all && !was then
      wideStretch (logEvent (recordError { s1 with serv := { s1.serv with wideAll := mapSet s1.serv.wideAll job true } } 0 8 0x2042 job) 0 4 0x2042 0 0 job)
    else if was && l.any (fun y => mapGet s1.serv.normalLayer (job * 1024 + y) false) then
      wideStretch { s1 with serv := { s1.serv with wideAll := mapErase s1.serv.wideAll job } }
    else s1

/-- A verdict of entry `i` (R110 to R115, R122, R182). A layer that leaves WARMUP sends no notice; the firmware sees its state on its own module
(R117). -/
def takeVerdict (s : State) (die i : Nat) (fp32 : Bool) : State :=
  let cfg := nwReg s die i 0x840
  let layer := fld cfg 0 10
  let job := fld cfg 18 8
  let stw := nwReg s die i 0x854
  let st := fld stw 0 2
  let warm0 := fld stw 9 8
  let left := decide (st = 3) || decide (warm0 > 0)
  let again := tbit (frsOf s die).replay job
  let m := nwReg s die i 0x84C
  let sm := readSample s die i
  let info := i + layer * 16
  let s1 := updFrs sm.2 die (fun fr => { fr with verdicts := mapSet fr.verdicts i (frameNum s die + 1) })
  let jump :=
    match sm.1 with
    | .value v => !left && ratioJump (reg s die 1 0x804) (reg s die 1 0x808) m v
    | _ => true
  let s2 :=
    match sm.1 with
    | .missing => count (recordError s1 die 1 0x2041 info) die 1 0x43 1
    | .odd => s1
    | .value v =>
      let u := setReg s1 die 1 (nwOff i 0x850) v
      if jump then u else setReg u die 1 (nwOff i 0x84C) (meanAfter (fld (reg s die 1 0x800) 1 3) left m v)
  let warm := warm0 - 1
  let step := jobStep (frsOf s die) job
  let v := verdictStep st (fld stw 2 7) warm jump again (decide (mapGet (frsOf s die).jumps i 0 = step + 1)) fp32
  let s3 := count (setReg s2 die 1 (nwOff i 0x854) (BitVec.ofNat 32 (v.state + v.wideLeft * 4 + warm * 512))) die 1 0x44 1
  let s4 :=
    if jump then
      let u := recordError s3 die 1 0x2040 (info + b2n (again || decide (st = 1)) * 2 ^ 14 + b2n (decide (st = 2)) * 2 ^ 15)
      count (setReg u die 1 0x80C (setBit (reg u die 1 0x80C) i true)) die 1 0x40 1
    else s3
  let s5 := if v.recompute then count s4 die 1 0x41 1 else s4
  let s6 := if jump && v.flag then count s5 die 1 0x42 1 else s5
  let s7 := if jump then updFrs s6 die (fun fr => { fr with jumps := mapSet fr.jumps i (step + 1) }) else s6
  if jump || (isWide st != isWide v.state) then
    let n : StepNote :=
      { job := ⟨job % 256, Nat.mod_lt _ (by decide)⟩, layer := ⟨layer % 1024, Nat.mod_lt _ (by decide)⟩,
        frame := frameNum s die, wide := isWide v.state, normal := decide (v.state = 0), replay := v.recompute }
    let r : JumpRep :=
      { job := n.job, layer := n.layer, step := step, frame := frameNum s die, recompute := v.recompute,
        inRecompute := again || decide (st = 1) }
    { s7 with lastNote := some (n, if jump then some r else none) }
  else if st ≠ v.state ∧ v.state = 0 then noteLayer s7 job layer false true
  else s7

/-- NORM_VERDICT (R110). -/
def execNormVerdict (t : Time) (die : ComputeDie) (i : Fin 16) (fp32 : Bool) (s : State) : Host.Outcome State Fault Refusal :=
  let s1 := advance s t
  .next (if verdictDue s1 (cpDie die.val) i.val then takeVerdict s1 (cpDie die.val) i.val fp32 else s1)

/-- NW_WIDE as it reads (R120). -/
def nwWide (s : State) (die : Nat) : Word :=
  BitVec.ofNat 32 (foldState (fun m i => if isWide (fld (nwReg s die i 0x854) 0 2) then m + 2 ^ i else m) 0 (upFrom 0 16))

/-! ## Register writes (R121) -/

/-- A refused write (R121, R122): `entry` is 0xF for a global register. -/
def nwRefuse (s : State) (die entry : Nat) : State := recordError s die 1 0x1030 entry

/-- WARM_LEFT := WARMUP in every VALID entry in WARMUP whose WARM_LEFT is 0 (R121). -/
def loadWarm (s : State) (die warmup : Nat) : State :=
  foldState (fun u i =>
    let st := nwReg u die i 0x854
    if tbit (nwReg u die i 0x840) 31 ∧ fld st 0 2 = 3 ∧ fld st 9 8 = 0 then setNw u die i 0x854 9 8 warmup else u) s (upFrom 0 16)

/-- A write of NW_CTRL (R121): a write of ALPHA 0 is discarded whole, and while EN is 1 a change of ALPHA or WARMUP is. -/
def writeNwCtrl (s : State) (die : Nat) (v : Word) : State :=
  let old := reg s die 1 0x800
  if fld v 1 3 = 0 then nwRefuse s die 0xF
  else
    let held := tbit old 0 && (decide (fld v 1 3 ≠ fld old 1 3) || decide (fld v 8 8 ≠ fld old 8 8))
    let s1 := if held then nwRefuse s die 0xF else s
    let w := if held then setFld old 0 1 (fld v 0 1) else v &&& 0x0000FF0F#32
    let s2 := setReg s1 die 1 0x800 w
    if tbit w 0 && !tbit old 0 then loadWarm s2 die (fld w 8 8) else s2

/-- A write of NW_THRESH or NW_LOW_THRESH (R121). -/
def writeNwThresh (s : State) (die off : Nat) (v : Word) : State :=
  let bad :=
    match f32dec v with
    | .fin neg m _ => (neg && decide (m ≠ 0)) || (decide (off = 0x804) && f32lt v 0x3F800000#32)
    | _ => true
  if tbit (reg s die 1 0x800) 0 || bad then nwRefuse s die 0xF else setReg s die 1 off v

/-- The writable bits of an entry's register at 0x840 + k. -/
def nwMask (k : Nat) : Word :=
  match k with
  | 0x00 => 0x83FFFFFF#32
  | 0x04 => 0x01FFFFFF#32
  | 0x08 => 0x0000FFFF#32
  | 0x0C => 0xFFFFFFFF#32
  | 0x14 => 0x0001FFFF#32
  | _ => 0#32

/-- A write of a register of entry `i` (R121). -/
def writeNwEntry (s : State) (die i k : Nat) (v : Word) : State :=
  if nwMask k = 0#32 then (if k = 0x10 ∧ tbit (reg s die 1 0x800) 0 = true then nwRefuse s die i else s)
  else if tbit (reg s die 1 0x800) 0 || (decide (k = 0x04) && decide (fld v 0 2 ≠ 0)) || (decide (k = 0x14) && decide (fld v 2 7 > 64))
  then nwRefuse s die i
  else setReg s die 1 (nwOff i (0x840 + k)) (v &&& nwMask k)

/-- A write of a norm-watch register of a compute die (R120, R121). -/
def writeNw (s : State) (die off : Nat) (v : Word) : State :=
  if off = 0x800 then writeNwCtrl s die v
  else if off = 0x804 ∨ off = 0x808 then writeNwThresh s die off v
  else if 0x840 ≤ off ∧ off < 0xA40 then writeNwEntry s die ((off - 0x840) / 0x20) ((off - 0x840) % 0x20) v
  else s

/-- NW_CTRL_WRITE (R121). -/
def execNwCtrlWrite (t : Time) (die : ComputeDie) (v : Word) (s : State) : Host.Outcome State Fault Refusal :=
  .next (pageWrite (advance s t) (cpDie die.val) 1 0x800 true (fun u => writeNwCtrl u (cpDie die.val) v))

end Sys2Proof.Machine
end

