-- ==== Sys2Proof/Machine/Mesh.lean ====
section
/-!
DEFINITION. Sys2Proof/Machine/Mesh.lean: the die mesh (R26 to R34, R144 to R146): epochs, planned flits, dynamic messages, edges, schedule banks
and injection queues.
-/
namespace Sys2Proof.Machine

/-! ## Epochs (R28, R29) -/

/-- The die whose frame sequencer a router follows (R28). -/
def frsDieOf (die : Nat) : Nat := if die = 9 then 0 else die

/-- The mesh cycle of the present frame at a router; 0 while no frame runs. -/
def frameCyc (s : State) (die : Nat) : Nat :=
  if frsRunning s (frsDieOf die) then (s.now - (frsOf s (frsDieOf die)).began) / 5 else 0

/-- Whether a cycle of an epoch is dynamic (R28). -/
def dynSlot (m : Nat) : Bool := decide (m % 100 = 0) || decide (m % 100 = 33) || decide (m % 100 = 66)

/-- Whether the present mesh cycle of a router is dynamic (R28): every one while no frames run. -/
def isDynamic (s : State) (die : Nat) : Bool := !frsRunning s (frsDieOf die) || dynSlot (frameCyc s die)

/-- The number of planned cycles before mesh cycle `m` of a frame (R28, R29). -/
def plannedIndex (m : Nat) : Nat :=
  let r := m % 100
  m / 100 * 97 + (r - (b2n (decide (r > 0)) + b2n (decide (r > 33)) + b2n (decide (r > 66))))

/-! ## Edges (R32, R33) -/

/-- The die across an edge (0 north, 1 east, 2 south, 3 west), if the grid has one. -/
def neighbour (die edge : Nat) : Option Nat :=
  match edge with
  | 0 => if die / 10 > 0 then some (die - 10) else none
  | 1 => if die % 10 < 9 then some (die + 1) else none
  | 2 => if die / 10 < 9 then some (die + 10) else none
  | 3 => if die % 10 > 0 then some (die - 1) else none
  | _ => none

/-- The edge at the other die: north and south, east and west face each other. -/
def facing (edge : Nat) : Nat := (edge + 2) % 4

/-- ROUTER_STATUS.EDGE_UP of an edge. -/
def edgeUp (s : State) (die edge : Nat) : Bool := tbit (reg s die 0 0x044) edge

/-- The edge goes down at both of its ends. -/
def edgeDown (s : State) (die edge : Nat) : State :=
  let s1 := setRegFld s die 0 0x044 edge 1 0
  match neighbour die edge with
  | none => s1
  | some d => setRegFld s1 d 0 0x044 (facing edge) 1 0

/-- The report of a down edge enters the router that marked it, on its way to TK0 in the dynamic class (R32). -/
def reportEdge (s : State) (die edge : Nat) : State :=
  let m : DynMsg := { dst := 0, payload := [], entered := meshCyc s s.now, report := some (die, edge) }
  updRouter s die (fun r => { r with inputs := setNth r.inputs 0 (nth r.inputs 0 [] ++ [m]) })

/-- A router marks an edge down: 0x4022, and a report to TK0 (R31, R32). -/
def markEdge (s : State) (die edge : Nat) : State := reportEdge (edgeDown (recordError s die 0 0x4022 edge) die edge) die edge

/-- EDGE_MARKED_DOWN (R32). -/
def execEdgeMarkedDown (t : Time) (die : Die) (edge : Fin 4) (s : State) : Host.Outcome State Fault Refusal :=
  let s1 := advance s t
  if !edgeUp s1 die.val edge.val then .next s1 else .next (markEdge s1 die.val edge.val)

/-! ## Planned flits (R29, R31, R32, R144 to R146) -/

/-- The schedule bank in use. -/
def schedBank (s : State) (die : Nat) : SchedBank :=
  if tbit (reg s die 0 0x04C) 0 then (router s die).bankB else (router s die).bankA

/-- Whether a run covers a planned cycle (R144). -/
def runCovers (k : Nat) (r : SchedRun) : Bool :=
  decide (plannedIndex r.first ≤ k) && decide (k < plannedIndex r.first + r.count)

/-- The outputs that the schedule feeds from an input in a planned cycle. -/
def outputsOf (b : SchedBank) (k inp : Nat) : List Nat :=
  (b.runs.filter (fun r => decide (r.inp = inp) && runCovers k r)).map (fun r => r.out)

/-- An empty poisoned flit. -/
def badFlit : Flit := { poison := true, bytes := [] }

/-- The flit that local injection sends on an output (R146): the next one enqueued, or a poisoned one with 0x4023 where it is late. -/
def injectFlit (s : State) (die o : Nat) : Flit × State :=
  let r := router s die
  let q := injQ r o
  match q.flits with
  | f :: rest =>
    (f, putRouter s die
      (setInj r o { q with flits := rest ++ q.waiting.take 1, waiting := q.waiting.drop 1, sent := q.sent + 1 }))
  | [] =>
    let s1 := putRouter s die (setInj r o { q with sent := q.sent + 1, late := q.late + 1 })
    (badFlit, recordError s1 die 0 0x4023 (o + q.sent % 2 ^ 21 * 8))

/-- A flit sent on an output in planned cycle `k` (R29, R32): delivered locally, or due at the next router eight planned cycles later; across
a down edge the receiving router substitutes a poisoned one. -/
def sendFlit (s0 : State) (die k o : Nat) (f : Flit) : State :=
  let s := traceRec s0 die 0 0
  if o = 4 then updRouter s die (fun r => { r with lastFlit := some f })
  else
    match neighbour die o with
    | none => s
    | some d =>
      let g := if edgeUp s d (facing o) then f else { f with poison := true }
      updRouter s d (fun r => { r with hops := r.hops ++ [{ inp := facing o, due := k + 8, flit := g }] })

/-- A planned cycle in which the router forwards is not an empty one. -/
def markUsed (s : State) (die k : Nat) : State :=
  let f := frameNum s (frsDieOf die)
  updRouter s die (fun r =>
    if r.lastPlanned = some (f, k) then r else { r with lastPlanned := some (f, k), used := r.used + 1 })

/-- The inputs that a router has forwarded in planned cycle `k` of the present frame. -/
def fedInputs (s : State) (die k : Nat) : List Nat :=
  match (router s die).fed with
  | none => []
  | some (f, n, l) => if f = frameNum s (frsDieOf die) ∧ n = k then l else []

/-- An input is forwarded in planned cycle `k`: once a cycle. -/
def markFed (s : State) (die k inp : Nat) : State :=
  updRouter s die (fun r => { r with fed := some (frameNum s (frsDieOf die), k, inp :: fedInputs s die k) })

/-- A flit of an input goes to the outputs that the schedule names. -/
def feedOutputs (s : State) (die k : Nat) (f : Flit) (outs : List Nat) : State :=
  foldState (fun u o => count (sendFlit (markUsed u die k) die k o f) die 0 0x01 1) s outs

/-- The planned flits of an input in the present planned cycle are forwarded (R29 to R32, R146), once in the cycle. Across an edge that is down a
flit that was due is replaced by a poisoned one, whether or not the sender sent it (R32). -/
def forwardPlanned (s : State) (die inp : Nat) (crcOk : Bool) : State :=
  let k := plannedIndex (frameCyc s die)
  let outs := outputsOf (schedBank s die) k inp
  if k ≥ (schedBank s die).cycles ∨ inp ∈ fedInputs s die k then s
  else if inp = 4 then
    foldState (fun u o =>
      let f := injectFlit u die o
      count (sendFlit (markUsed f.2 die k) die k o f.1) die 0 0x01 1) (markFed s die k inp) outs
  else
    let r := router s die
    match r.hops.filter (fun h => decide (h.inp = inp) && decide (h.due = k)) with
    | [] => if edgeUp s die inp then s else feedOutputs (markFed s die k inp) die k badFlit outs
    | h :: _ =>
      let s1 := markFed (putRouter s die { r with hops := r.hops.filter (fun x => !(decide (x.inp = inp) && decide (x.due = k))) }) die k inp
      let bad := !crcOk || !edgeUp s die inp
      let s2 :=
        if crcOk then s1
        else count (recordError s1 die 0 0x4020 (inp + frameCyc s die / 100 % 2 ^ 20 * 16)) die 0 0x05 1
      feedOutputs s2 die k (if bad then { h.flit with poison := true } else h.flit) outs

/-- PLANNED_FLIT (R29): `entryOk` says whether the schedule entry read is correctable (R442). R33 gives ROUTER_CTRL.PLANNED_EN and no rule what a 0
does: while it is 0 the router forwards no planned flit (DESIGN CHOICE, log entry 111). -/
def execPlannedFlit (t : Time) (die : Die) (inp : Fin 5) (crcOk entryOk : Bool) (s : State) :
    Host.Outcome State Fault Refusal :=
  let s1 := advance s t
  if !tbit (reg s1 die.val 0 0x040) 0 || isDynamic s1 die.val || isHalted s1 die.val 0 then .next s1
  else if !entryOk then .next (haltUnit s1 die.val 0 (plannedIndex (frameCyc s1 die.val)))
  else .next (forwardPlanned s1 die.val inp.val crcOk)

/-- INJECTION_ENQUEUE (R146). -/
def execInjectionEnqueue (t : Time) (die : Die) (o : Fin 5) (f : Flit) (s : State) : Host.Outcome State Fault Refusal :=
  .next (enqueueFlit (advance s t) die.val o.val f)

/-- LATE_INJECTION_FLIT (R146): the late flit is discarded and counted. -/
def execLateInjectionFlit (t : Time) (die : Die) (o : Fin 5) (s : State) : Host.Outcome State Fault Refusal :=
  let s1 := advance s t
  if (injQ (router s1 die.val) o.val).late = 0 then .next s1 else .next (enqueueFlit s1 die.val o.val badFlit)

/-! ## Dynamic messages (R30, R31) -/

/-- The output by the other dimension first. -/
def dynOutAlt (die dst : Nat) : Nat :=
  if dst / 10 > die / 10 then 2
  else if dst / 10 < die / 10 then 0
  else dynOut die dst

/-- The output a message takes: by dimension order, and around a down edge by the other dimension where that leads on (R32, DESIGN CHOICE, log
entry 22). -/
def dynRoute (s : State) (die dst : Nat) : Nat :=
  let o := dynOut die dst
  if o = 4 || edgeUp s die o then o
  else
    let a := dynOutAlt die dst
    if a ≠ o ∧ edgeUp s die a then a else o

/-- The bytes a message takes in a flit (R30). -/
def msgBytes (m : DynMsg) : Nat := 16 + roundUp m.payload.length 16

/-- The messages of an input that the flit of an output takes, in order of arrival while the next fits (R30): a message for another output, or
one that entered in this cycle, ends the run. -/
def takeFrom (s : State) (die o cyc room : Nat) (l : List DynMsg) : List DynMsg × List DynMsg × Nat :=
  match l with
  | [] => ([], [], room)
  | m :: r =>
    if dynRoute s die m.dst = o ∧ m.entered < cyc ∧ msgBytes m ≤ room then
      let q := takeFrom s die o cyc (room - msgBytes m) r
      (m :: q.1, q.2.1, q.2.2)
    else ([], m :: r, room)

/-- Whether an input may be granted: the local one only while DYN_EN is 1 (R30). -/
def inputOpen (s : State) (die i : Nat) : Bool := i != 0 || tbit (reg s die 0 0x040) 1

/-- Fills the flit of an output from the inputs round-robin, starting after the one granted last (R30). -/
def fillFlit (s : State) (die o cyc i n room : Nat) (r : Router) (got : List DynMsg) : Router × List DynMsg :=
  match n with
  | 0 => (r, got)
  | k + 1 =>
    let j := i % 5
    if inputOpen s die j then
      let q := takeFrom s die o cyc room (nth r.inputs j [])
      if q.1.isEmpty then fillFlit s die o cyc (j + 1) k room r got
      else
        fillFlit s die o cyc (j + 1) k q.2.2
          { r with inputs := setNth r.inputs j q.2.1, granted := setNth r.granted o j } (got ++ q.1)
    else fillFlit s die o cyc (j + 1) k room r got

/-- A dynamic flit arrives intact at the next router: its messages enter the facing input (R30). -/
def arriveFlit (s : State) (d edge cyc : Nat) (l : List DynMsg) : State :=
  let ms := l.map (fun m => { m with entered := cyc })
  updRouter s d (fun r =>
    { r with inputs := setNth r.inputs (edge + 1) (nth r.inputs (edge + 1) [] ++ ms), fails := setNth r.fails edge 0 })

/-- A dynamic flit meets a CRC mismatch at the next router: discarded and counted; the eighth in a row on the edge marks it down with 0x4022
(R31). -/
def failFlit (s : State) (d edge : Nat) : State :=
  let r := router s d
  let n := nth r.fails edge 0 + 1
  let s1 := count (putRouter s d { r with fails := setNth r.fails edge n }) d 0 0x05 1
  if n ≥ 8 then markEdge s1 d edge else s1

/-- The bytes that messages take in a flit. -/
def flitBytes (l : List DynMsg) : Nat := foldState (fun n m => n + msgBytes m) 0 l

/-- Whether an output of a router can send dynamic flits: local delivery, or an edge that is up. -/
def outputOpen (s : State) (die o : Nat) : Bool := decide (o = 4) || edgeUp s die o

/-- The outputs of a router, in index order, fill their flits in turn (R30); those of `again` send a flit again and take nothing. -/
def fillOutputs (s : State) (die cyc : Nat) (again : List Nat) (r : Router) : Router :=
  foldState (fun r o =>
    if again.contains o || !outputOpen s die o then r
    else
      let old := nth r.flits o []
      let q := fillFlit s die o cyc (nth r.granted o 4 + 1) 5 (3000 - flitBytes old) r []
      { q.1 with flits := setNth q.1.flits o (old ++ q.2) }) r (upFrom 0 5)

/-- The flits of a dynamic cycle (R30): turns of the outputs until no message moves, so that a message behind one for another output leaves with
it where both fit. No rule orders the outputs: they take turns in index order (DESIGN CHOICE, log entry 112). -/
def fillRouter (s : State) (die cyc : Nat) (again : List Nat) (fuel : Nat) (r : Router) : Router :=
  match fuel with
  | 0 => r
  | k + 1 => fillRouter s die cyc again k (fillOutputs s die cyc again r)

/-- A router gives back the messages of a flit whose edge is down: they wait at that edge's input, in their order, for another way (R32). -/
def returnFlits (s : State) (die : Nat) : State :=
  foldState (fun u o =>
    if edgeUp u die o then u
    else
      updRouter u die (fun r =>
        { r with inputs := setNth r.inputs (o + 1) (nth r.flits o [] ++ nth r.inputs (o + 1) []), flits := setNth r.flits o [] })) s (upFrom 0 4)

/-- The router with the flit of an output sent. -/
def Router.sent (r : Router) (o : Nat) : Router := { r with flits := setNth r.flits o [] }

/-- The flit of one output leaves in a dynamic cycle (R30, R31): `bad` says whether the receiver finds a CRC mismatch; then the flit stays and is sent
again. A report of a down edge that reaches TK0 stops the module's frames, fault class 3 (R32, R458). -/
def forwardOutput (s0 : State) (die cyc o : Nat) (bad : Bool) : State :=
  let l := nth (router s0 die).flits o []
  if l.isEmpty then s0
  else
    let s := traceRec s0 die 0 0
    if o = 4 then
      let s1 := count (updRouter s die (fun r => { r.sent 4 with lastMsg := l.getLast? })) die 0 0x02 l.length
      if die = 0 ∧ l.any (fun m => m.report.isSome) = true then stopModule s1 else s1
    else
      match neighbour die o with
      | none => s
      | some d =>
        if bad then failFlit s d (facing o)
        else arriveFlit (count (updRouter s die (fun r => r.sent o)) die 0 0x02 l.length) d (facing o) cyc l

/-- Messages that could have left in this cycle and did not: those that entered before it, and those of flits to be sent again (R34 counter
0x04). -/
def deferredCount (r : Router) (cyc : Nat) : Nat :=
  ((r.inputs.flatten).filter (fun m => decide (m.entered < cyc))).length + r.flits.flatten.length

/-- A dynamic cycle of a router (R30, R31). -/
def dynForward (s : State) (die : Nat) (bad : List (Fin 4)) : State :=
  let cyc := meshCyc s s.now
  if !isDynamic s die || decide (cyc < (router s die).dynNext) then s
  else
    let s1 := returnFlits (updRouter s die (fun r => { r with dynNext := cyc + 1 })) die
    let r := router s1 die
    let again := (upFrom 0 5).filter (fun o => !(nth r.flits o []).isEmpty)
    let s2 := putRouter s1 die (fillRouter s1 die cyc again (r.inputs.flatten.length + 1) r)
    let s3 := foldState (fun u o => forwardOutput u die cyc o (bad.any (fun b => decide (b.val = o)))) s2 (upFrom 0 5)
    count s3 die 0 0x04 (deferredCount (router s3 die) cyc)

/-- A message of the die itself enters its router (R30): at most 256 bytes of payload. -/
def dynEnter (s : State) (die dst : Nat) (l : List Byte) : State :=
  updRouter s die (fun r =>
    { r with inputs := setNth r.inputs 0 (nth r.inputs 0 [] ++ [{ dst := dst, payload := l.take 256, entered := meshCyc s s.now, report := none }]) })

/-- DYNAMIC_MESSAGE (R30). -/
def execDynamicMessage (t : Time) (die : Die) (act : DynAct) (s : State) : Host.Outcome State Fault Refusal :=
  let s1 := advance s t
  match act with
  | .enter dst l => .next (dynEnter s1 die.val dst.val l)
  | .forward bad => .next (dynForward s1 die.val bad)

/-! ## Schedule banks (R33, R34, R144) -/

/-- A write of SCHED_CTRL (R33, R34): while a swap is pending NEXT_BANK is held and the write rejected with 0x1011. -/
def writeSchedCtrl (s : State) (die : Nat) (v : Word) : State :=
  if tbit (reg s die 0 0x04C) 1 then recordError s die 0 0x1011 (fld v 0 1)
  else
    let s1 := setRegFld s die 0 0x048 0 1 (fld v 0 1)
    if tbit v 1 then noteArm (setRegFld s1 die 0 0x04C 1 1 1) (barOff die 0 0x048) else s1

/-- SCHED_SWAP_ARM (R34). -/
def execSchedSwapArm (t : Time) (die : Die) (v : Word) (s : State) : Host.Outcome State Fault Refusal :=
  .next (pageWrite (advance s t) die.val 0 0x048 true (fun u => writeSchedCtrl u die.val v))

/-- A load of a schedule bank of a router (R34, R144): rejected with 0x1011 for the active bank and while a swap is pending. -/
def loadSched (s : State) (die bank : Nat) (b : SchedBank) : State :=
  if tbit (reg s die 0 0x04C) 1 ∨ fld (reg s die 0 0x04C) 0 1 = bank then recordError s die 0 0x1011 bank
  else
    let s1 := updRouter s die (fun r => if bank = 1 then { r with bankB := b } else { r with bankA := b })
    setReg s1 die 0 (if bank = 1 then 0x054 else 0x050) (BitVec.ofNat 32 (b.cycles % 2 ^ 24))

/-- An armed schedule swap at a frame boundary (R34): refused with 0x1010 for an empty bank. -/
def swapSched (s : State) (die : Nat) : State :=
  if tbit (reg s die 0 0x04C) 1 && armedBefore s (barOff die 0 0x048) s.now then
    let nb := fld (reg s die 0 0x048) 0 1
    let s1 := setRegFld s die 0 0x04C 1 1 0
    if fld (reg s die 0 (if nb = 1 then 0x054 else 0x050)) 0 24 = 0 then recordError s1 die 0 0x1010 nb
    else setRegFld s1 die 0 0x04C 0 1 nb
  else s

/-- Counter code 0x03 takes account of the planned cycles before cycle `k` of the frame (R34): those in which nothing was forwarded. -/
def settleEmpty (s : State) (die k : Nat) : State :=
  let r := router s die
  let cur := b2n (decide (r.lastPlanned = some (frameNum s (frsDieOf die), k)))
  countPast (putRouter s die { r with emptyTo := max r.emptyTo k, used := cur }) die 0 0x03 ((k - r.emptyTo) - (r.used - cur))

/-- A frame boundary at a router (R29, R146): the planned cycles that the ended frame left empty are counted, and the injection counts begin
anew. A flit enqueued and not sent in its frame is dropped; one still late is discarded when it arrives (DEDUCED, log entry 26). `ticks` is the
length of the ended frame. -/
def routerBoundary (s : State) (die ticks : Nat) : State :=
  updRouter (settleEmpty s die (plannedIndex (ticks * 64 / 5))) die (fun r =>
    { r with used := 0, emptyTo := 0, lastPlanned := none, fed := none, hops := [],
             inj := r.inj.map (fun q => { q with flits := q.waiting.take 32, waiting := q.waiting.drop 32, enq := min 32 q.waiting.length, sent := 0 }) })

end Sys2Proof.Machine
end

