-- ==== Sys2Proof/Machine/Links.lean ====
section
/-!
DEFINITION. Sys2Proof/Machine/Links.lean: the fabric ports (R309 to R337): states, training, authentication, planned and dynamic flits, slot
banks, degradation and fault injection.
-/
namespace Sys2Proof.Machine

/-! ## Registers -/

/-- A register of a port's LNK page. -/
def lnk (s : State) (p off : Nat) : Word := reg s (portDie p) (portPage p) off

/-- The state with a field of a port's register replaced. -/
def setLnk (s : State) (p off lo n v : Nat) : State := setRegFld s (portDie p) (portPage p) off lo n v

/-- An error in a port's LNK page (R337). -/
def lnkError (s : State) (p code info : Nat) : State := recordError s (portDie p) (portPage p) code info

/-- Counts an event of a port. -/
def lnkCount (s : State) (p code n : Nat) : State := count s (portDie p) (portPage p) code n

/-- A port's state beside its registers. -/
def portOf (s : State) (p : Nat) : PortSt := mapGet s.ports p PortSt.reset

/-- The state with a port replaced. -/
def putPort (s : State) (p : Nat) (x : PortSt) : State := { s with ports := mapPut PortSt.reset s.ports p x }

/-- The state with a port changed. -/
def updPort (s : State) (p : Nat) (f : PortSt → PortSt) : State := putPort s p (f (portOf s p))

/-- LNK_STATE.STATE (R317): 0 OFF, 1 DETECT, 2 TRAIN, 3 AUTH, 4 QUARANTINE, 5 ACTIVE, 6 LPI, 7 FAILED. -/
def portState (s : State) (p : Nat) : Nat := fld (lnk s p 0x044) 0 4

/-- LNK_STATE.DIRECTION (R315). -/
def portDir (s : State) (p : Nat) : Nat := fld (lnk s p 0x044) 8 5

/-- Whether NODE_ID.VALID is 1 (R38). -/
def nodeValid (s : State) : Bool := tbit (reg s 90 8 0x040) 16

/-- Whether frames run at the port's die: a plan runs. -/
def planRuns (s : State) (p : Nat) : Bool := frsRunning s (portDie p)

/-- The port takes a state with a reason for quarantine, or 0 (R317, R335): the change raises interrupt bit 16 and is counted on the die. -/
def setPortState (s : State) (p st reason : Nat) : State :=
  if portState s p = st ∧ fld (lnk s p 0x044) 4 4 = reason then s
  else
    let s1 := setLnk (setLnk s p 0x044 0 4 st) p 0x044 4 4 reason
    let s2 := updPort s1 p (fun x => { x with since := s.now })
    count (setIrq s2 (portDie p) (portPage p) 16) (portDie p) 8 0x7C 1

/-- The nonces of a port are gone once it leaves AUTH (R484). -/
def dropNonces (s : State) (p : Nat) : State := updPort s p (fun x => { x with nonce := none, peerNonce := none })

/-- The port enters QUARANTINE for a reason (R318). -/
def quarantine (s : State) (p reason : Nat) : State :=
  lnkError (setPortState (setLnk (dropNonces s p) p 0x044 13 2 0) p 4 reason) p 0x5010 reason

/-- The port returns to DETECT for a retrain: counted, saturating (R318, R335). -/
def toDetect (s : State) (p : Nat) : State :=
  let n := fld (lnk s p 0x044) 18 8
  count (setPortState (setLnk (setLnk (dropNonces s p) p 0x044 13 2 0) p 0x044 18 8 (min 255 (n + 1))) p 1 0) (portDie p) 8 0x7D 1

/-- The slot bank in use: SLOT_STATUS.ACTIVE_BANK. -/
def linkBank (s : State) (p : Nat) : LinkBank := if tbit (lnk s p 0x064) 0 then (portOf s p).bankB else (portOf s p).bankA

/-- D of the bank in use (R323). -/
def linkDelay (s : State) (p : Nat) : Nat := fld (lnk s p 0x050) (if tbit (lnk s p 0x064) 0 then 8 else 0) 5

/-- Whether a port carries planned traffic in the running plan. -/
def carriesPlanned (s : State) (p : Nat) : Bool :=
  planRuns s p && (!(linkBank s p).tx.isEmpty || !(linkBank s p).rx.isEmpty)

/-- The port leaves ACTIVE while a plan runs: no planned flit until its slot bank swaps (R326), and fault class 2 where it carries planned traffic
(R458). -/
def portLost (s : State) (p : Nat) : State :=
  let s1 := setIrq (updPort s p (fun x => { x with wasActive := true, noPlanned := planRuns s p })) (portDie p) (portPage p) 17
  if carriesPlanned s p then stopModule s1 else s1

/-- The port leaves ACTIVE for a cause and retrains (R330): nothing in other states. -/
def leaveActive (s : State) (p cause : Nat) : State :=
  if portState s p = 5 then toDetect (portLost (lnkError s p 0x5021 cause) p) p else s

/-! ## Allocation (R315, R316) -/

/-- The direction code of a cable port under profile A, B or C (R315). -/
def profileCode (profile p : Nat) : Nat :=
  match profile with
  | 0 =>
    if [9, 10, 11, 15, 16].contains p then 4
    else if [12, 13, 14, 18, 19].contains p then 5
    else if [21, 22].contains p then 6
    else if [24, 25].contains p then 7
    else if p = 29 then 0x14
    else if p = 32 then 0x15
    else 8 + indexIn [17, 20, 23, 27, 28, 26, 30, 31] p
  | 1 =>
    if [9, 10, 11, 15, 16, 17].contains p then 4
    else if [12, 13, 14, 18, 19, 20].contains p then 5
    else if [28, 29].contains p then 0x14
    else if [31, 32].contains p then 0x15
    else 8 + indexIn [21, 22, 23, 27, 24, 25, 26, 30] p
  | _ =>
    if [9, 10, 11, 15, 16, 17].contains p then 4
    else if [12, 13, 14, 18, 19, 20].contains p then 5
    else if [21, 22, 23, 27, 28].contains p then 6
    else if [24, 25, 26, 30, 31].contains p then 7
    else if p = 29 then 0x14
    else if p = 32 then 0x15
    else 0

/-- The X direction of a board port (R309). -/
def boardCode (p : Nat) : Nat :=
  if p < 3 ∨ (39 ≤ p ∧ p < 42) then 1
  else if (3 ≤ p ∧ p < 6) ∨ (36 ≤ p ∧ p < 39) then 2
  else 3

/-- Whether a code may stand in a profile P record: 0x00, 0x04 to 0x0F, or a spare of 0x04 to 0x07 (R315). -/
def codeOk (c : Nat) : Bool := decide (c = 0) || (decide (4 ≤ c) && decide (c < 16)) || (decide (0x14 ≤ c) && decide (c < 0x18))

/-- The first port of a profile P record with a bad code. -/
def badCodePort (c : Cabling) : Option Nat :=
  if c.profile = 3 then ((upFrom 0 24).find? (fun i => !codeOk (nth c.codes i 0))).map (fun i => 9 + i) else none

/-- The direction that a record allocates to a port (R315): Z is OFF with one rack, and every cable port is OFF under a rejected record. -/
def allocCode (c : Cabling) (p : Nat) : Nat :=
  if p < 9 ∨ 33 ≤ p then boardCode p
  else if (badCodePort c).isSome then 0
  else
    let d := if c.profile = 3 then nth c.codes (p - 9) 0 else profileCode c.profile p
    if c.nz = 1 ∧ (d % 16 = 6 ∨ d % 16 = 7) then 0 else d

/-- The partner that a direction must have (R37, R320): whether it is a switch tray, and its node number or index. -/
def partnerOf (s : State) (d : Nat) : Bool × Nat :=
  let n := ownNode s
  let x := nodeX n
  let y := nodeY n
  let z := nodeZ n
  let ny := max s.ny 1
  let nz := max s.nz 1
  match d % 16 with
  | 1 => (false, nodeOf (Nat.xor x 1) y z)
  | 2 => (false, nodeOf (Nat.xor x 2) y z)
  | 3 => (false, nodeOf (Nat.xor x 3) y z)
  | 4 => (false, nodeOf x ((y + 1) % ny) z)
  | 5 => (false, nodeOf x ((y + ny - 1) % ny) z)
  | 6 => (false, nodeOf x y ((z + 1) % nz))
  | 7 => (false, nodeOf x y ((z + nz - 1) % nz))
  | k => (true, k - 8)

/-- A port at a start (R315, R317): OFF, or DETECT with its direction. -/
def startPort (c : Cabling) (s : State) (p : Nat) : State :=
  if !reachable s (portDie p) (portPage p) then s
  else
    let d := allocCode c p
    let s1 := setReg s (portDie p) (portPage p) 0x044 (BitVec.ofNat 32 (d * 256))
    let s2 := putPort s1 p { (portOf s1 p) with since := s.now, retries := 0, wasActive := false, nonce := none, peerNonce := none }
    if d = 0 then s2 else setPortState s2 p 1 0

/-- BGD.ALLOC of a Bough die (R336). -/
def setAlloc (c : Cabling) (s : State) (b : Nat) : State :=
  let dirs := allocCode c (3 * b) * 2 ^ 8 + allocCode c (3 * b + 1) * 2 ^ 16 + allocCode c (3 * b + 2) * 2 ^ 24
  if reachable s (bgDie b) 8 then setReg s (bgDie b) 8 0x044 (BitVec.ofNat 32 (c.profile % 16 + dirs)) else s

/-- The allocation of the ports at a start (R315); a rejected record is 0x1092 in the TPR page. -/
def allocatePorts (s : State) (c : Cabling) : State :=
  let s1 :=
    match badCodePort c with
    | some p => recordError s 90 8 0x1092 p
    | none => s
  foldState (startPort c) (foldState (setAlloc c) s1 (upFrom 0 14)) (upFrom 0 42)

/-! ## Training and quarantine (R317 to R319) -/

/-- A millisecond and a second in units of 100 ps. -/
def ms : Nat := 10000000
/-- A second. -/
def sec : Nat := 1000 * ms

/-- PORT_SIGNAL_DETECTED (R317). -/
def execPortSignalDetected (t : Time) (p : Port) (s : State) : Host.Outcome State Fault Refusal :=
  let s1 := advance s t
  if portState s1 p.val = 1 ∧ (portOf s1 p.val).noCable = false then .next (setPortState s1 p.val 2 0) else .next s1

/-- PORT_DETECT_TIMEOUT (R318): 100 ms of DETECT without a signal. -/
def execPortDetectTimeout (t : Time) (p : Port) (s : State) : Host.Outcome State Fault Refusal :=
  let s1 := advance s t
  if portState s1 p.val = 1 ∧ s1.now ≥ (portOf s1 p.val).since + 100 * ms then .next (quarantine s1 p.val 1) else .next s1

/-- D_CAP (R323): the smallest D with 3 × t1 + 128 ns, and 38.4 ns more on Z ports, at most 32 ns × D; t1 in units of 0.5 ns. -/
def dCap (t1 : Nat) (isZ : Bool) : Nat := max 1 (ceilDiv (15 * t1 + 1280 + (if isZ then 384 else 0)) 320)

/-- LNK_PARTNER cleared, LNK_LATENCY and LANE_STATUS as a training leaves them. -/
def showTraining (s : State) (p : Nat) (tr : Train) (cap : Nat) : State :=
  let s1 := setReg s (portDie p) (portPage p) 0x04C (BitVec.ofNat 32 (tr.t1 % 2 ^ 16 + min cap 31 * 2 ^ 16))
  let s2 := setReg s1 (portDie p) (portPage p) 0x054 (BitVec.ofNat 32 tr.locked.toNat)
  setLnk (setReg s2 (portDie p) (portPage p) 0x048 0#32) p 0x044 15 1 (b2n tr.retained)

/-- The lanes that a training locked as LNK_STATE.WIDTH: 2 for eight, 1 for one half, 0 for neither (R331). -/
def widthOf (l : BitVec 8) : Nat :=
  if l = 0xFF#8 then 2 else if fld l 0 4 = 15 ∨ fld l 4 4 = 15 then 1 else 0

/-- A training ends (R318, R319, R331): the port enters AUTH and issues a nonce, or QUARANTINE. -/
def trained (s : State) (p : Nat) (tr : Train) : State :=
  let cap := dCap tr.t1 (decide (portDir s p % 16 = 6) || decide (portDir s p % 16 = 7))
  let s1 := showTraining s p tr cap
  let w := widthOf tr.locked
  if !nodeValid s then quarantine s1 p 2
  else if w = 0 then quarantine s1 p (if (portOf s p).wasActive then 4 else 3)
  else if cap > 31 then quarantine s1 p 3
  else if tr.uncorr then quarantine s1 p 4
  else
    let s2 := setPortState (setLnk s1 p 0x044 13 2 w) p 3 0
    updPort { s2 with fresh := s2.fresh + 1 } p (fun x =>
      { x with nonce := some ((Config.random s2.fresh).toNat % 2 ^ 256, s2.now), peerNonce := none })

/-- PORT_TRAINING_COMPLETE (R319). -/
def execPortTrainingComplete (t : Time) (p : Port) (tr : Train) (s : State) : Host.Outcome State Fault Refusal :=
  let s1 := advance s t
  if portState s1 p.val = 2 then .next (trained s1 p.val tr) else .next s1

/-- Whether a quarantined port may return to DETECT on its own (R318). -/
def mayRetry (s : State) (p : Nat) : Bool :=
  let x := portOf s p
  match fld (lnk s p 0x044) 4 4 with
  | 1 => decide (s.now ≥ x.since + sec)
  | 2 => nodeValid s
  | 3 => decide (x.retries < 3) && decide (s.now ≥ x.since + sec)
  | 4 => decide (x.retries < 3) && decide (s.now ≥ x.since + sec)
  | 7 => !tbit (lnk s p 0x040) 1
  | _ => false

/-- PORT_RETRY (R318). -/
def execPortRetry (t : Time) (p : Port) (s : State) : Host.Outcome State Fault Refusal :=
  let s1 := advance s t
  let r := fld (lnk s1 p.val 0x044) 4 4
  if portState s1 p.val = 4 && mayRetry s1 p.val then
    .next (toDetect (updPort s1 p.val (fun x => if r = 3 ∨ r = 4 then { x with retries := x.retries + 1 } else x)) p.val)
  else .next s1

/-- CABLE_PRESENT_CHANGE (R520): a cable port whose CBL_PRESENT# reads high enters QUARANTINE as absent at once. -/
def execCablePresentChange (t : Time) (p : Port) (present : Bool) (s : State) : Host.Outcome State Fault Refusal :=
  let s1 := advance s t
  let p := p.val
  if p < 9 ∨ 33 ≤ p ∨ !reachable s1 (portDie p) (portPage p) then .next s1
  else
    let s2 := updPort s1 p (fun x => { x with noCable := !present })
    let st := portState s2 p
    if present || st = 0 || st = 7 || (st = 4 && fld (lnk s2 p 0x044) 4 4 = 1) then .next s2
    else .next (quarantine (if st = 5 then portLost s2 p else s2) p 1)

/-- CBL_3V3 of a cable port (R520, R522): supplied while the LINK rail is on and CBL_PRESENT# reads low, and off where its direction is OFF. -/
def cableSupply (s : State) (p : Nat) : Bool :=
  decide (9 ≤ p) && decide (p < 33) && railOn s .link && !(portOf s p).noCable && decide (portState s p ≠ 0)

/-! ## LNK_CTRL (R318, R321, R335) -/

/-- A write of LNK_CTRL: FORCE_QUARANTINE and LPI_REQ are stored; RETRAIN returns the port to DETECT. -/
def writeLnkCtrl (s : State) (p : Nat) (v : Word) : State :=
  let s1 := setLnk s p 0x040 1 2 (fld v 1 2)
  let st := portState s1 p
  if st = 0 ∨ st = 7 then s1
  else if tbit v 1 then
    (if st = 4 ∧ fld (lnk s1 p 0x044) 4 4 = 7 then s1 else quarantine (if st = 5 then portLost s1 p else s1) p 7)
  else if st = 4 ∧ fld (lnk s1 p 0x044) 4 4 = 7 then toDetect s1 p
  else if tbit v 0 then toDetect (if st = 5 then portLost s1 p else s1) p
  else if st = 6 ∧ !tbit v 2 then setPortState s1 p 5 0
  else s1

/-- A write of LNK_CTRL through the register page. -/
def lnkCtrlAccess (s : State) (p : Nat) (v : Word) : State :=
  pageWrite s (portDie p) (portPage p) 0x040 true (fun u => writeLnkCtrl u p v)

/-- RETRAIN (R318). -/
def execRetrain (t : Time) (p : Port) (v : Word) (s : State) : Host.Outcome State Fault Refusal := .next (lnkCtrlAccess (advance s t) p.val v)

/-- FORCE_QUARANTINE (R318). -/
def execForceQuarantine (t : Time) (p : Port) (v : Word) (s : State) : Host.Outcome State Fault Refusal :=
  .next (lnkCtrlAccess (advance s t) p.val v)

/-- LPI_REQ (R321). -/
def execLpiReq (t : Time) (p : Port) (v : Word) (s : State) : Host.Outcome State Fault Refusal := .next (lnkCtrlAccess (advance s t) p.val v)

/-- LPI_ENTRY (R321): both partners have requested it. -/
def execLpiEntry (t : Time) (p : Port) (s : State) : Host.Outcome State Fault Refusal :=
  let s1 := advance s t
  if portState s1 p.val = 5 ∧ tbit (lnk s1 p.val 0x040) 2 = true then .next (setPortState s1 p.val 6 0) else .next s1

/-- PORT_LPI_EXIT (R321): a queued flit or a cleared request has brought the port back. -/
def execPortLpiExit (t : Time) (p : Port) (s : State) : Host.Outcome State Fault Refusal :=
  let s1 := advance s t
  if portState s1 p.val = 6 then .next (setPortState s1 p.val 5 0) else .next s1

/-! ## Authentication (R320, R484) -/

/-- HELLO (R484): the partner's nonce. -/
def execHello (t : Time) (p : Port) (nonce : Nat) (s : State) : Host.Outcome State Fault Refusal :=
  let s1 := advance s t
  if portState s1 p.val = 3 then .next (updPort s1 p.val (fun x => { x with peerNonce := some nonce })) else .next s1

/-- NONCE_STALE (R484): 100 ms after its issue. -/
def execNonceStale (t : Time) (p : Port) (s : State) : Host.Outcome State Fault Refusal :=
  let s1 := advance s t
  match (portOf s1 p.val).nonce with
  | none => .next s1
  | some (_, t0) =>
    if s1.now ≥ t0 + 100 * ms then .next (updPort s1 p.val (fun x => { x with nonce := none })) else .next s1

/-- An authentication fails with a reason (R318, R337): the third in a row moves the port to FAILED. -/
def authFails (s : State) (p reason : Nat) : State :=
  let n := fld (lnk s p 0x044) 16 2 + 1
  let s1 := lnkError (setLnk s p 0x044 16 2 n) p 0x8030 reason
  if n ≥ 3 then setPortState (setLnk (dropNonces s1 p) p 0x044 13 2 0) p 7 0 else quarantine s1 p reason

/-- An authentication passes: the port is ACTIVE, its partner shown, and its retained data rewritten (R317, R319). -/
def authPasses (s : State) (p : Nat) (pf : Proof) : State :=
  let s1 := setPortState (setLnk (dropNonces s p) p 0x044 16 2 0) p 5 0
  let s2 := setReg s1 (portDie p) (portPage p) 0x048
    (BitVec.ofNat 32 (pf.node % 2 ^ 16 + pf.port % 64 * 2 ^ 16 + b2n pf.isSwitch * 2 ^ 30 + 2 ^ 31))
  let s3 := updPort { s2 with retained := mapSet s2.retained p (some pf.digest) } p (fun x => { x with retries := 0, dynNext := 0, dynHeld := [] })
  setRegFld s3 (portDie p) 8 0x048 (p % 3) 1 1

/-- A PROOF is verified (R318, R484). -/
def takeProof (s : State) (p : Nat) (pf : Proof) : State :=
  let fresh :=
    match (portOf s p).nonce with
    | none => false
    | some (n, t0) => decide (n = pf.nonce) && decide (s.now < t0 + 100 * ms)
  if !(pf.membershipOk && pf.chainOk && pf.sigOk && fresh && decide (pf.svn ≥ s.svnFloor)) then authFails s p 5
  else if partnerOf s (portDir s p) ≠ (pf.isSwitch, pf.node) then lnkError (authFails s p 6) p 0x5011 (pf.node % 2 ^ 16)
  else authPasses s p pf

/-- PROOF (R484). -/
def execProof (t : Time) (p : Port) (pf : Proof) (s : State) : Host.Outcome State Fault Refusal :=
  let s1 := advance s t
  if portState s1 p.val = 3 then .next (takeProof s1 p.val pf) else .next s1

/-! ## Planned flits (R322 to R326) -/

/-- Whether a run list covers a position (R328): dynamic positions are skipped. -/
def runsCover (l : List LinkRun) (n : Nat) : Bool :=
  !dynSlot n && l.any (fun r => decide (plannedIndex r.first ≤ plannedIndex n) && decide (plannedIndex n < plannedIndex r.first + r.count))

/-- The planned positions of a run list. -/
def runsLen (l : List LinkRun) : Nat :=
  match l with
  | [] => 0
  | r :: rest => r.count + runsLen rest

/-- The link slot of the present frame (R313). -/
def linkSlot (s : State) (p : Nat) : Nat := (s.now - (frsOf s (portDie p)).began) / 320

/-- A flit is discarded outside ACTIVE (R317): counted; sixteen in a millisecond quarantine the port as faulty (R318). -/
def discardFlit (s : State) (p : Nat) : State :=
  let x := portOf s p
  let again := decide (s.now < x.discT + ms) && decide (x.discN > 0)
  let n := if again then x.discN + 1 else 1
  let s1 := lnkCount (putPort s p { x with discN := n, discT := if again then x.discT else s.now }) p 0x79 1
  let st := portState s p
  if n ≥ 16 ∧ (st = 1 ∨ st = 2 ∨ st = 3) then quarantine (updPort s1 p (fun y => { y with discN := 0 })) p 4 else s1

/-- The receiver asks for a flit again: class 0 a planned position, 1 a dynamic sequence number. -/
def sendNak (s : State) (p cls k : Nat) : State :=
  updPort s p (fun x => { x with nakOut := some (cls, k, frameNum s (portDie p) % 256) })

/-- Whether a flit's header is one the receiver takes (R312): types 7 to 15 are discarded as CRC failures. -/
def flitOk (f : LinkFlit) : Bool := decide (f.kind < 7) && decide (f.payload.length ≤ 492)

/-- A flit at a planned position (R324). -/
def plannedFlit (s : State) (p n : Nat) (crcOk : Bool) (f : LinkFlit) : State :=
  let st := portState s p
  if st ≠ 5 then (if st = 0 ∨ st = 6 ∨ st = 7 then s else discardFlit s p)
  else if !runsCover (linkBank s p).rx n then (if crcOk && flitOk f then lnkCount s p 0x71 1 else lnkCount s p 0x72 1)
  else if !crcOk || !flitOk f then sendNak (lnkCount s p 0x72 1) p 0 n
  else if f.kind ≠ 1 then sendNak (lnkCount s p 0x71 1) p 0 n
  else if f.frame % 256 ≠ frameNum s (portDie p) % 256 then lnkCount s p 0x71 1
  else lnkCount (updPort s p (fun x => { x with rx := mapSet x.rx n f })) p 0x71 1

/-- PLANNED_LINK_FLIT (R324). -/
def execPlannedLinkFlit (t : Time) (p : Port) (n : Nat) (crcOk : Bool) (f : LinkFlit) (s : State) : Host.Outcome State Fault Refusal :=
  .next (plannedFlit (traceRec (advance s t) (portDie p.val) 3 (p.val % 3)) p.val n crcOk f)

/-- A replay arrives in a dynamic position (R324): it counts while its delivery slot has not passed. -/
def replayFlit (s : State) (p : Nat) (crcOk : Bool) (f : LinkFlit) : State :=
  let st := portState s p
  if st ≠ 5 then (if st = 0 ∨ st = 6 ∨ st = 7 then s else discardFlit s p)
  else if !crcOk || !flitOk f then lnkCount s p 0x72 1
  else
    let s1 := lnkCount s p 0x71 1
    if runsCover (linkBank s p).rx f.seq && decide (f.frame % 256 = frameNum s (portDie p) % 256)
        && decide ((portOf s p).slotNext ≤ f.seq / 13 + linkDelay s p) then
      updPort s1 p (fun x => { x with rx := mapSet x.rx f.seq f })
    else s1

/-- PLANNED_REPLAY (R324). -/
def execPlannedReplay (t : Time) (p : Port) (crcOk : Bool) (f : LinkFlit) (s : State) : Host.Outcome State Fault Refusal :=
  .next (replayFlit (traceRec (advance s t) (portDie p.val) 3 (p.val % 3)) p.val crcOk f)

/-- The bytes of a request or response whose header begins a payload: 32, and its data by OP and LENGTH (R343). -/
def messageBytes (l : List Byte) : Nat :=
  let len := ofLE ((l.drop 12).take 2)
  match (ofLE ((l.drop 10).take 1)) with
  | 2 => 32 + len
  | 8 => 32 + len
  | 3 => 48
  | 0xA => 40
  | 0xC => 32 + len
  | _ => 32

/-- Delivers one planned position (R323, R325). -/
def deliverPos (p o : Nat) (s : State) (n : Nat) : State :=
  let die := portDie p
  let x := portOf s p
  match mapFind x.rx n with
  | some f =>
    let give (u : State) : State := enqueueFlit u die o { poison := f.poison, bytes := f.payload }
    if f.first then
      give (putPort s p { x with rx := mapErase x.rx n, skip := false, reqLeft := messageBytes f.payload - f.payload.length })
    else if x.skip then putPort s p { x with rx := mapErase x.rx n }
    else give (putPort s p { x with rx := mapErase x.rx n, reqLeft := x.reqLeft - f.payload.length })
  | none =>
    let s1 := lnkCount (lnkError s p 0x5020 (n % 2 ^ 24)) p 0x76 1
    if x.reqLeft > 0 && !x.skip then
      enqueueFlit (updPort s1 p (fun y => { y with reqLeft := y.reqLeft - 492 })) die o badFlit
    else updPort s1 p (fun y => { y with skip := true })

/-- The positions due in the present link slot, each once. -/
def duePositions (s : State) (p : Nat) : List Nat :=
  let k := linkSlot s p
  let d := linkDelay s p
  if k < d ∨ k < (portOf s p).slotNext then []
  else (upFrom (13 * (k - d)) 13).filter (runsCover (linkBank s p).rx)

/-- PLANNED_DELIVERY (R323): the flits due in this link slot go, in position order, to injection queue `o` of the die's router; `entryOk` says
whether the slot bank entry read is correctable (R442). -/
def execPlannedDelivery (t : Time) (p : Port) (o : Fin 5) (entryOk : Bool) (s : State) : Host.Outcome State Fault Refusal :=
  let s1 := advance s t
  let p := p.val
  if !planRuns s1 p || isHalted s1 (portDie p) (portPage p) then .next s1
  else if !entryOk then .next (haltUnit s1 (portDie p) (portPage p) (linkSlot s1 p))
  else
    let due := duePositions s1 p
    .next (foldState (deliverPos p o.val) (updPort s1 p (fun x => { x with slotNext := max x.slotNext (linkSlot s1 p + 1) })) due)

/-! ## Dynamic flits (R327) -/

/-- Delivers the flits that follow in sequence. -/
def drainHeld (x : PortSt) (n : Nat) : PortSt :=
  match n with
  | 0 => x
  | k + 1 =>
    match mapFind x.dynHeld x.dynNext with
    | none => x
    | some l =>
      drainHeld { x with dynHeld := mapErase x.dynHeld x.dynNext, dynNext := (x.dynNext + 1) % 2 ^ 24, lastDyn := x.lastDyn ++ [l] } k

/-- An intact dynamic or management flit arrives: delivered in sequence order; up to 32 are held behind a gap, which is NAKed. -/
def takeDynamic (s : State) (p : Nat) (f : LinkFlit) : State :=
  let x := portOf s p
  let s1 := lnkCount s p 0x71 1
  let ahead := (f.seq + 2 ^ 24 - x.dynNext) % 2 ^ 24
  if ahead = 0 then
    putPort s1 p (drainHeld { x with dynNext := (x.dynNext + 1) % 2 ^ 24, lastDyn := [f.payload] } 32)
  else if ahead < 2 ^ 23 then
    let y := if x.dynHeld.length < 32 then { x with dynHeld := mapSet x.dynHeld f.seq f.payload, lastDyn := [] } else { x with lastDyn := [] }
    sendNak (putPort s1 p y) p 1 x.dynNext
  else s1

/-- A NAK from the partner (R324, R327): a planned flit is resent once; a dynamic flit is resent, and DYN_LIMIT failed sends of one make the port
leave ACTIVE. -/
def takeNak (s : State) (p : Nat) (dyn : Bool) (k : Nat) : State :=
  let x := portOf s p
  if dyn then
    let n := if x.lastNak = k ∧ x.nakRun > 0 then x.nakRun + 1 else 1
    let s1 := lnkCount (putPort s p { x with lastNak := k, nakRun := n, tx := { x.tx with resends := x.tx.resends ++ [(s.now, k)] } }) p 0x77 1
    if n ≥ fld (lnk s p 0x058) 16 8 then leaveActive (updPort s1 p (fun y => { y with nakRun := 0 })) p 4 else s1
  else if x.resent.contains k then s
  else lnkCount (putPort s p { x with resent := x.resent ++ [k], tx := { x.tx with replays := x.tx.replays ++ [(s.now, k)] } }) p 0x75 1

/-- DYNAMIC_LINK_FLIT (R327): kinds 3 and 4; outside ACTIVE only management flits pass, in AUTH and QUARANTINE. -/
def execDynamicLinkFlit (t : Time) (p : Port) (crcOk : Bool) (f : LinkFlit) (nak : Option (Bool × Nat)) (s : State) :
    Host.Outcome State Fault Refusal :=
  let s1 := traceRec (advance s t) (portDie p.val) 3 (p.val % 3)
  let p := p.val
  let st := portState s1 p
  if st = 5 ∨ (f.kind = 4 ∧ (st = 3 ∨ st = 4)) then
    if crcOk && flitOk f then
      let s2 :=
        match nak with
        | none => s1
        | some (d, k) => takeNak s1 p d k
      .next (takeDynamic s2 p f)
    else .next (sendNak (lnkCount s1 p 0x72 1) p 1 (portOf s1 p).dynNext)
  else if st = 0 ∨ st = 6 ∨ st = 7 then .next s1
  else .next (discardFlit s1 p)

/-! ## Degradation (R314, R330, R331) -/

/-- A lane's corrected symbols in a window exceed 2^LANE_EXP (R330). -/
def degradeLane (p : Nat) (l : List Nat) (s : State) (i : Nat) : State :=
  if nth l i 0 > 2 ^ fld (lnk s p 0x058) 24 5 && !tbit (lnk s p 0x054) (8 + i) then
    setIrq (lnkError (setLnk s p 0x054 (8 + i) 1 1) p 0x5022 i) (portDie p) (portPage p) 18
  else s

/-- LINK_ERROR_WINDOW (R330): corrected symbols by lane, and corrected and uncorrectable codewords of the window that ends. -/
def execLinkErrorWindow (t : Time) (p : Port) (corrected : List Nat) (words : FecWindow) (s : State) : Host.Outcome State Fault Refusal :=
  let s1 := advance s t
  let p := p.val
  if portState s1 p ≠ 5 then .next s1
  else
    let s2 := foldState (degradeLane p corrected) (lnkCount (lnkCount s1 p 0x73 words.fixed) p 0x74 words.uncorr) (upFrom 0 8)
    if words.uncorr > fld (lnk s2 p 0x058) 0 16 then .next (leaveActive s2 p 0) else .next s2

/-- LANE_LOCK_LOSS (R330). -/
def execLaneLockLoss (t : Time) (p : Port) (lane : Fin 8) (s : State) : Host.Outcome State Fault Refusal :=
  let s1 := advance s t
  if portState s1 p.val = 5 then .next (leaveActive (setLnk s1 p.val 0x054 lane.val 1 0) p.val 1) else .next s1

/-- NO_FLIT_TIMEOUT (R330). -/
def execNoFlitTimeout (t : Time) (p : Port) (s : State) : Host.Outcome State Fault Refusal := .next (leaveActive (advance s t) p.val 2)

/-- ELASTIC_BUFFER_FAULT (R314): Z ports only. -/
def execElasticBufferFault (t : Time) (p : Port) (overflow : Bool) (s : State) : Host.Outcome State Fault Refusal :=
  let s1 := advance s t
  let d := portDir s1 p.val % 16
  if portState s1 p.val = 5 ∧ (d = 6 ∨ d = 7) then .next (leaveActive (lnkError s1 p.val 0x5023 (b2n overflow)) p.val 3) else .next s1

/-! ## Slot banks (R328, R329, R335) -/

/-- A write of SLOT_CTRL (R34, R329). -/
def writeSlotCtrl (s : State) (p : Nat) (v : Word) : State :=
  if tbit (lnk s p 0x064) 1 then lnkError s p 0x1011 (fld v 0 1)
  else
    let s1 := setLnk s p 0x060 0 1 (fld v 0 1)
    if tbit v 1 then noteArm (setLnk s1 p 0x064 1 1 1) (barOff (portDie p) (portPage p) 0x060) else s1

/-- LINK_SLOT_SWAP_ARM (R329). -/
def execLinkSlotSwapArm (t : Time) (p : Port) (v : Word) (s : State) : Host.Outcome State Fault Refusal :=
  .next (pageWrite (advance s t) (portDie p.val) (portPage p.val) 0x060 true (fun u => writeSlotCtrl u p.val v))

/-- A load of a port's slot bank with its D (R328). -/
def loadLink (s : State) (p bank : Nat) (b : LinkBank) (d : Nat) : State :=
  if tbit (lnk s p 0x064) 1 ∨ fld (lnk s p 0x064) 0 1 = bank then lnkError s p 0x1011 bank
  else
    let s1 := updPort s p (fun x => if bank = 1 then { x with bankB := b } else { x with bankA := b })
    setLnk (setReg s1 (portDie p) (portPage p) (if bank = 1 then 0x06C else 0x068) (BitVec.ofNat 32 (runsLen b.tx % 2 ^ 24))) p 0x050
      (8 * bank) 5 d

/-- Whether a slot bank is empty: neither TX nor RX runs (DEDUCED from R34). -/
def linkEmpty (b : LinkBank) : Bool := b.tx.isEmpty && b.rx.isEmpty

/-- An armed slot bank swap at a frame boundary (R34, R329); planned flits may be sent again (R326). -/
def swapLink (s : State) (p : Nat) : State :=
  if tbit (lnk s p 0x064) 1 && armedBefore s (barOff (portDie p) (portPage p) 0x060) s.now then
    let nb := fld (lnk s p 0x060) 0 1
    let s1 := setLnk s p 0x064 1 1 0
    if linkEmpty (if nb = 1 then (portOf s p).bankB else (portOf s p).bankA) then lnkError s1 p 0x1010 nb
    else updPort (setLnk s1 p 0x064 0 1 nb) p (fun x => { x with noPlanned := false })
  else s

/-! ## Transmission (R313, R322, R324, R327, R348, R405) -/

/-- Where positions are counted from: the frame's boundary, or the boundary at which frames stopped. -/
def txOrigin (s : State) (p : Nat) : Nat := if planRuns s p then (frsOf s (portDie p)).began else (frsOf s (portDie p)).ends

/-- The start of position `n` of a frame that began at `o` (R313): 13 positions of 2.419 ns in a slot of 32 ns; at four lanes each takes two (R331). -/
def posStart (o : Nat) (half : Bool) (n : Nat) : Nat :=
  let k := if half then 2 * n else n
  o + k / 13 * 320 + k % 13 * 2419 / 100

/-- The positions of a frame that have started by a moment. -/
def posCount (o : Nat) (half : Bool) (t : Nat) : Nat :=
  let r := (t - o) % 320
  let k := if t < o then 0 else (t - o) / 320 * 13 + ((upFrom 0 13).filter (fun i => decide (i * 2419 / 100 ≤ r))).length
  if half then (k + 1) / 2 else k

/-- The first position that starts at or after a moment. -/
def posFrom (o : Nat) (half : Bool) (t : Nat) : Nat := if t = 0 then 0 else posCount o half (t - 1)

/-- The first dynamic position from `n` on (R313). -/
def nextDyn (n : Nat) : Nat := ((upFrom n 34).find? dynSlot).getD n

/-- The planned position of a planned index (R313). -/
def plannedAt (i : Nat) : Nat :=
  let j := i % 97
  i / 97 * 100 + j + 1 + b2n (decide (j ≥ 32)) + b2n (decide (j ≥ 64))

/-- The first planned position of a run list from `n` on. -/
def nextPlanned (l : List LinkRun) (n : Nat) : Option Nat :=
  (l.find? (fun r => decide (plannedIndex n < plannedIndex r.first + r.count))).map (fun r => plannedAt (max (plannedIndex n) (plannedIndex r.first)))

/-- The planned positions of a run list from `a` up to `b`. -/
def plannedBetween (l : List LinkRun) (a b : Nat) : Nat :=
  foldState (fun n r =>
    let lo := max (plannedIndex a) (plannedIndex r.first)
    let hi := min (plannedIndex b) (plannedIndex r.first + r.count)
    n + (hi - lo)) 0 l

/-- The payload of a link flit (R312). -/
def linkPayload : Nat := 492

/-- Whether the first message of a queue has entered by a moment. -/
def txReady (t : Nat) (q : List TxItem) : Bool :=
  match q with
  | [] => false
  | i :: _ => decide (i.entered ≤ t)

/-- Whether the next `n` bytes of a message hold a poisoned word of its data. -/
def txBad (i : TxItem) (n : Nat) : Bool := marked (i.poison.map (fun k => k + 4)) i.off n

/-- The next bytes of a message that is longer than a flit, or the rest of one that is: the payload and whether it is poisoned, and what is left. -/
def takePart (i : TxItem) : List Byte × Bool × Option TxItem :=
  let l := (i.bytes.drop i.off).take linkPayload
  (l, txBad i l.length, if i.off + l.length < i.bytes.length then some { i with off := i.off + l.length } else none)

/-- Whole messages of a queue that have entered by a moment, packed while they fit into `room` bytes (R347). -/
def packTx (t room : Nat) (q : List TxItem) : List Byte × Bool × List TxItem :=
  match q with
  | [] => ([], false, [])
  | i :: r =>
    if i.entered ≤ t ∧ i.off = 0 ∧ i.bytes.length ≤ room then
      let n := packTx t (room - i.bytes.length) r
      (i.bytes ++ n.1, txBad i i.bytes.length || n.2.1, n.2.2)
    else ([], false, i :: r)

/-- The payload of a dynamic flit of a class: messages packed, or a part of a long one; whether it is poisoned, whether a header begins it, and the
queue after it (R312, R347). -/
def takeTx (t : Nat) (q : List TxItem) : List Byte × Bool × Bool × List TxItem :=
  match q with
  | [] => ([], false, false, [])
  | i :: r =>
    if i.off = 0 ∧ i.bytes.length ≤ linkPayload then
      let n := packTx t linkPayload q
      (n.1, n.2.1, true, n.2.2)
    else
      let n := takePart i
      (n.1, n.2.1, decide (i.off = 0), n.2.2.toList ++ r)

/-- What fills a dynamic position (R348). -/
inductive TxSource where
  | replay | resend | control | express | bulk | nothing
deriving DecidableEq, Repr

/-- The source of the dynamic position that begins at `t` (R348): planned replays, dynamic resends, control, then express and bulk, of which express
takes three positions of four while both wait; the pace of the links domain keeps bulk from a share of its positions (R405). -/
def nextSource (s : State) (x : PortTx) (t : Nat) : TxSource :=
  let e := txReady t x.express
  let b := txReady t x.bulk
  if x.replays.any (fun r => decide (r.1 ≤ t)) then .replay
  else if x.resends.any (fun r => decide (r.1 ≤ t)) then .resend
  else if txReady t x.control then .control
  else if b && (!e || decide (x.turn ≥ 3)) then
    (if paceAllows s 2 x.bulkTurns then .bulk else if e then .express else .nothing)
  else if e then .express
  else .nothing

/-- A dynamic flit with the next sequence number; it is kept for a resend. -/
def dynFlit (s : State) (p : Nat) (x : PortTx) (n : List Byte × Bool × Bool × List TxItem) : LinkFlit × PortTx :=
  let f : LinkFlit := { kind := 3, first := n.2.2.1, frame := frameNum s (portDie p) % 256, poison := n.2.1, seq := x.dynSeq, payload := n.1 }
  let kept := mapSet (x.dynSent.filter (fun q => decide ((x.dynSeq + 2 ^ 24 - q.1) % 2 ^ 24 < 64))) x.dynSeq f
  (f, { x with dynSeq := (x.dynSeq + 1) % 2 ^ 24, dynSent := kept })

/-- Whether both express and bulk wait at a moment. -/
def bothWait (x : PortTx) (t : Nat) : Bool := txReady t x.express && txReady t x.bulk

/-- The flit of the dynamic position that begins at `t`, if one goes, with its injection class, and the transmit side after it. A replay goes as type
2, a resend with its old sequence number; one of which nothing was sent is dropped. -/
def dynPosition (s : State) (p : Nat) (x : PortTx) (t : Nat) : Option (Nat × LinkFlit) × PortTx :=
  let due := txReady t x.bulk && (!txReady t x.express || decide (x.turn ≥ 3))
  let x1 := if due then { x with bulkTurns := x.bulkTurns + 1 } else x
  match nextSource s x t with
  | .replay =>
    match x.replays with
    | [] => (none, x)
    | r :: rest => ((mapFind x.sent r.2).map (fun f => (0, { f with kind := 2 })), { x with replays := rest })
  | .resend =>
    match x.resends with
    | [] => (none, x)
    | r :: rest => ((mapFind x.dynSent r.2).map (fun f => (1, f)), { x with resends := rest })
  | .control =>
    let n := takeTx t x.control
    let r := dynFlit s p { x with control := n.2.2.2 } n
    (some (1, r.1), r.2)
  | .express =>
    let n := takeTx t x.express
    let r := dynFlit s p { x1 with express := n.2.2.2, turn := if bothWait x t then x.turn + 1 else x.turn } n
    (some (1, r.1), r.2)
  | .bulk =>
    let n := takeTx t x.bulk
    let r := dynFlit s p { x1 with bulk := n.2.2.2, turn := 0 } n
    (some (1, r.1), r.2)
  | .nothing => (none, x1)

/-- The planned flit of position `n`, if the planned queue holds a message by then (R322): up to 492 bytes of its head. -/
def planPosition (s : State) (p : Nat) (x : PortTx) (n t : Nat) : Option (Nat × LinkFlit) × PortTx :=
  match x.planned with
  | [] => (none, x)
  | i :: r =>
    if i.entered ≤ t then
      let l := takePart i
      let f : LinkFlit := { kind := 1, first := decide (i.off = 0), frame := frameNum s (portDie p) % 256, poison := l.2.1, seq := n, payload := l.1 }
      (some (0, f), { x with planned := l.2.2.toList ++ r, sent := mapSet x.sent n f })
    else (none, x)

/-- The moment from which something waits at a port's dynamic sources, if anything does. -/
def dynSince (x : PortTx) : Option Nat :=
  let h (q : List TxItem) : List Nat := (q.take 1).map (fun i => i.entered)
  let l := (x.replays ++ x.resends).map (fun r => r.1) ++ h x.control ++ h x.express ++ h x.bulk
  match l with
  | [] => none
  | a :: r => some (foldState min a r)

/-- The next position from `n` on that a port has something for: the first dynamic one at or after the moment something waits, or the first planned
one of its runs for a waiting planned message. -/
def nextPos (x : PortTx) (o : Nat) (half : Bool) (runs : List LinkRun) (n : Nat) : Option Nat :=
  let at_ (t : Nat) : Nat := max n (posFrom o half t)
  let d := (dynSince x).map (fun t => nextDyn (at_ t))
  let k := match x.planned with
    | [] => none
    | i :: _ => nextPlanned runs (at_ i.entered)
  match d, k with
  | some a, some b => some (min a b)
  | some a, none => some a
  | none, b => b

/-! ## Injection of faults into transmitted flits (R333, R334) -/

/-- Injection stops: the permission is withdrawn, or COUNT selections are made. -/
def stopInj (s : State) (p : Nat) : State := setLnk s p 0x084 16 1 0

/-- Counts a flit that an injection affects. -/
def affected (s : State) (p : Nat) : State :=
  lnkCount (setLnk s p 0x084 0 16 (min 65535 (fld (lnk s p 0x084) 0 16 + 1))) p 0x7A 1

/-- The byte list with byte 17 inverted. -/
def corruptFlit (f : LinkFlit) : LinkFlit := { f with payload := setNth f.payload 17 (~~~ (nth f.payload 17 0#8)) }

/-- An idle flit in a flit's place. -/
def idleFlit (f : LinkFlit) : LinkFlit := { kind := 0, first := false, frame := f.frame, poison := false, seq := 0, payload := [] }

/-- The flits that leave when a flit does, besides it: one held for a swap with its class, and delayed ones whose time has come. -/
def releaseHeld (s : State) (p cls : Nat) : List LinkFlit × State :=
  let x := portOf s p
  let sw := x.swapped.filter (fun q => decide (q.1 = cls))
  let dl := x.delayed.filter (fun q => decide (q.1 ≤ s.now))
  ((sw ++ dl).map (fun q => q.2),
   putPort s p { x with swapped := x.swapped.filter (fun q => decide (q.1 ≠ cls)),
                        delayed := x.delayed.filter (fun q => !decide (q.1 ≤ s.now)) })

/-- What a mode makes of a selected flit: the flits sent now. -/
def applyMode (s : State) (p mode cls : Nat) (f : LinkFlit) : List LinkFlit × State :=
  match mode with
  | 1 => ([idleFlit f], s)
  | 2 => ([corruptFlit f], s)
  | 3 => ([], updPort s p (fun x => { x with swapped := x.swapped ++ [(cls, f)] }))
  | 4 => ([], updPort s p (fun x => { x with delayed := x.delayed ++ [(s.now + fld (lnk s p 0x080) 11 5 * 320, f)] }))
  | _ => ([f], s)

/-- A flit of a class (0 planned and replay, 1 dynamic, 2 management) leaves the port while injection may act on it: every 2^RATE_EXP-th of the
selected classes, up to COUNT. -/
def injectFlitOut (s : State) (p mode cls : Nat) (f : LinkFlit) : State :=
  let c := lnk s p 0x080
  let s0 := if tbit (lnk s p 0x084) 16 && !hasService s (portDie p) then stopInj s p else s
  let rel := releaseHeld s0 p cls
  let s1 := rel.2
  let live := tbit (lnk s1 p 0x084) 16 && decide (fld c 0 3 = mode) && tbit c (3 + cls)
  let x := portOf s1 p
  let n := x.injSeen + 1
  if live && decide (n % 2 ^ fld c 6 5 = 0) then
    let r := applyMode (affected (putPort s1 p { x with injSeen := n, injSel := x.injSel + 1 }) p) p mode cls f
    let s2 := lnkCount (updPort r.2 p (fun y => { y with lastTx := r.1 ++ rel.1 })) p 0x70 (r.1 ++ rel.1).length
    if fld c 16 16 ≠ 0 ∧ x.injSel + 1 ≥ fld c 16 16 then setIrq (stopInj s2 p) (portDie p) (portPage p) 19 else s2
  else
    lnkCount (putPort s1 p { x with injSeen := if live then n else x.injSeen, lastTx := f :: rel.1 }) p 0x70 (rel.1.length + 1)

/-- A flit leaves the port: the injection in force may act on it (R333). -/
def emitFlit (s : State) (p : Nat) (f : Nat × LinkFlit) : State :=
  let old := (portOf s p).lastTx
  updPort (injectFlitOut s p (fld (lnk s p 0x080) 0 3) f.1 f.2) p (fun x => { x with lastTx := old ++ x.lastTx })

/-- Serves the positions of a port that it has something for, from its next one up to position `z`, at most `fuel` of them. -/
def servePositions (fuel : Nat) (s : State) (p o : Nat) (half : Bool) (runs : List LinkRun) (z : Nat) : State :=
  match fuel with
  | 0 => s
  | k + 1 =>
    let x := (portOf s p).tx
    match nextPos x o half runs x.next with
    | none => s
    | some n =>
      if n ≥ z then s
      else
        let r := if dynSlot n then dynPosition s p x (posStart o half n) else planPosition s p x n (posStart o half n)
        let s1 := updPort s p (fun y => { y with tx := { r.2 with next := n + 1 } })
        servePositions k (match r.1 with
          | some f => emitFlit s1 p f
          | none => s1) p o half runs z

/-- What a port still has to send, in flits, and the bulk positions that the pace may refuse. -/
def txLoad (x : PortTx) : Nat :=
  let q (l : List TxItem) : Nat := foldState (fun n i => n + i.bytes.length / linkPayload + 1) 0 l
  x.replays.length + x.resends.length + q x.planned + q x.control + q x.express + 8 * q x.bulk

/-- A port serves the positions that have started by now (R322, R348): a port in ACTIVE only, from the position after the one it served last; planned
positions that its queue had nothing for are counted empty. Planned flits go only at eight lanes, while frames run, and not after the port left ACTIVE
until its bank swaps (R326, R331). -/
def serveLink (s : State) (p : Nat) : State :=
  let x := portOf s p
  let half := decide (fld (lnk s p 0x044) 13 2 = 1)
  let o := txOrigin s p
  let z := posCount o half s.now
  let from_ := max (if x.tx.origin = o then x.tx.next else 0) (posFrom o half x.since)
  let runs := if half || x.noPlanned || !planRuns s p then [] else (linkBank s p).tx
  let s0 := putPort s p { x with tx := { x.tx with origin := o, next := from_ } }
  if portState s p ≠ 5 then updPort s0 p (fun y => { y with tx := { y.tx with next := max from_ z } })
  else
    let s1 := servePositions (2 * txLoad x.tx + 2) (updPort s0 p (fun y => { y with lastTx := [] })) p o half runs z
    let used := ((portOf s1 p).tx.sent.filter (fun q => decide (from_ ≤ q.1))).length
    let empty := plannedBetween runs from_ z - used
    let s2 := updPort s1 p (fun y => { y with tx := { y.tx with next := max from_ z } })
    if empty = 0 then s2 else lnkCount s2 p 0x78 empty

/-- Whether a port has anything to transmit, or planned positions to count. -/
def transmits (s : State) (p : Nat) : Bool :=
  decide (txLoad (portOf s p).tx > 0) || (planRuns s p && !(linkBank s p).tx.isEmpty)

/-- Every port with something to transmit serves its positions up to now. -/
def serveLinks (s : State) : State := foldState (fun u p => if transmits u p then serveLink u p else u) s (upFrom 0 42)

/-- The ports of a die. -/
def diePorts (die : Nat) : List Nat := if dieType die = .bough then upFrom (3 * dieOrd die) 3 else []

/-- A frame boundary at a port: the positions of the frame are served, and its planned flits are over. -/
def portBoundary (s : State) (p : Nat) : State :=
  updPort (if transmits s p then serveLink s p else s) p
    (fun x => { x with rx := [], slotNext := 0, reqLeft := 0, skip := false, resent := [], tx := { x.tx with sent := [], replays := [] } })

/-- A write of LNK_DELAY (R335). -/
def writeLnkDelay (s : State) (p : Nat) (v : Word) : State :=
  let active := fld (lnk s p 0x064) 0 1
  let cap := fld (lnk s p 0x04C) 16 5
  let old := lnk s p 0x050
  let bad (bank : Nat) : Bool :=
    decide (fld v (8 * bank) 5 ≠ fld old (8 * bank) 5)
      && (decide (bank = active) || decide (fld v (8 * bank) 5 = 0) || decide (fld v (8 * bank) 5 < cap))
  if bad 0 || bad 1 then lnkError s p 0x1091 0x050
  else setReg s (portDie p) (portPage p) 0x050 (v &&& 0x1F1F#32)

/-- A write of DEGRADE_CFG (R335). -/
def writeDegrade (s : State) (p : Nat) (v : Word) : State :=
  if fld v 0 16 = 0 ∨ fld v 16 8 = 0 ∨ fld v 24 5 = 0 then lnkError s p 0x1091 0x058
  else setReg s (portDie p) (portPage p) 0x058 (v &&& 0x1FFFFFFF#32)

/-! ## Fault injection (R333, R334) -/

/-- A write of INJ_CTRL (R333): only with the Service permission. -/
def writeInj (s : State) (p : Nat) (v : Word) : State :=
  if !hasService s (portDie p) then lnkError s p 0x8001 0x080
  else
    let on := decide (1 ≤ fld v 0 3) && decide (fld v 0 3 ≤ 4)
    let s1 := setReg (setReg s (portDie p) (portPage p) 0x080 v) (portDie p) (portPage p) 0x084 (if on then 0x10000#32 else 0#32)
    updPort s1 p (fun x => { x with injSeen := 0, injSel := 0, swapped := [], delayed := [] })

/-- INJECT_DROP (R334). -/
def execInjectDrop (t : Time) (p : Port) (cls : Fin 3) (f : LinkFlit) (s : State) : Host.Outcome State Fault Refusal :=
  .next (injectFlitOut (advance s t) p.val 1 cls.val f)

/-- INJECT_CORRUPT (R334). -/
def execInjectCorrupt (t : Time) (p : Port) (cls : Fin 3) (f : LinkFlit) (s : State) : Host.Outcome State Fault Refusal :=
  .next (injectFlitOut (advance s t) p.val 2 cls.val f)

/-- INJECT_REORDER (R334). -/
def execInjectReorder (t : Time) (p : Port) (cls : Fin 3) (f : LinkFlit) (s : State) : Host.Outcome State Fault Refusal :=
  .next (injectFlitOut (advance s t) p.val 3 cls.val f)

/-- INJECT_DELAY (R334). -/
def execInjectDelay (t : Time) (p : Port) (cls : Fin 3) (f : LinkFlit) (s : State) : Host.Outcome State Fault Refusal :=
  .next (injectFlitOut (advance s t) p.val 4 cls.val f)

end Sys2Proof.Machine
end

