-- ==== Sys2Proof/Machine/Tiers.lean ====
section
/-!
DEFINITION. Sys2Proof/Machine/Tiers.lean: Tier 1 and Tier 2 (R276 to R308), home queues (R346) and parity regions (R210, R222, R223).
-/
namespace Sys2Proof.Machine

/-! ## Tier 1 lines (R279, R290 to R292) -/

/-- Bytes of a stack. -/
def stackSize : Nat := 0x000C00000000

/-- Bytes of Tier 1. -/
def t1Size : Nat := 0x00C000000000

/-- The stack of a line. -/
def lineStack (l : Nat) : Nat := l * 64 / stackSize

/-- What an unlisted line holds: clean zeros where ZERO_INIT filled the stack (R465), never-written poison elsewhere (R293). -/
def lineDefault (s : State) (l : Nat) : LineSt := if mapGet s.t1clean (lineStack l) false then .clean else .never

/-- What a line holds, by module offset ÷ 64. -/
def lineSt (s : State) (l : Nat) : LineSt := mapGet s.t1line l (lineDefault s l)

/-- The state with what a line holds replaced. -/
def setLine (s : State) (l : Nat) (v : LineSt) : State := { s with t1line := mapPut (lineDefault s l) s.t1line l v }

/-- `n` lines from line `l` take never-written poison (R291). -/
def neverRange (s : State) (l n : Nat) : State :=
  let s1 := { s with t1 := mapEraseRange s.t1 (l * 64) ((l + n) * 64) }
  if mapGet s.t1clean (lineStack l) false || mapGet s.t1clean (lineStack (l + n - 1)) false then
    foldState (fun u k => setLine u k .never) s1 (upFrom l n)
  else { s1 with t1line := mapEraseRange s1.t1line l (l + n) }

/-- A line's number within its stack (R308). -/
def lineLocal (l : Nat) : Nat := l - l * 64 / stackSize * (stackSize / 64)

/-- A stack's memory controller. -/
def mbcOf (s : State) (st : Nat) : Mbc := mapGet s.mbc st Mbc.reset

/-- The state with a stack's memory controller replaced. -/
def putMbc (s : State) (st : Nat) (x : Mbc) : State := { s with mbc := mapPut Mbc.reset s.mbc st x }

/-- Whether a stack's lines are being initialised (R293, R465). -/
def initialising (x : Mbc) : Bool := x.initAt.isSome || x.zeroAt.isSome

/-- A register of a stack's MBC page. -/
def mbcReg (s : State) (st off : Nat) : Word := reg s (mmDie st) 8 off

/-- The state with a field of an MBC register replaced. -/
def setMbcFld (s : State) (st off lo n v : Nat) : State := setRegFld s (mmDie st) 8 off lo n v

/-- An error of a line, in its stack's MBC page (R308). -/
def lineError (s : State) (l code : Nat) : State := recordError s (mmDie (lineStack l)) 8 code (lineLocal l % 2 ^ 24)

/-- Counts an event of a stack. -/
def mbcCount (s : State) (st code n : Nat) : State := count s (mmDie st) 8 code n

/-- The ECC check of a line that an access reads (R290, R291): every corrected codeword is counted; an uncorrectable line takes error poison. -/
def checkLine (s : State) (l : Nat) (ecc : LineEcc) : State :=
  let st := lineStack l
  let k := lineLocal l
  let addr (o : Nat) (u : State) : State := setReg u (mmDie st) 8 o (BitVec.ofNat 32 (k % 2 ^ 30 + 2 ^ 31))
  let n := min (if ecc.bad.contains k then 1 else 2) (ecc.corrected.filter (fun j => decide (j = k))).length
  let s1 := if n > 0 then addr 0x058 (mbcCount s st 0x20 n) else s
  if ecc.bad.contains k then addr 0x05C (mbcCount (lineError (setLine s1 l .error) l 0x3050) st 0x21 1) else s1

/-- A read of one line (R291): whether it is returned poisoned. -/
def readLine (s : State) (l : Nat) (ecc : LineEcc) : State × Bool :=
  let s1 := checkLine s l ecc
  match lineSt s1 l with
  | .clean => (s1, false)
  | .error => (s1, true)
  | .never => (mbcCount (lineError s1 l 0x2060) (lineStack l) 0x22 1, true)

/-- The numbers of the lines that hold bytes of a range. -/
def linesOf (off n : Nat) : List Nat := if n = 0 then [] else upFrom (off / 64) ((off + n - 1) / 64 - off / 64 + 1)

/-- A read of several lines: the poisoned ones are noted. -/
def readLines (ecc : LineEcc) (acc : State × List Nat) (l : Nat) : State × List Nat :=
  let r := readLine acc.1 l ecc
  (r.1, if r.2 then acc.2 ++ [l] else acc.2)

/-- The marks of a transfer of `n` bytes from an offset whose poisoned lines are given. -/
def lineMarks (off n : Nat) (bad : List Nat) : List Nat :=
  if bad.isEmpty then []
  else (upFrom 0 (ceilDiv n 8)).filter (fun k => bad.any (fun l => decide (l * 64 < off + min n (8 * k + 8)) && decide (off + 8 * k < l * 64 + 64)))

/-- The bytes of a range of Tier 1. -/
def t1Bytes (s : State) (off n : Nat) : List Byte := (upFrom off n).map (fun a => mapGet s.t1 a 0#8)

/-- A read of a range of Tier 1 (R291): the state after it, the bytes, and the marks of their poisoned words, line by line. -/
def t1Read (s : State) (off n : Nat) (ecc : LineEcc) : State × List Byte × List Nat :=
  let r := foldState (readLines ecc) (s, []) (linesOf off n)
  (r.1, t1Bytes s off n, lineMarks off n r.2)

/-- The state with bytes of Tier 1 stored. -/
def t1Put (s : State) (off : Nat) (l : List Byte) : State :=
  match l with
  | [] => s
  | b :: r => t1Put { s with t1 := mapPut 0#8 s.t1 off b } (off + 1) r

/-- The parity region registers of a memory die as a store that reaches its port now goes by: a write of a region acts from the next mesh cycle on
(R222, R223). -/
def regionWords (s : State) (die : Nat) : List Word := (upFrom 0 16).map (fun i => sampledReg s (barOff die 8 (0x300 + 4 * i)))

/-- The parity region of a stack that covers a byte of it, if one does (R210, R222), for the store in hand. -/
def xorRegion (s : State) (st addr : Nat) : Option Nat :=
  let held := (mbcOf s st).regionsOf
  let r (n o : Nat) : Word := if held.isEmpty then sampledReg s (barOff (mmDie st) 8 (o + 8 * n)) else nth held (2 * n + (o - 0x300) / 4) 0#32
  (upFrom 0 8).find? (fun n =>
    tbit (r n 0x304) 31 && decide (fld (r n 0x300) 0 24 ≤ addr / 4096)
      && decide (addr / 4096 < fld (r n 0x300) 0 24 + fld (r n 0x304) 0 24))

/-- A poisoned XOR-write (R210, R292): 0x3040 with the line's number in its region. -/
def xorLost (s : State) (l n : Nat) : State :=
  let st := lineStack l
  let base := fld (mbcReg s st (0x300 + 8 * n)) 0 24 * 64
  mbcCount (recordError s (mmDie st) 8 0x3040 ((lineLocal l - base) % 2 ^ 24)) st 0x31 1

/-- A store of bytes within one line (R210, R292): the state after it and the error of its completion. -/
def writeLine (s : State) (off : Nat) (data : List Byte) (poison : Bool) : State × Nat :=
  let l := off / 64
  match xorRegion s (lineStack l) (off % stackSize) with
  | some n =>
    if lineSt s l ≠ .clean then (xorLost s l n, 0)
    else if poison then (xorLost (setLine s l .error) l n, 0)
    else
      let old := t1Bytes s off data.length
      (mbcCount (t1Put s off (List.zipWith (fun a b => a ^^^ b) old data)) (lineStack l) 0x30 1, 0)
  | none =>
    if data.length = 64 then (setLine (t1Put s off data) l (if poison then .error else .clean), 0)
    else
      match lineSt s l with
      | .never => (lineError s l 0x2061, 0x2061)
      | .error => (lineError s l 0x3052, 0x3052)
      | .clean => (setLine (t1Put s off data) l (if poison then .error else .clean), 0)

/-- A store that may cross lines, line by line, a line poisoned where its bytes of the data are; its error is the first one. `pos` bytes are stored
already. -/
def t1WriteFrom (fuel : Nat) (s : State) (off pos : Nat) (data : List Byte) (poison : List Nat) (err : Nat) : State × Nat :=
  match fuel with
  | 0 => (s, err)
  | k + 1 =>
    if data.isEmpty then (s, err)
    else
      let n := 64 - off % 64
      let r := writeLine s off (data.take n) (marked poison pos (min n data.length))
      t1WriteFrom k r.1 (off + n) (pos + n) (data.drop n) poison (if err = 0 then r.2 else err)

/-- A store to Tier 1: the state after it and the error of its completion. -/
def t1Write (s : State) (off : Nat) (data : List Byte) (poison : List Nat) : State × Nat :=
  t1WriteFrom (data.length / 64 + 2) s off 0 data poison 0

/-- An atomic on Tier 1 (R292, R345): the state after it, the error of its completion, and the old value. -/
def t1Atomic (s : State) (m : FabMsg) (ecc : LineEcc) : State × Nat × Nat :=
  let l := m.offset / 64
  let s1 := checkLine s l ecc
  match lineSt s1 l with
  | .never => (lineError s1 l 0x2061, 0x2061, 0)
  | .error => (lineError s1 l 0x3052, 0x3052, 0)
  | .clean =>
    let old := ofLE (t1Bytes s1 m.offset (atomicBytes m))
    (t1Put s1 m.offset (atomicStore m old), 0, old)

/-- A memory die performs an unplanned request and answers it (R344, R345). -/
def t1Perform (s : State) (m : FabMsg) (ecc : LineEcc) : State :=
  let s1 := mbcCount s (m.offset / stackSize) 0x25 1
  match m.op with
  | 1 =>
    let r := t1Read s1 m.offset m.len ecc
    reply r.1 m 0 r.2.1 r.2.2
  | 2 =>
    let r := t1Write s1 m.offset m.data m.poison
    reply r.1 m r.2 [] []
  | 3 =>
    let r := t1Atomic s1 m ecc
    reply r.1 m r.2.1 (atomicReply r.2.2) []
  | _ => s1

/-! ## Bank sets (R279, R285) -/

/-- Whether a bank set that holds a byte of a range of a stack is being refreshed at a moment: 24 ticks from its refresh's start (R285). -/
def refreshingAt (x : Mbc) (addr len t : Nat) : Bool :=
  (upFrom (addr / 16384) ((addr + (len - 1)) / 16384 - addr / 16384 + 1)).any (fun k =>
    let r := nth x.refAt (k % 16) 0
    r != 0 && decide (r ≤ t) && decide (t < r + 24 * 64))

/-- Whether a refresh in progress keeps a planned read's data beyond its 240 mesh cycles (R281, R285). -/
def refreshLate (x : Mbc) (addr len t : Nat) : Bool :=
  (upFrom (addr / 16384) ((addr + (len - 1)) / 16384 - addr / 16384 + 1)).any (fun k =>
    let r := nth x.refAt (k % 16) 0
    r != 0 && decide (r ≤ t) && decide (t + 240 * 5 < r + 24 * 64))

/-! ## Planned accesses (R280, R281) -/

/-- The place of a router input in the order of R30: local, north, east, south, west. -/
def inputRank (inp : Nat) : Nat := if inp = 4 then 0 else inp + 1

/-- Whether an access comes in the order of R280: in one mesh cycle the inputs follow the order of R30. -/
def inOrder (s : State) (st inp : Nat) : Bool :=
  decide ((mbcOf s st).planCyc ≠ meshCyc s s.now) || decide ((mbcOf s st).planIn ≤ inputRank inp)

/-- Notes the input of a planned access. -/
def notePlanned (s : State) (st inp : Nat) : State :=
  putMbc s st { mbcOf s st with planCyc := meshCyc s s.now, planIn := inputRank inp }

/-- Planned read data that was not ready in time (R281): 0x3051, counted. -/
def lateRead (s : State) (st addr : Nat) : State :=
  mbcCount (recordError s (mmDie st) 8 0x3051 (addr / 128 % 32 + addr / 4096 % 64 * 32)) st 0x2A 1

/-- Performs a planned request of the fabric and answers it (R280, R281, R344, R345): late read data goes poisoned. -/
def plannedRequest (s : State) (st : Nat) (m : FabMsg) (ready : Bool) (ecc : LineEcc) : State :=
  match m.op with
  | 1 =>
    let r := t1Read (mbcCount s st 0x23 1) m.offset m.len ecc
    if ready then reply r.1 m 0 r.2.1 r.2.2
    else reply (lateRead r.1 st (m.offset % stackSize)) m 0 (List.replicate m.len 0#8) (allMarks true m.len)
  | 2 =>
    let r := t1Write (mbcCount s st 0x24 1) m.offset m.data m.poison
    reply r.1 m r.2 [] []
  | 3 =>
    let r := t1Atomic (mbcCount s st 0x24 1) m ecc
    reply r.1 m r.2.1 (atomicReply r.2.2) []
  | _ => s

/-- Performs a planned access: read data is shown in `lastResp`, poisoned where it was not ready in time. -/
def plannedAccess (s0 : State) (st : Nat) (a : PlanAcc) (ready : Bool) (ecc : LineEcc) : State :=
  let s := traceRec s0 (mmDie st) 4 0
  let off := st * stackSize + a.addr
  match a.msg with
  | some m => plannedRequest s st m ready ecc
  | none =>
    if a.write then (t1Write (mbcCount s st 0x24 1) off a.data (allMarks a.poison a.data.length)).1
    else
      let r := t1Read (mbcCount s st 0x23 1) off a.len ecc
      let u := { r.1 with lastResp := { generation := 0, err := 0, data := r.2.1, poison := r.2.2, late := false } }
      if ready then u
      else lateRead { u with lastResp := { generation := 0, err := 0, data := [], poison := allMarks true a.len, late := false } } st a.addr

/-- A planned access reaches its stack (R280, R293): it is performed, or waits for the end of an initialisation. -/
def plannedArrives (s : State) (st inp : Nat) (a : PlanAcc) (ready : Bool) (ecc : LineEcc) : State :=
  let x := mbcOf s st
  if initialising x then putMbc s st { x with waiting := x.waiting ++ [a] }
  else if inOrder s st inp then
    plannedAccess (notePlanned s st inp) st a (ready && !refreshLate x a.addr a.len s.now) ecc
  else s

/-- TIER1_PLANNED_ACCESS (R280): `found.ready` says whether read data is ready in 240 mesh cycles. An access during initialisation waits for its
end (R293). -/
def execTier1PlannedAccess (t : Time) (stack : Stack) (inp : Fin 5) (addr : Nat) (write : Bool) (len : Nat) (data : List Byte) (poison : Bool)
    (found : PlanFound) (s : State) : Host.Outcome State Fault Refusal :=
  let s1 := advance s t
  let a : PlanAcc := { addr := addr % stackSize, write := write, len := len, data := data, poison := poison, since := s1.now }
  if isHalted s1 (mmDie stack.val) 8 then .next s1
  else .next (plannedArrives s1 stack.val inp.val a found.ready found.lines)

/-- The accesses that waited for an initialisation are performed; read data later than 240 mesh cycles after its access arrived was not ready in
time (R281, R293). -/
def runWaiting (s : State) (st : Nat) (l : List PlanAcc) : State :=
  foldState (fun u a => plannedAccess u st a (decide (meshCyc u u.now ≤ meshCyc u a.since + 240)) { bad := [], corrected := [] }) s l

/-! ## Home queues (R346) -/

/-- Places in a die's home queue. -/
def homeDepth (die : Nat) : Nat := if dieType die = .memory then 256 else if die = 98 then 128 else 64

/-- A die's home queue. -/
def homeQ (s : State) (die : Nat) : HomeQ := mapGet s.homeQ die HomeQ.empty

/-- The state with a die's home queue replaced; the mesh cycles in which a request was held are counted up to now. -/
def putHomeQ (s : State) (die : Nat) (x : HomeQ) : State :=
  let old := homeQ s die
  let s1 := if old.held.isEmpty then s else count s die 0 0x07 (meshCyc s s.now - meshCyc s old.since)
  { s1 with homeQ := mapPut HomeQ.empty s1.homeQ die { x with since := if x.held.isEmpty then 0 else s1.now } }

/-- The pool address that a Tier 2 window offset names under the present segment table (R42, R301). -/
def poolAddr (s : State) (off : Nat) : Option Nat :=
  let w := off % 2 ^ 40
  let e := sampledReg s (barOff 98 8 (0x800 + 4 * (w / 2 ^ 32)))
  if tbit e 31 then some (fld e 0 12 * 2 ^ 32 + w % 2 ^ 32) else none

/-- A request arrives at its home's queue: it waits there, or is held at the mesh port while the queue is full or an earlier one of its input is
held. -/
def enterHome (s : State) (die inp : Nat) (m : FabMsg) : State :=
  let x := homeQ s die
  let r : HomeReq := { msg := m, inp := inp, pool := if die = 98 then poolAddr s m.offset else none,
                       regions := if dieType die = .memory then regionWords s die else [] }
  if x.q.length ≥ homeDepth die || x.held.any (fun h => decide (h.inp = inp)) then putHomeQ s die { x with held := x.held ++ [r] }
  else putHomeQ s die { x with q := x.q ++ [r] }

/-- The first held request of an input, and the rest. -/
def takeHeldOf (inp : Nat) (l : List HomeReq) : Option (HomeReq × List HomeReq) :=
  match l with
  | [] => none
  | h :: r => if h.inp = inp then some (h, r) else (takeHeldOf inp r).map (fun p => (p.1, h :: p.2))

/-- A held request of an input enters the queue once it has room (R346). -/
def admitHome (s : State) (die inp : Nat) : State :=
  let x := homeQ s die
  if x.q.length ≥ homeDepth die then s
  else
    match takeHeldOf inp x.held with
    | none => s
    | some (h, rest) =>
      let h1 := if die = 98 then { h with pool := poolAddr s h.msg.offset } else h
      putHomeQ s die { x with q := x.q ++ [h1], held := rest }

/-- HOME_QUEUE_ADMIT (R346). -/
def execHomeQueueAdmit (t : Time) (die : Die) (inp : Fin 5) (s : State) : Host.Outcome State Fault Refusal :=
  .next (admitHome (advance s t) die.val inp.val)

/-! ## Arbitration (R283, R284) -/

/-- The waiting port with the highest priority, round-robin after the one granted last among equals: tries `n` ports from `i` on. -/
def bestPort (prio : Nat → Nat) (ports : List Nat) (i n : Nat) (best : Option Nat) : Option Nat :=
  match n with
  | 0 => best
  | k + 1 =>
    let p := i % 4
    let b :=
      if ports.contains p then
        match best with
        | none => some p
        | some q => if prio p > prio q then some p else some q
      else best
    bestPort prio ports (i + 1) k b

/-- The port an arbitration grants (R283): the lowest-numbered one that has waited through 1,024, else the best. -/
def grantPort (prio : Nat → Nat) (a : Arb) (ports : List Nat) : Option Nat :=
  match (upFrom 0 4).find? (fun p => ports.contains p && decide (nth a.waits p 0 ≥ 1024)) with
  | some p => some p
  | none => bestPort prio ports (a.last + 1) 4 none

/-- The arbiter after a grant: the granted port starts anew, the others have waited once more. -/
def arbAfter (a : Arb) (ports : List Nat) (g : Nat) : Arb :=
  { waits := (upFrom 0 4).map (fun p => if p = g then 0 else if ports.contains p then nth a.waits p 0 + 1 else 0), last := g, held := a.held + 1 }

/-- The arbiter after an arbitration in which the pace let no waiting port be granted (R405). -/
def arbPaced (a : Arb) (ports : List Nat) : Arb :=
  { a with waits := (upFrom 0 4).map (fun p => if ports.contains p then nth a.waits p 0 + 1 else 0), held := a.held + 1 }

/-- The waiting ports that the pace of the memory domain lets an arbitration grant: ports 1 to 3 in a share of the arbitrations (R405). -/
def paced (s : State) (a : Arb) (ports : List Nat) : List Nat := ports.filter (fun p => decide (p = 0) || paceAllows s 1 a.held)

/-- The 2-bit priorities of a priority register, as an arbitration of this cycle uses them (R284). -/
def prioOf (s : State) (die off p : Nat) : Nat := fld (sampledReg s (barOff die 8 off)) (2 * p) 2

/-- ARB_STATUS after a grant: the ports that still wait, and the port that holds the grant (R306). -/
def arbStatus (ports : List Nat) (g : Nat) : Word :=
  BitVec.ofNat 32 (foldState (fun m p => if p ≠ g ∧ ports.contains p then m + 2 ^ p else m) (g * 16) (upFrom 0 4))

/-- The state with the tier mover replaced. -/
def putMover (s : State) (x : Mover) : State := { s with mover := x }

/-! ## Refresh (R284 to R288) -/

/-- The bank sets of a mask begin a refresh at a moment. -/
def refreshSets (l : List Nat) (mask t : Nat) : List Nat := (upFrom 0 16).map (fun k => if mask / 2 ^ k % 2 = 1 then t else nth l k 0)

/-- A REFRESH entry on a memory die (R285). -/
def refreshEntry (s : State) (die : Nat) (e : BitVec 128) : State :=
  if dieType die = .memory then
    let st := dieOrd die
    let x := mbcOf s st
    mbcCount (putMbc s st { x with refAt := refreshSets x.refAt (fld e 32 16) s.now }) st 0x26
      ((upFrom 0 16).filter (fun k => tbit e (32 + k))).length
  else s

/-- EXTENSION_REFRESH_ROUND (R287): a round begins at tick L_base and every 96 ticks after it while a whole round ends in the frame. Groups of four
bank sets follow one another at 24 ticks. -/
def execExtensionRefreshRound (t : Time) (stack : Stack) (s : State) : Host.Outcome State Fault Refusal :=
  let s1 := advance s t
  let st := stack.val
  let die := mmDie st
  let k := frameTick s1 die
  let base := baseTicks s1 die
  if frsRunning s1 die && decide (k ≥ base) && decide ((k - base) % 96 = 0)
      && decide ((frsOf s1 die).began + 64 * (k + 96) ≤ (frsOf s1 die).ends) then
    .next (mbcCount (putMbc s1 st { mbcOf s1 st with refAt := (upFrom 0 16).map (fun j => s1.now + 64 * 24 * (j / 4)) }) st 0x27 1)
  else .next s1

/-- Ticks until the boundary at which frame 0 begins, while a start is armed (R150, R189). -/
def ticksToStart (s : State) (die : Nat) : Nat :=
  ((reg s die 1 0x05C).toNat - syncEpoch s die) * 65536 - epochTick s die

/-- The bank sets due for an autonomous refresh (R288), as a mask: those not refreshed for 610 ticks, and every one at the boundary at which a stop
takes effect. -/
def dueSets (s : State) (st : Nat) : Nat :=
  foldState (fun m k =>
    let r := nth (mbcOf s st).refAt k 0
    if r = 0 ∨ r + 610 * 64 ≤ s.now ∨ r < (frsOf s (mmDie st)).ends then m + 2 ^ k else m) 0 (upFrom 0 16)

/-- AUTONOMOUS_REFRESH (R288): the bank sets that are due, while the sequencer is not RUNNING, and not where the refresh would end after an armed
start. -/
def execAutonomousRefresh (t : Time) (stack : Stack) (s : State) : Host.Outcome State Fault Refusal :=
  let s1 := advance s t
  let st := stack.val
  let die := mmDie st
  let x := mbcOf s1 st
  let mask := dueSets s1 st
  if frsRunning s1 die || tbit (mbcReg s1 st 0x044) 2 || (startArmed s1 die && decide (ticksToStart s1 die < 24)) || decide (mask = 0) then .next s1
  else .next (setMbcFld (putMbc s1 st { x with refAt := refreshSets x.refAt mask s1.now }) st 0x044 1 1 1)

/-! ## Initialisation, scrub and repair (R293 to R297, R306) -/

/-- The refusal of a write of an MBC register. -/
def mbcRefuse (s : State) (st off : Nat) : State := recordError s (mmDie st) 8 0x1080 off

/-- A write of POISON_INIT. -/
def writePoisonInit (s : State) (st : Nat) (v : Word) : State :=
  if frsRunning s (mmDie st) then mbcRefuse s st 0x048
  else if tbit v 0 then setMbcFld (putMbc s st { mbcOf s st with initAt := some s.now, zeroAt := none }) st 0x044 4 1 1
  else s

/-- POISON_INIT (R293). -/
def execPoisonInit (t : Time) (stack : Stack) (v : Word) (s : State) : Host.Outcome State Fault Refusal :=
  .next (pageWrite (advance s t) (mmDie stack.val) 8 0x048 false (fun u => writePoisonInit u stack.val v))

/-- Every line of a stack takes never-written poison, or is filled with clean zeros. -/
def fillStack (s : State) (st : Nat) (clean : Bool) : State :=
  { s with t1clean := mapPut false s.t1clean st clean, t1 := mapEraseRange s.t1 (st * stackSize) ((st + 1) * stackSize),
           t1line := mapEraseRange s.t1line (st * (stackSize / 64)) ((st + 1) * (stackSize / 64)) }

/-- POISON_INIT_DONE (R293): after 16.8 ms the stack is initialised, and the accesses that waited are performed. -/
def execPoisonInitDone (t : Time) (stack : Stack) (s : State) : Host.Outcome State Fault Refusal :=
  let s1 := advance s t
  let st := stack.val
  let x := mbcOf s1 st
  match x.initAt with
  | none => .next s1
  | some t0 =>
    if s1.now < t0 + 168000000 then .next s1
    else
      let s2 := setMbcFld (setMbcFld (putMbc (fillStack s1 st false) st { x with initAt := none, waiting := [] }) st 0x044 4 1 0) st 0x044 0 1 1
      .next (runWaiting s2 st x.waiting)

/-- A write of SCRUB_CTRL (R306): EN is always writable; PERIOD is refused while frames run, and where it is 0. -/
def writeScrubCtrl (s : State) (st : Nat) (v : Word) : State :=
  let old := mbcReg s st 0x050
  let s1 := setMbcFld s st 0x050 0 1 (fld v 0 1)
  let s2 := if tbit v 0 && !tbit old 0 then putMbc s1 st { mbcOf s1 st with scrubStart := s1.now, scrubLate := false } else s1
  if fld v 8 8 = 0 || (frsRunning s (mmDie st) && decide (fld v 8 8 ≠ fld old 8 8)) then mbcRefuse s2 st 0x050
  else setMbcFld s2 st 0x050 8 8 (fld v 8 8)

/-- Lines of a stack. -/
def stackLines : Nat := stackSize / 64

/-- SCRUB_STATUS after the scrubber has passed a line: the position in 4 KiB units, and the passes completed, saturating. -/
def scrubPassed (s : State) (st l : Nat) : State :=
  let x := mbcOf s st
  if l + 1 < stackLines then setMbcFld (putMbc s st { x with scrubLine := l + 1 }) st 0x054 0 24 ((l + 1) / 64)
  else
    let n := fld (mbcReg s st 0x054) 24 8
    setMbcFld (setMbcFld (putMbc s st { x with scrubLine := 0, scrubStart := s.now, scrubLate := false }) st 0x054 0 24 0) st 0x054 24 8 (min 255 (n + 1))

/-- SCRUB_READ (R283, R295): the next line, in ascending order, under a grant of port 2 and outside a refresh of its bank set. A poisoned line is
left as it is. -/
def execScrubRead (t : Time) (stack : Stack) (ecc : LineEcc) (s : State) : Host.Outcome State Fault Refusal :=
  let s1 := advance s t
  let st := stack.val
  let x := mbcOf s1 st
  if !tbit (mbcReg s1 st 0x050) 0 || initialising x || x.grant != some 2 || refreshingAt x (x.scrubLine * 64) 64 s1.now then .next s1
  else
    let l := st * stackLines + x.scrubLine
    let s2 := putMbc s1 st { x with grant := none }
    let s3 := if lineSt s2 l = .clean then checkLine s2 l ecc else s2
    .next (scrubPassed (mbcCount (mbcCount s3 st 0x25 1) st 0x28 1) st x.scrubLine)

/-- An hour. -/
def hour : Nat := 3600 * 10 ^ 10

/-- SCRUB_BEHIND (R295): the pass has not finished within PERIOD hours; it goes on. -/
def execScrubBehind (t : Time) (stack : Stack) (s : State) : Host.Outcome State Fault Refusal :=
  let s1 := advance s t
  let st := stack.val
  let period := fld (mbcReg s1 st 0x050) 8 8
  let x := mbcOf s1 st
  if tbit (mbcReg s1 st 0x050) 0 && !x.scrubLate && decide (s1.now > x.scrubStart + period * hour) then
    .next (recordError (setMbcFld (putMbc s1 st { x with scrubLate := true }) st 0x044 3 1 1) (mmDie st) 8 0x3053 period)
  else .next s1

/-- The key of a bank's used spare rows: the channel and bank that PPR_CTRL names. -/
def bankKey (st v : Nat) : Nat := st * 2048 + v % 32 * 64 + v / 32 % 64

/-- PPR_STATUS [9:8]: the spare rows left in the bank last named. -/
def showSpares (s : State) (st v : Nat) : State := setMbcFld s st 0x06C 8 2 (2 - mapGet s.rowsUsed (bankKey st v) 0)

/-- A write of PPR_CTRL (R297): START is refused while frames run or an unplanned access is outstanding, another write while frames run. -/
def writePprCtrl (s : State) (st : Nat) (v : Word) : State :=
  let die := mmDie st
  let x := mbcOf s st
  if frsRunning s die || (tbit v 30 && (!(homeQ s die).q.isEmpty || !(homeQ s die).held.isEmpty || x.grant.isSome || x.ppr.isSome || initialising x)) then
    mbcRefuse s st 0x068
  else
    let s1 := showSpares (setMbcFld s st 0x068 0 26 (fld v 0 26)) st (fld v 0 26)
    if tbit v 30 then setMbcFld (putMbc s1 st { x with ppr := some (fld v 0 26) }) st 0x06C 0 2 1 else s1

/-- PPR_START (R297). -/
def execPprStart (t : Time) (stack : Stack) (v : Word) (s : State) : Host.Outcome State Fault Refusal :=
  .next (pageWrite (advance s t) (mmDie stack.val) 8 0x068 true (fun u => writePprCtrl u stack.val v))

/-- The lines of a row of a stack (R279): ROW is the upper 15 bits of ROW_COL (DEDUCED, log entry 23). -/
def rowLines (st v : Nat) : List Nat :=
  let chan := v % 32
  let bank := v / 32 % 64
  let row := v / 2048 % 2 ^ 15
  ((upFrom 0 16).map (fun i => (st * stackSize + (row * 8 + i / 2) * 2 ^ 18 + bank * 4096 + chan * 128 + i % 2 * 64) / 64)).filter
    (fun l => decide (lineStack l = st))

/-- A line takes never-written poison. -/
def neverLine (s : State) (l : Nat) : State :=
  setLine { s with t1 := mapEraseRange s.t1 (l * 64) (l * 64 + 64) } l .never

/-- PPR_COMPLETE (R297, R448): the row is replaced, and its lines hold never-written poison; without a spare row the repair fails, and the firmware
marks the row unusable. -/
def execPprComplete (t : Time) (stack : Stack) (s : State) : Host.Outcome State Fault Refusal :=
  let s1 := advance s t
  let st := stack.val
  let x := mbcOf s1 st
  match x.ppr with
  | none => .next s1
  | some v =>
    let s2 := setMbcFld (putMbc s1 st { x with ppr := none }) st 0x06C 0 1 0
    let k := bankKey st v
    if mapGet s2.rowsUsed k 0 ≥ 2 then
      .next (setMbcFld { s2 with badRows := mapPut false s2.badRows (st * 2 ^ 26 + v % 2 ^ 26) true } st 0x06C 1 1 1)
    else
      .next (foldState neverLine
        (showSpares { s2 with rowsUsed := mapPut 0 s2.rowsUsed k (mapGet s2.rowsUsed k 0 + 1) } st v) (rowLines st v))

/-! ## Parity regions (R222, R223) -/

/-- Whether an enabled region with a start and a length would overlap another enabled one of a stack; PAGES 0 disables a region (R222). -/
def regionOverlaps (s : State) (st n base len : Nat) : Bool :=
  (upFrom 0 8).any (fun k =>
    let b := fld (mbcReg s st (0x300 + 8 * k)) 0 24
    let e := mbcReg s st (0x304 + 8 * k)
    k != n && tbit e 31 && decide (0 < len) && decide (0 < fld e 0 24) && decide (base < b + fld e 0 24) && decide (b < base + len))

/-- A write of XRn_BASE or XRn_LEN (R223). -/
def writeRegion (s : State) (st n : Nat) (isLen : Bool) (v : Word) : State :=
  let die := mmDie st
  if isLen then
    if tbit v 31 && regionOverlaps s st n (fld (mbcReg s st (0x300 + 8 * n)) 0 24) (fld v 0 24) then recordError s die 8 0x1051 n
    else putSampled s (barOff die 8 (0x304 + 8 * n)) (v &&& 0x80FFFFFF#32)
  else putSampled s (barOff die 8 (0x300 + 8 * n)) (v &&& 0x00FFFFFF#32)

/-- The firmware covers an extent of Tier 1 with the first parity region of its stack that is not enabled: the region it took (R222). -/
def coverRange (s : State) (off tiles : Nat) : State × Option (Nat × Nat) :=
  let st := off / stackSize
  match (upFrom 0 8).find? (fun n => !tbit (mbcReg s st (0x304 + 8 * n)) 31) with
  | none => (s, none)
  | some n =>
    (writeRegion (writeRegion s st n false (BitVec.ofNat 32 (off % stackSize / 4096))) st n true (BitVec.ofNat 32 (tiles + 2 ^ 31)), some (st, n))

/-- PARITY_REGION_WRITE (R223). -/
def execParityRegionWrite (t : Time) (stack : Stack) (n : Fin 8) (isLen : Bool) (v : Word) (s : State) :
    Host.Outcome State Fault Refusal :=
  .next (pageWrite (advance s t) (mmDie stack.val) 8 ((if isLen then 0x304 else 0x300) + 8 * n.val) true
    (fun u => writeRegion u stack.val n.val isLen v))

/-! ## The Tier 2 window (R301, R302) -/

/-- A register of die 98's HLK page. -/
def hlk (s : State) (off : Nat) : Word := reg s 98 8 off

/-- Whether another mapped segment has a base. -/
def baseTaken (s : State) (k base : Nat) : Bool :=
  (upFrom 0 256).any (fun j =>
    j != k && tbit (hlk s (0x800 + 4 * j)) 31 && decide (fld (hlk s (0x800 + 4 * j)) 0 12 = base))

/-- A write of a segment entry (R301). -/
def writeSegment (s : State) (k : Nat) (v : Word) : State :=
  if tbit v 31 && (baseTaken s k (fld v 0 12) || decide (fld v 0 12 ≥ fld (hlk s 0x050) 0 13)) then recordError s 98 8 0x1082 k
  else putSampled s (barOff 98 8 (0x800 + 4 * k)) (v &&& 0x80000FFF#32)

/-- SEGMENT_WRITE (R301). -/
def execSegmentWrite (t : Time) (k : Fin 256) (v : Word) (s : State) : Host.Outcome State Fault Refusal :=
  .next (pageWrite (advance s t) 98 8 (0x800 + 4 * k.val) true (fun u => writeSegment u k.val v))

/-- Whether the CXL link of die 98 is up: HL_LINK.UP, with the die in CXL mode (R501, R502). -/
def cxlUp (s : State) : Bool := tbit (hlk s 0x044) 9 && tbit (hlk s 0x040) 0

/-- The window segment of an offset. -/
def segmentOf (off : Nat) : Nat := off % 2 ^ 40 / 2 ^ 32

/-- The bytes of a range of the pool. -/
def t2Bytes (s : State) (a n : Nat) : List Byte := (upFrom a n).map (fun k => mapGet s.t2 k 0#8)

/-- The state with bytes of the pool stored. -/
def t2Put (s : State) (a : Nat) (l : List Byte) : State :=
  match l with
  | [] => s
  | b :: r => t2Put { s with t2 := mapPut 0#8 s.t2 a b } (a + 1) r

/-- Whether the device holds or reports poison in a line of the pool. -/
def poolBad (s : State) (o : CxlOut) (l : Nat) : Bool := mapGet s.t2bad l false || o.poison.contains l

/-- Whether any line of a range of the pool is poisoned. -/
def poolRangeBad (s : State) (o : CxlOut) (a n : Nat) : Bool := (linesOf a n).any (poolBad s o)

/-- A store to the pool: a whole line takes the poison of its data, a line written in part keeps its own too. -/
def poolWrite (s : State) (a : Nat) (data : List Byte) (poison : List Nat) : State :=
  foldState (fun u l =>
    let whole := decide (a ≤ l * 64) && decide (l * 64 + 64 ≤ a + data.length)
    let p := marked poison (l * 64 - a) (min 64 (l * 64 + 64 - a))
    { u with t2bad := mapPut false u.t2bad l (p || (!whole && mapGet u.t2bad l false)) }) (t2Put s a data) (linesOf a data.length)

/-- Poison that the device returned: 0x2062 with the segment (R308). -/
def poolPoison (s : State) (off : Nat) : State := recordError s 98 8 0x2062 (segmentOf off)

/-- A Tier 2 request fails on the link: 0x3061 (R302, R305). -/
def cxlFails (s : State) (m : FabMsg) : State :=
  reply (count (recordError s 98 8 0x3061 0xFFFF) 98 8 0x63 1) m 0x3061 [] []

/-- Die 98 performs a Tier 2 request (R42, R294, R302). An atomic whose line is poisoned is not performed (R345). -/
def t2Perform (s : State) (h : HomeReq) (o : CxlOut) : State :=
  let m := h.msg
  match h.pool with
  | none => reply s m 0x4013 [] []
  | some a =>
    if o.fail || !cxlUp s then cxlFails s m
    else
      match m.op with
      | 1 =>
        let bad := (linesOf a m.len).filter (poolBad s o)
        reply (if bad.isEmpty then s else poolPoison s m.offset) m 0 (t2Bytes s a m.len) (lineMarks a m.len bad)
      | 2 => reply (poolWrite s a m.data m.poison) m 0 [] []
      | 3 =>
        let n := atomicBytes m
        if poolRangeBad s o a n then reply (poolPoison s m.offset) m 0x3052 [] []
        else
          let old := ofLE (t2Bytes s a n)
          reply (t2Put s a (atomicStore m old)) m 0 (atomicReply old) []
      | _ => s

/-- TIER2_ACCESS (R302): the CXL port performs the request granted first. -/
def execTier2Access (t : Time) (out : CxlOut) (s : State) : Host.Outcome State Fault Refusal :=
  let s1 := advance s t
  match s1.mover.run with
  | [] => .next s1
  | h :: rest => .next (t2Perform (putMover s1 { s1.mover with run := rest }) h out)

/-- Whether the expiry that a request carries has passed by die 98's own count (R302, R349). -/
def expired (s : State) (m : FabMsg) : Bool := decide ((expiryField s 98 s.now + 2 ^ 32 - m.expiry % 2 ^ 32) % 2 ^ 32 < 2 ^ 31)

/-- Die 98 completes a request whose deadline has passed with 0x3060. -/
def t2Expire (s : State) (m : FabMsg) : State := reply (count (recordError s 98 8 0x3060 0xFFFF) 98 8 0x63 1) m 0x3060 [] []

/-- TIER2_DEADLINE_EXPIRY (R302): the oldest request whose deadline has passed. -/
def execTier2DeadlineExpiry (t : Time) (s : State) : Host.Outcome State Fault Refusal :=
  let s1 := advance s t
  let x := s1.mover
  let hq := homeQ s1 98
  match x.run.find? (fun h => expired s1 h.msg) with
  | some h => .next (t2Expire (putMover s1 { x with run := x.run.erase h }) h.msg)
  | none =>
    match hq.q.find? (fun h => expired s1 h.msg) with
    | some h => .next (t2Expire (putHomeQ s1 98 { hq with q := hq.q.erase h }) h.msg)
    | none => .next s1

/-- Whether a segment has accesses outstanding: SEG_BUSY (R301). -/
def segBusy (s : State) (k : Nat) : Bool :=
  s.mover.run.any (fun h => decide (segmentOf h.msg.offset = k)) || (homeQ s 98).q.any (fun h => decide (segmentOf h.msg.offset = k))

/-! ## The tier mover (R303 to R305, R307) -/

/-- The deadline of a move that enters the queue now, in units of 160 reference ticks (R304). -/
def moveDue (s : State) : Nat :=
  let d := (hlk s 0x610).toNat
  s.now + (if d = 0 then 976563 else d) * 160 * 64

/-- The move that the TM registers describe. -/
def moveOf (s : State) (tag : Nat) : Move :=
  { t1 := (hlk s 0x600).toNat + fld (hlk s 0x604) 0 8 * 2 ^ 32, t2 := fld (hlk s 0x608) 0 28 * 4096, tiles := fld (hlk s 0x60C) 0 15 + 1,
    inward := tbit (hlk s 0x60C) 16, srcPoison := tbit (hlk s 0x60C) 17, tag := tag, due := moveDue s, moved := 0, status := 0 }

/-- Whether a move may not be queued (R303). -/
def moveBad (m : Move) : Bool :=
  decide (m.t1 % 4096 ≠ 0) || decide (m.t1 + m.tiles * 4096 > t1Size) || decide (m.t2 + m.tiles * 4096 > 2 ^ 40)
    || (m.srcPoison && m.inward)

/-- A write of TM_TAG queues a move (R303). -/
def queueMove (s : State) (v : Word) : State :=
  let m := moveOf s (fld v 0 16)
  if s.mover.queue.length ≥ 64 || moveBad m then recordError s 98 8 0x1081 m.tag
  else putMover s { s.mover with queue := s.mover.queue ++ [m] }

/-- TIER_MOVE_QUEUE (R303). -/
def moverQueue (t : Time) (v : Word) (s : State) : Host.Outcome State Fault Refusal :=
  .next (pageWrite (advance s t) 98 8 0x614 false (fun u => queueMove u v))

/-- Places in the completion FIFO (DESIGN CHOICE, log entry 24). -/
def doneDepth : Nat := 64

/-- Ends a move: its completion enters the FIFO. -/
def endMove (s : State) (m : Move) (late : Bool) (status : Nat) : State :=
  putMover s { s.mover with cur := none,
                            done := s.mover.done ++ [{ tag := m.tag, late := late, status := status, moved := m.moved }] }

/-- Ends a move early with an error (R304). -/
def failMove (s : State) (m : Move) (code : Nat) : State :=
  endMove (count (recordError s 98 8 code m.tag) 98 8 0x61 1) m false code

/-- The first status code of a move. -/
def noteStatus (m : Move) (code : Nat) : Move := if m.status = 0 then { m with status := code } else m

/-- One line of a tile from Tier 1 to the pool. -/
def lineOut (ecc : LineEcc) (acc : State × Move) (p : Nat × Nat) : State × Move :=
  let st := lineSt (checkLine acc.1 p.1 ecc) p.1
  let r := readLine acc.1 p.1 ecc
  let m := match st with
    | .clean => acc.2
    | .never => noteStatus acc.2 0x2060
    | .error => noteStatus acc.2 0x3050
  (poolWrite r.1 (p.2 * 64) (t1Bytes r.1 (p.1 * 64) 64) (allMarks r.2 64), m)

/-- One line of a tile from the pool to Tier 1. -/
def lineIn (off : Nat) (o : CxlOut) (acc : State × Move) (p : Nat × Nat) : State × Move :=
  let bad := poolBad acc.1 o p.2
  let s1 := if bad then poolPoison acc.1 off else acc.1
  ((writeLine s1 (p.1 * 64) (t2Bytes s1 (p.2 * 64) 64) bad).1, if bad then noteStatus acc.2 0x2062 else acc.2)

/-- The next tile of a move (R278, R301, R304): its segment is decoded as it starts. -/
def moveTile (s : State) (m : Move) (o : CxlOut) (ecc : LineEcc) : State :=
  let w := m.t2 + m.moved * 4096
  match poolAddr s w with
  | none => failMove s m 0x4013
  | some a =>
    if o.fail || !cxlUp s then failMove (count s 98 8 0x63 1) m 0x3061
    else
      let t1 := m.t1 + m.moved * 4096
      let pairs := (upFrom 0 64).map (fun i => (t1 / 64 + i, a / 64 + i))
      let r := if m.inward then foldState (lineIn w o) (s, m) pairs else foldState (lineOut ecc) (s, m) pairs
      let s1 := count (mbcCount r.1 (t1 / stackSize) 0x25 1) 98 8 0x60 1
      putMover s1 { s1.mover with cur := some { r.2 with moved := m.moved + 1 } }

/-- Whether the mover may start a tile now: in a control slot of die 98, or while its frames do not run (R303). -/
def mayMove (s : State) : Bool :=
  !frsRunning s 98 || (!inExtension s 98 && tbit (BitVec.ofNat 6 (frsOf s 98).slotTypes) 5 && decide (frameTick s 98 < (frsOf s 98).slotEnd))

/-- The mover waits for a reserved run from now on. -/
def waitRun (s : State) : State :=
  if s.mover.waitSince.isSome then s else putMover s { s.mover with waitSince := some s.now }

/-- The end of a wait for a reserved run: its mesh cycles are counted. -/
def endWait (s : State) : State :=
  match s.mover.waitSince with
  | none => s
  | some t0 => count (putMover s { s.mover with waitSince := none }) 98 8 0x64 (meshCyc s s.now - meshCyc s t0)

/-- The move at the head of the queue begins to run. -/
def nextMove (s : State) : State :=
  match s.mover.cur, s.mover.queue with
  | none, m :: rest => putMover s { s.mover with cur := some m, queue := rest }
  | _, _ => s

/-- The stack of a move's next tile. -/
def tileStack (m : Move) : Nat := (m.t1 + m.moved * 4096) / stackSize

/-- Whether the next tile may start (R283, R285, R293): the mover's port holds the grants of the stack's arbiter and of die 98's, and the tile's bank
set is not being refreshed. -/
def tileGranted (s : State) (m : Move) : Bool :=
  let x := mbcOf s (tileStack m)
  decide (x.grant = some 1) && s.mover.grant && !initialising x && !refreshingAt x ((m.t1 + m.moved * 4096) % stackSize) 4096 s.now

/-- A tile starts: its grants end (R283). -/
def takeGrants (s : State) (m : Move) : State :=
  let s1 := putMbc s (tileStack m) { mbcOf s (tileStack m) with grant := none }
  putMover s1 { s1.mover with grant := false }

/-- TIER_MOVE_TILE (R283, R303, R305). -/
def moverTile (t : Time) (out : CxlOut) (ecc : LineEcc) (s : State) : Host.Outcome State Fault Refusal :=
  let s1 := nextMove (advance s t)
  match s1.mover.cur with
  | none => .next s1
  | some m =>
    if s1.mover.done.length ≥ doneDepth || decide (m.moved ≥ m.tiles) then .next s1
    else if !cxlUp s1 then .next (failMove s1 m 0x3061)
    else if !mayMove s1 then .next (waitRun s1)
    else if !tileGranted s1 m then .next (endWait s1)
    else .next (moveTile (takeGrants (endWait s1) m) m out ecc)

/-- Never-written poison over the source tiles of a completed move (R304). -/
def poisonSource (s : State) (m : Move) : State :=
  if m.srcPoison then neverRange s (m.t1 / 64) (m.tiles * 64) else s

/-- TIER_MOVE_COMPLETE (R304, R305): the move whose last tile is done. A deadline in the same cycle makes it late. -/
def moverComplete (t : Time) (s : State) : Host.Outcome State Fault Refusal :=
  let s1 := advance s t
  match s1.mover.cur with
  | none => .next s1
  | some m =>
    if m.moved < m.tiles then .next s1
    else
      let late := decide (meshCyc s1 s1.now ≥ meshCyc s1 m.due)
      .next (endMove (if late then count (poisonSource s1 m) 98 8 0x62 1 else poisonSource s1 m) m late m.status)

/-- Ends the moves whose deadline has passed before their last tile (R304). -/
def expireMoves (s : State) : State :=
  let s1 :=
    match s.mover.cur with
    | some m => if m.moved < m.tiles ∧ m.due ≤ s.now then failMove s m 0x3060 else s
    | none => s
  let late := s1.mover.queue.filter (fun m => decide (m.due ≤ s1.now))
  let cur := s1.mover.cur
  let s2 := foldState (fun u m => failMove u m 0x3060)
    (putMover s1 { s1.mover with queue := s1.mover.queue.filter (fun m => !decide (m.due ≤ s1.now)) }) late
  putMover s2 { s2.mover with cur := cur }

/-- TIER_MOVE_DEADLINE (R304). -/
def moverDeadline (t : Time) (s : State) : Host.Outcome State Fault Refusal := .next (expireMoves (advance s t))

/-- A read of TM_DONE pops one completion and latches TM_DONE_INFO (R307). -/
def readTmDone (s : State) : State × Word :=
  match s.mover.done with
  | [] => (s, 0#32)
  | d :: rest =>
    (setReg (putMover s { s.mover with done := rest }) 98 8 0x620 (BitVec.ofNat 32 (d.status + d.moved * 2 ^ 16)),
     BitVec.ofNat 32 (d.tag + 2 ^ 16 + (if d.late then 2 ^ 17 else 0)))

/-- TM_DONE_READ (R307). -/
def execTmDoneRead (t : Time) (s : State) : Host.Outcome State Fault Refusal :=
  let s1 := advance s t
  if reachable s1 98 8 then
    let r := readTmDone s1
    .next { r.1 with lastRead := r.2 }
  else .next s1

/-- TM_STATUS as it reads (R307). -/
def tmStatus (s : State) : Word :=
  BitVec.ofNat 32 (s.mover.queue.length + b2n s.mover.cur.isSome * 256 + b2n s.mover.waitSince.isSome * 512)

/-! ## Grants (R283, R405) -/

/-- The move whose next tile the mover would start now, if it may start one. -/
def tileWanted (s : State) : Option Move :=
  let m := match s.mover.cur with
    | some m => some m
    | none => s.mover.queue.head?
  m.filter (fun m => decide (m.moved < m.tiles) && decide (s.mover.done.length < doneDepth) && cxlUp s && mayMove s)

/-- Whether a port of a memory die's arbiter has a request waiting (R283): port 3's, the repair and self-test accesses, are the environment's. -/
def portWaits (s : State) (st p : Nat) : Bool :=
  match p with
  | 0 => !(homeQ s (mmDie st)).q.isEmpty
  | 1 => (tileWanted s).any (fun m => decide (tileStack m = st))
  | 2 => tbit (mbcReg s st 0x050) 0
  | _ => true

/-- The ports that wait at a memory die, of those that the environment names beside port 0. -/
def waitingPorts (s : State) (st : Nat) (others : List Nat) : List Nat :=
  (if portWaits s st 0 then [0] else []) ++ others.filter (fun p => decide (p ≠ 0) && portWaits s st p)

/-- The accesses of a granted mesh request start, unless its bank set is being refreshed; the grant ends then (R283, R285). -/
def startMesh (s : State) (st : Nat) (ecc : LineEcc) : State :=
  let die := mmDie st
  let hq := homeQ s die
  match hq.q with
  | [] => s
  | h :: rest =>
    if refreshingAt (mbcOf s st) (h.msg.offset % stackSize) (max h.msg.len h.msg.data.length) s.now then s
    else
      let s1 := putHomeQ (traceRec s die 4 0) die { hq with q := rest }
      let s2 := t1Perform (putMbc s1 st { mbcOf s1 st with regionsOf := h.regions, grant := none }) h.msg ecc
      putMbc s2 st { mbcOf s2 st with regionsOf := [] }

/-- An arbitration of a memory die among waiting ports (R283, R405): a grant of port 0 starts its request; port 3's accesses start at once; ports 1
and 2 hold theirs until the tile or the scrub read starts. -/
def arbitrate (s : State) (st : Nat) (ports : List Nat) (ecc : LineEcc) : State :=
  let die := mmDie st
  let x := mbcOf s st
  match grantPort (prioOf s die 0x060) x.arb (paced s x.arb ports) with
  | none => if ports.isEmpty then s else mbcCount (putMbc s st { x with arb := arbPaced x.arb ports }) st 0x29 ports.length
  | some g =>
    let y := { x with arb := arbAfter x.arb ports g, grant := if g = 3 then none else some g }
    let s1 := setReg (putMbc s st y) die 8 0x064 (arbStatus ports g)
    let s2 := mbcCount s1 st 0x29 ((ports.filter (fun p => decide (p ≠ g))).length)
    if g = 0 then startMesh s2 st ecc else if g = 3 then mbcCount s2 st 0x25 1 else s2

/-- A memory die's arbiter (R283): while a port holds the grant there is no arbitration; a mesh request that holds it starts once it can; a mover or
scrubber that has nothing left to start gives it up. -/
def grantMemory (s : State) (st : Nat) (others : List Nat) (ecc : LineEcc) : State :=
  let x := mbcOf s st
  if initialising x then s
  else
    match x.grant with
    | some p =>
      if !portWaits s st p then arbitrate (putMbc s st { x with grant := none }) st (waitingPorts s st others) ecc
      else if p = 0 then startMesh s st ecc
      else s
    | none => arbitrate s st (waitingPorts s st others) ecc

/-- An arbitration of die 98 among waiting ports (R283, R405): a granted dynamic request goes on to the CXL port; the mover holds its grant until a
tile starts. -/
def arbitrateCxl (s : State) (ports : List Nat) : State :=
  let x := s.mover
  match grantPort (prioOf s 98 0x624) x.arb (paced s x.arb ports) with
  | none => if ports.isEmpty then s else putMover s { x with arb := arbPaced x.arb ports }
  | some g =>
    let x1 := { x with arb := arbAfter x.arb ports g }
    if g ≠ 0 then putMover s { x1 with grant := true }
    else
      match (homeQ s 98).q with
      | [] => putMover s x1
      | h :: rest => putMover (putHomeQ s 98 { homeQ s 98 with q := rest }) { x1 with run := x1.run ++ [h] }

/-- Die 98's arbiter (R283): while the mover holds the grant and has a tile to start there is no arbitration. -/
def grantCxl (s : State) (others : List Nat) : State :=
  let want := (tileWanted s).isSome
  if s.mover.grant && want then s
  else
    arbitrateCxl (putMover s { s.mover with grant := false })
      ((if (homeQ s 98).q.isEmpty then [] else [0]) ++ others.filter (fun p => decide (p = 1) && want))

/-- ARBITRATION_GRANT (R283): `others` are the waiting ports beside the mesh or dynamic port; `entryOk` says whether the queue entry read is
correctable (R442). -/
def execArbitrationGrant (t : Time) (die : Die) (others : List (Fin 4)) (ecc : LineEcc) (entryOk : Bool) (s : State) :
    Host.Outcome State Fault Refusal :=
  let s1 := advance s t
  if isHalted s1 die.val 8 then .next s1
  else if dieType die.val = .memory then
    if entryOk then .next (grantMemory s1 (dieOrd die.val) (others.map (fun p => p.val)) ecc)
    else .next (haltUnit s1 die.val 8 0)
  else if die.val = 98 then
    if entryOk then .next (grantCxl s1 (others.map (fun p => p.val)))
    else .next (haltUnit s1 98 8 0)
  else .next s1

/-! ## Host links (R305, R501, R511) -/

/-- The die of a host link. -/
def hlDie (hl : Nat) : Nat := if hl = 0 then 1 else 98

/-- A host link leaves the up state (R501): 0x5030; on die 98 the move that runs and the Tier 2 accesses end with 0x3061. -/
def linkDown (s : State) (die : Nat) : State :=
  if !tbit (reg s die 8 0x044) 9 then s
  else
    let s1 := recordError (setRegFld s die 8 0x044 9 1 0) die 8 0x5030 (fld (reg s die 8 0x044) 0 3)
    if die = 98 then
      let s2 := match s1.mover.cur with
        | some m => if m.moved < m.tiles then failMove s1 m 0x3061 else s1
        | none => s1
      foldState (fun u h => cxlFails u h.msg) (putMover s2 { s2.mover with run := [] }) s2.mover.run
    else s1

/-- HOST_LINK_DOWN (R501). -/
def hostLinkDown (t : Time) (hl : Fin 2) (s : State) : Host.Outcome State Fault Refusal := .next (linkDown (advance s t) (hlDie hl.val))

/-- Whether a host link is held down: die 1 by PERST#, die 98 by CXL_PERST# until step 4 of a start (R518). -/
def linkHeld (s : State) (die : Nat) : Bool :=
  if die = 1 then s.host.perst else tbit (reg s 90 8 0x108) 4 && decide (fld (reg s 90 8 0x108) 0 4 < 4)

/-- CXL_PERST# as die 98 drives it (R518): low from power-on until step 4 of a start. -/
def cxlPerstLow (s : State) : Bool := !railOn s .ctl || linkHeld s 98

/-- A host link comes back up at a rate and width (R305, R511): a retrain is counted, saturating. -/
def linkUp (s : State) (die rate width : Nat) : State :=
  if tbit (reg s die 8 0x044) 9 || !reachable s die 8 || linkHeld s die then s
  else
    let n := fld (reg s die 8 0x048) 0 16
    setReg (setReg s die 8 0x048 (BitVec.ofNat 32 (min 65535 (n + 1)))) die 8 0x044
      (BitVec.ofNat 32 (rate + width * 8 + (if rate = 6 then 256 else 0) + 512))

/-- HOST_LINK_UP (R305). -/
def execHostLinkUp (t : Time) (hl : Fin 2) (rate : Fin 8) (width : Fin 32) (s : State) : Host.Outcome State Fault Refusal :=
  .next (linkUp (advance s t) (hlDie hl.val) rate.val width.val)

end Sys2Proof.Machine
end

