-- ==== Sys2Proof/Machine/Power.lean ====
section
/-!
DEFINITION. Sys2Proof/Machine/Power.lean: clocks of cores and units (R163, R394 to R402), and the power and thermal controllers of die 90 (R387 to
R420).
-/
namespace Sys2Proof.Machine

/-! ## The speed map and core clocks (R395 to R399) -/

/-- A speed-map entry (R398). -/
def smEntry (s : State) (c : Nat) : Word := mapGet s.smap c 0x4848#32

/-- The speed-map frequency of a core in MHz. -/
def smMhz (s : State) (c : Nat) : Nat := fld (smEntry s c) 8 7 * 25

/-- Whether a core is marked UNUSABLE. -/
def smUnusable (s : State) (c : Nat) : Bool := tbit (smEntry s c) 23

/-- Whether a physical core is about to take a stage over: its armed MAP_NEXT names one (R45, R397). -/
def takesStage (s : State) (c : Nat) : Bool :=
  let m := reg s (coreDie c) (corePage c 0) 0x044
  tbit (reg s (coreDie c) (corePage c 0) 0x040) 8 && planOn s c && stageOn s s.plan (coreDie c) (fld m 0 5)

/-- Whether a core has work in progress (R163). -/
def coreWorks (x : CoreSt) : Bool :=
  !(x.q0.entries.isEmpty && x.q1.entries.isEmpty && x.q2.entries.isEmpty && x.q3.entries.isEmpty && x.q0.exec.isEmpty
    && x.q1.exec.isEmpty && x.q2.exec.isEmpty && x.q3.exec.isEmpty && x.reqs.isEmpty)

/-- Whether a core has a command in execution. -/
def coreExecutes (x : CoreSt) : Bool :=
  !(x.q0.exec.isEmpty && x.q1.exec.isEmpty && x.q2.exec.isEmpty && x.q3.exec.isEmpty)

/-- OPn, the operating point in force (R401, R402). -/
def opCur (s : State) : Word := reg s 90 9 (0x080 + 4 * fld (reg s 90 9 0x06C) 0 3)

/-- The profile of the running plan: Latency where none runs. -/
def profile (s : State) : Nat :=
  match s.plan with
  | none => 0
  | some p => p.profile

/-- The state a stopped core takes: SYN_OFF where it owns no stage and the operating point says so (R401, R402), GATED otherwise. -/
def stopMode (s : State) (c : Nat) : ClkMode :=
  if tbit (opCur s) 8 && decide (profile s ≠ 3) && !ownsStage s c then .synOff else .gated

/-- A core's clock stops now. -/
def gateCore (s : State) (c : Nat) : State :=
  let x := core s c
  match x.clk.mode with
  | .gated => s
  | .synOff => s
  | _ => count (putCore s c { x with clk := { clkRebase x.clk s.now with mode := stopMode s c, gateIdle := false } }) (coreDie c) 2 0xB3 1

/-- A core that would run above its speed-map entry stops (R129, R400): its synthesiser takes the entry's frequency and is off until the core is
woken (DESIGN CHOICE, log entry 113). -/
def capClock (s : State) (c : Nat) : State :=
  let x := core s c
  if x.clk.mhz ≤ smMhz s c then s
  else putCore s c { x with clk := { clkRebase x.clk s.now with mode := .synOff, mhz := smMhz s c, gateIdle := false } }

/-- A GATE of a core: at once, or once it is idle (R163). -/
def gateUnit (s : State) (c : Nat) : State :=
  if coreWorks (core s c) then updCore s c (fun x => { x with clk := { x.clk with gateIdle := true } }) else gateCore s c

/-- A WAKE of a core (R163, R395). -/
def wakeUnit (s : State) (c : Nat) : State :=
  let s1 := updCore s c (fun x => { x with clk := { x.clk with gateIdle := false } })
  if coreStopped s1 c then count (wakeCore s1 c) (coreDie c) 2 0xB2 1 else s1

/-- The physical cores that a compute die's UNIT_MASK names (R396). -/
def maskCores (s : State) (die mask : Nat) : List Nat :=
  ((upFrom 0 16).filter (fun l => decide (mask / 2 ^ l % 2 = 1))).filterMap (physOf s die)

/-- Clock state of a memory die's unit (R396). -/
def memUnit (s : State) (st u : Nat) : ClkMode := mapGet s.memUnits (st * 2 + u) .gated

/-- The state with a memory die's unit clocked as given. -/
def putMemUnit (s : State) (st u : Nat) (m : ClkMode) : State := { s with memUnits := mapPut .gated s.memUnits (st * 2 + u) m }

/-- The die of whose decryptor a shard makes use: die 1, or the memory die of its destination where it comes from the pool (R376). -/
def decryptorDie (x : LdShard) : Nat :=
  if x.pool then homeDie ((nth x.words 2 0#32).toNat + fld (nth x.words 3 0#32) 0 16 * 2 ^ 32) else 1

/-- Whether a memory die's unit has work in progress: 0 its digest engine (R380), 1 its decryptor, on the load engine's running shard (R376). -/
def memWorks (s : State) (st u : Nat) : Bool :=
  if u = 0 then (mbcOf s st).dgAt.isSome
  else
    match s.loader.queue with
    | [] => false
    | x :: _ => x.isSealed && decide (decryptorDie x = mmDie st)

/-- The units of a memory die that a UNIT_MASK names. -/
def maskUnits (mask : Nat) : List Nat := (upFrom 0 2).filter (fun u => decide (mask / 2 ^ u % 2 = 1))

/-- A WAKE entry (R163, R396). -/
def wakeEntry (s : State) (die : Nat) (e : BitVec 128) : State :=
  let mask := fld e 32 32
  match dieType die with
  | .compute => foldState wakeUnit s (maskCores s die mask)
  | .memory =>
    foldState (fun u0 k =>
      let u := { u0 with memGates := mapErase u0.memGates (dieOrd die * 2 + k) }
      if memUnit u (dieOrd die) k = .gated then count (putMemUnit u (dieOrd die) k .waking) die 2 0xB2 1 else u) s (maskUnits mask)
  | _ => s

/-- The sequencer of a die counts waits of GATE entries for work in progress (R163). -/
def addGateWaits (s : State) (die n : Nat) : State := updFrs s die (fun fr => { fr with gateWaits := fr.gateWaits + n })

/-- A memory die's unit stops now. -/
def gateMemNow (s : State) (st u : Nat) : State :=
  let s1 := { s with memGates := mapErase s.memGates (st * 2 + u) }
  if memUnit s1 st u = .gated then s1 else count (putMemUnit s1 st u .gated) (mmDie st) 2 0xB3 1

/-- A GATE of a memory die's unit: at once, or once it is idle (R163). -/
def gateMem (s : State) (st u : Nat) : State :=
  if memWorks s st u then addGateWaits { s with memGates := mapSet s.memGates (st * 2 + u) true } (mmDie st) 1 else gateMemNow s st u

/-- The units of a stack whose work has ended stop, where a GATE waits for it (R163). -/
def settleMemGates (s : State) (st : Nat) : State :=
  foldState (fun w u => if mapGet w.memGates (st * 2 + u) false && !memWorks w st u then gateMemNow w st u else w) s (upFrom 0 2)

/-- A GATE entry (R163, R396): a unit at work is gated once it is idle, and the sequencer counts the wait. -/
def gateEntry (s : State) (die : Nat) (e : BitVec 128) : State :=
  let mask := fld e 32 32
  match dieType die with
  | .compute =>
    let l := maskCores s die mask
    foldState gateUnit (addGateWaits s die (l.filter (fun c => coreWorks (core s c))).length) l
  | .memory => foldState (fun u k => gateMem u (dieOrd die) k) s (maskUnits mask)
  | _ => s

/-- The firmware keeps the clock of a core without a stage gated while a plan runs (R126): at a frame boundary, and at the end of a test slot. A plan of
the Service profile leaves it to its tests. -/
def keepGated (s : State) (c : Nat) : State :=
  if s.plan.isSome && decide (profile s ≠ 3) && planOn s c && !ownsStage s c && !takesStage s c && !coreStopped s c then gateUnit s c else s

/-- UNIT_WAKE_COMPLETE (R395): a waking unit's clock runs after its wake latency. `u` is a physical core of a compute die, or a unit of a memory
die. Changes of a core's job bitmaps made while its clock stood count from its first cycle on (R83). -/
def execUnitWakeComplete (t : Time) (die : Die) (u : Fin 18) (s : State) : Host.Outcome State Fault Refusal :=
  let s1 := advance s t
  match dieType die.val with
  | .compute =>
    let c := dieOrd die.val * 18 + u.val
    let x := core s1 c
    if x.clk.mode = .waking ∧ s1.now ≥ x.clk.wakeAt then
      .next (capClock (putCore s1 c
        { x with clk := { clkRebase x.clk s1.now with mode := .run }, jfPrev := jobBits s1 c 0x080, jsPrev := jobBits s1 c 0x0A0 }) c)
    else .next s1
  | .memory =>
    if memUnit s1 (dieOrd die.val) u.val = .waking ∧ u.val < 2 then .next (putMemUnit s1 (dieOrd die.val) u.val .run) else .next s1
  | _ => .next s1

/-- CORE_GATED_WHEN_IDLE (R163). -/
def execCoreGatedWhenIdle (t : Time) (c : PhysCore) (s : State) : Host.Outcome State Fault Refusal :=
  let s1 := advance s t
  let x := core s1 c.val
  if x.clk.gateIdle && !coreWorks x then .next (gateCore s1 c.val) else .next s1

/-- The refusal of a write in a CLK page (R423). -/
def clkRefuse (s : State) (die off : Nat) : State := recordError s die 2 0x10C1 off

/-- A frequency goes into a core's unused synthesiser, which locks after 6,250 ticks (R395). -/
def programSynth (k : CoreClk) (mhz now : Nat) : CoreClk := { k with nextMhz := mhz, lockAt := now + 6250 * 64 }

/-- Whether the unused synthesiser has locked: FSTATp.NEXT_LOCKED. -/
def nextLocked (k : CoreClk) : Bool := decide (k.nextMhz ≠ 0) && decide (k.lockAt = 0)

/-- A write of FSYNp (R397). -/
def writeFsyn (s : State) (c : Nat) (v : Word) : State :=
  let die := coreDie c
  let off := 0x180 + 4 * coreOnDie c
  let n := fld v 0 7
  let x := core s c
  if n < 40 ∨ n > 92 ∨ n * 25 > smMhz s c then clkRefuse s die off
  else if tbit v 8 then
    if nextLocked x.clk && decide (x.clk.nextMhz = n * 25) then
      setReg (putCore s c { x with clk := { x.clk with armed := true, armT := s.now } }) die 2 off (BitVec.ofNat 32 n)
    else clkRefuse s die off
  else setReg (putCore s c { x with clk := programSynth x.clk (n * 25) s.now }) die 2 off (BitVec.ofNat 32 n)

/-- A write of FSYNp through the register page. -/
def fsynAccess (s : State) (c : Nat) (v : Word) : State :=
  pageWrite s (coreDie c) 2 (0x180 + 4 * coreOnDie c) true (fun u => writeFsyn u c v)

/-- NEXT_FREQ (R397). -/
def execNextFreq (t : Time) (c : PhysCore) (v : Word) (s : State) : Host.Outcome State Fault Refusal := .next (fsynAccess (advance s t) c.val v)

/-- FSYN_ARM (R397). -/
def execFsynArm (t : Time) (c : PhysCore) (v : Word) (s : State) : Host.Outcome State Fault Refusal := .next (fsynAccess (advance s t) c.val v)

/-- SYNTH_LOCKED (R395). -/
def execSynthLocked (t : Time) (c : PhysCore) (s : State) : Host.Outcome State Fault Refusal :=
  let s1 := advance s t
  let x := core s1 c.val
  if x.clk.nextMhz ≠ 0 ∧ s1.now ≥ x.clk.lockAt then .next (putCore s1 c.val { x with clk := { x.clk with lockAt := 0 } }) else .next s1

/-- The switch to the other synthesiser (R397), which is then the unused one and not programmed. The phase changes, to one that is not specified
(R150): a free value. -/
def switchSynth (s : State) (c : Nat) : State :=
  let d := drawFree s 150 c
  let x := core d.2 c
  let k := clkRebase x.clk s.now
  capClock
    (count (putCore d.2 c { x with clk := { k with mhz := x.clk.nextMhz, nextMhz := 0, lockAt := 0, armed := false, phase := d.1.toNat % 90000 } })
      (coreDie c) 2 0xB4 1) c

/-- SYNTH_SWITCH (R397): a core without a stage switches at the first cycle without a command in execution. -/
def execSynthSwitch (t : Time) (c : PhysCore) (s : State) : Host.Outcome State Fault Refusal :=
  let s1 := advance s t
  let x := core s1 c.val
  if x.clk.armed && nextLocked x.clk && !ownsStage s1 c.val && !takesStage s1 c.val && !coreExecutes x then .next (switchSynth s1 c.val)
  else .next s1

/-- An armed switch at a frame boundary (R397): of a core that carries or takes over a stage, armed before the boundary's mesh cycle. -/
def boundarySynth (s : State) (c : Nat) : State :=
  let k := (core s c).clk
  if k.armed && nextLocked k && decide (k.armT < s.now) && (ownsStage s c || takesStage s c || !coreExecutes (core s c)) then switchSynth s c
  else s

/-- FSTATp as it reads (R422). -/
def fstat (s : State) (c : Nat) : Word :=
  let k := (core s c).clk
  let st := match k.mode with
    | .run => 0
    | .synOff => 2
    | _ => 1
  BitVec.ofNat 32 (k.mhz / 25 + b2n (nextLocked k) * 2 ^ 8 + b2n k.armed * 2 ^ 9 + b2n (decide (k.mode = .synOff)) * 2 ^ 10 + st * 2 ^ 11)

/-- UNIT_RUN (mode RUN) or UNIT_SYNOFF of a die as it reads (R422). -/
def unitBits (s : State) (die : Nat) (m : ClkMode) : Word :=
  match dieType die with
  | .compute =>
    BitVec.ofNat 32 (foldState (fun b l =>
      match physOf s die l with
      | none => b
      | some c => if (core s c).clk.mode = m then b + 2 ^ l else b) 0 (upFrom 0 16))
  | .memory => BitVec.ofNat 32 (foldState (fun b u => if memUnit s (dieOrd die) u = m then b + 2 ^ u else b) 0 (upFrom 0 2))
  | _ => 0#32

/-! ## Reference clock and droop (R394, R413) -/

/-- The dies whose CLK page can be reached. -/
def clkDies (s : State) : List Nat := (upFrom 0 100).filter (fun d => reachable s d 2)

/-- REFERENCE_CLOCK_LOSS (R394): holdover on every die, and 0x6030 in the CLK page of die 90. -/
def execReferenceClockLoss (t : Time) (s : State) : Host.Outcome State Fault Refusal :=
  let s1 := advance s t
  let s2 := foldState (fun u d => setRegFld (setRegFld u d 2 0x040 0 1 0) d 2 0x040 2 1 1) s1 (clkDies s1)
  .next (recordErrorFree s2 90 2 0x6030)

/-- REFERENCE_CLOCK_RETURN (R394): the reference is there again; holdover ends at the next sync pulse. -/
def execReferenceClockReturn (t : Time) (s : State) : Host.Outcome State Fault Refusal :=
  let s1 := advance s t
  .next (foldState (fun u d => setRegFld u d 2 0x040 0 1 1) s1 (clkDies s1))

/-- A sync pulse ends a holdover whose reference has returned (R394). -/
def endHoldover (s : State) (die : Nat) : State :=
  if tbit (reg s die 2 0x040) 0 && tbit (reg s die 2 0x040) 2 then setRegFld s die 2 0x040 2 1 0 else s

/-- Every running core of a die is clocked at 9/8 of its period, or at its own again. -/
def slowDie (slow : Bool) (s : State) (c : Nat) : State :=
  updCore s c (fun x => { x with clk := { clkRebase x.clk s.now with slow := slow } })

/-- DROOP (R413): the core clocks of the die are lengthened while DROOP_CFG.EN is 1. -/
def execDroop (t : Time) (die : ComputeDie) (s : State) : Host.Outcome State Fault Refusal :=
  let s1 := advance s t
  let d := cpDie die.val
  if tbit (reg s1 d 2 0x050) 8 && reachable s1 d 0x10 && (mapFind s1.droop die.val).isNone then
    .next (count (foldState (slowDie true) { s1 with droop := mapSet s1.droop die.val s1.now } (dieCores d)) d 2 0xB0 1)
  else .next s1

/-- Lengthened cycles of a core since a droop began. -/
def droopCycles (s : State) (c t0 : Nat) : Nat :=
  if (core s c).clk.mode = .run then (s.now - t0) * (core s c).clk.mhz * 8 / 90000 else 0

/-- DROOP_TIMEOUT (R413): a droop of more than 4,096 cycles of core `k` of the die. -/
def execDroopTimeout (t : Time) (die : ComputeDie) (k : Fin 18) (s : State) : Host.Outcome State Fault Refusal :=
  let s1 := advance s t
  match mapFind s1.droop die.val with
  | none => .next s1
  | some t0 =>
    if droopCycles s1 (die.val * 18 + k.val) t0 > 4096 then .next (recordError s1 (cpDie die.val) 2 0x6020 k.val) else .next s1

/-- DROOP_RECOVERY (R413): the rail has recovered for 16 cycles. -/
def execDroopRecovery (t : Time) (die : ComputeDie) (s : State) : Host.Outcome State Fault Refusal :=
  let s1 := advance s t
  match mapFind s1.droop die.val with
  | none => .next s1
  | some t0 =>
    let d := cpDie die.val
    let n := foldState (fun a c => a + droopCycles s1 c t0) 0 (dieCores d)
    .next (count (foldState (slowDie false) { s1 with droop := mapErase s1.droop die.val } (dieCores d)) d 2 0xB1 n)

/-- A write of GUARD or DROOP_CFG (R422). -/
def writeClkCfg (s : State) (die off : Nat) (v : Word) : State :=
  if off = 0x04C then
    if fld v 0 7 < 1 ∨ fld v 0 7 > 8 then clkRefuse s die off else setReg s die 2 off (v &&& 0x7F#32)
  else if fld v 0 8 < 10 ∨ fld v 0 8 > 100 then clkRefuse s die off
  else setReg s die 2 off (v &&& 0x1FF#32)

/-! ## Power (R388, R389, R403 to R409) -/

/-- A register of the PWR page. -/
def pwr (s : State) (off : Nat) : Word := reg s 90 9 off

/-- The state with a field of a PWR register replaced. -/
def setPwr (s : State) (off lo n v : Nat) : State := setRegFld s 90 9 off lo n v

/-- The state with the controllers changed. -/
def updPower (s : State) (f : PowerSt → PowerSt) : State := { s with power := f s.power }

/-- PWR_STATE.STATE as it reads (R390): 3 and 4 by RUNNING of die 0. -/
def powerStateNow (s : State) : Nat :=
  let st := fld (pwr s 0x040) 0 3
  if st = 3 ∨ st = 4 then (if frsRunning s 0 then 4 else 3) else st

/-- The carrier's limit of a connected blade's current in 0.1 A: 25 A while the input capacitance charges, for at most 15 ms, and 140 A (R523). -/
def bladeLimit (b : Blade) : Nat := if b.chargeAt.isSome then 250 else 1400

/-- The ORing stage at a sample (R523): a blade is connected once its voltage has stayed in range for 10 ms with BLADE_SENSE mated, and no longer once
BLADE_SENSE is not (log entry 128). -/
def stepBlade (now : Nat) (i : BladeIn) (b : Blade) : Blade :=
  if !i.sense then {}
  else
    let since := if decide (4000 ≤ i.volts) && decide (i.volts ≤ 6000) then some (b.since.getD now) else none
    if b.on then
      let c := { b with since := since, chargeAt := b.chargeAt.filter (fun t => !i.charged && decide (now < t + 15 * ms)) }
      { c with amps := min i.amps (bladeLimit c) }
    else if (match since with
        | some t => decide (now ≥ t + 10 * ms)
        | none => false) then
      let c : Blade := { since := since, on := true, chargeAt := if i.charged then none else some now }
      { c with amps := min i.amps (bladeLimit c) }
    else { since := since }

/-- POWER_SAMPLE (R403, R418, R523): a 10 µs sample of input power, and of the two blades. -/
def execPowerSample (t : Time) (sample : PowerIn) (s : State) : Host.Outcome State Fault Refusal :=
  let s1 := advance s t
  if railOn s1 .aux then
    .next (updPower s1 (fun p => { p with
      samples := (sample.watts :: p.samples).take 100, energy := p.energy + sample.watts,
      bladeA := stepBlade s1.now sample.bladeA p.bladeA, bladeB := stepBlade s1.now sample.bladeB p.bladeB }))
  else .next s1

/-- The sum of a list. -/
def sumList (l : List Nat) : Nat :=
  match l with
  | [] => 0
  | a :: r => a + sumList r

/-- The largest of a list. -/
def maxList (l : List Nat) : Nat :=
  match l with
  | [] => 0
  | a :: r => max a (maxList r)

/-- The module enters single-blade operation (R389). -/
def singleBlade (s : State) (lost : Nat) : State :=
  if tbit (pwr s 0x040) 8 then updPower s (fun p => { p with bothMs := 0 })
  else recordError (updPower (setPwr s 0x040 8 1 1) (fun p => { p with bothMs := 0 })) 90 9 0x6012 lost

/-- BLADE_CURRENT_LOSS (R389). -/
def execBladeCurrentLoss (t : Time) (blade : Fin 2) (s : State) : Host.Outcome State Fault Refusal :=
  let s1 := advance s t
  .next (singleBlade (setPwr s1 0x040 (4 + blade.val) 1 0) blade.val)

/-- The blades at the end of a millisecond (R389): a blade that the ORing stage does not connect carries no current (R523). -/
def stepBlades (s : State) (c0 c1 : Bool) : State :=
  let b0 := c0 && s.power.bladeA.on
  let b1 := c1 && s.power.bladeB.on
  let s1 := setPwr (setPwr s 0x040 4 1 (b2n b0)) 0x040 5 1 (b2n b1)
  if b0 && b1 then
    if tbit (pwr s1 0x040) 8 then
      if s1.power.bothMs + 1 ≥ 1000 then updPower (setPwr s1 0x040 8 1 0) (fun p => { p with bothMs := 0 })
      else updPower s1 (fun p => { p with bothMs := p.bothMs + 1 })
    else s1
  else if b0 || b1 then singleBlade s1 (if b0 then 1 else 0)
  else s1

/-- Inserts a domain in shedding order: by rising priority, after those of equal priority. -/
def insertDomain (prio : Nat → Nat) (d : Nat) (l : List Nat) : List Nat :=
  match l with
  | [] => [d]
  | a :: r => if prio d < prio a then d :: a :: r else a :: insertDomain prio d r

/-- The shedding order (R405): lowest priority first; links, memory, compute among equals. Domains 0 compute, 1 memory, 2 links. -/
def shedOrder (s : State) : List Nat :=
  let prio (d : Nat) : Nat := fld (pwr s 0x05C) (2 * d) 2
  insertDomain prio 0 (insertDomain prio 1 [2])

/-- The work of a millisecond whose power exceeds the cap (R406). -/
def overCap (s : State) : State :=
  let p := s.power
  let s0 := count (updPower s (fun q => { q with below := 0 })) 90 9 0xA1 1
  if p.filler > 0 then updPower s0 (fun q => { q with filler := 0 })
  else
    match (shedOrder s).find? (fun d => decide (nth p.pace d 0 < 3)) with
    | some d => count (updPower s0 (fun q => { q with pace := setNth q.pace d (nth q.pace d 0 + 1) })) 90 9 0xA3 1
    | none =>
      if p.thrPower < 16 then count (updPower s0 (fun q => { q with thrPower := q.thrPower + 1 })) 90 9 0xA2 1
      else updPower s0 (fun q => { q with over16 := q.over16 + 1 })

/-- The work of a millisecond within the cap (R406). -/
def underCap (s : State) (p1 c : Nat) : State :=
  let hyst := fld (pwr s 0x05C) 8 8
  let relax := fld (pwr s 0x05C) 16 8
  let b := if 100 * p1 < c * (100 - hyst) then s.power.below + 1 else 0
  let s1 := updPower s (fun q => { q with over16 := 0, below := if b = relax then 0 else b })
  if b = relax then
    if s.power.thrPower > 0 then updPower s1 (fun q => { q with thrPower := q.thrPower - 1 })
    else
      match (shedOrder s).reverse.find? (fun d => decide (nth s.power.pace d 0 > 0)) with
      | some d => updPower s1 (fun q => { q with pace := setNth q.pace d (nth q.pace d 0 - 1) })
      | none => s1
  else s1

/-- The power controller's rule of a millisecond (R406); the hundredth one over the cap at THR 16 loses the module. -/
def capRule (s : State) (p1 : Nat) : State :=
  let c := s.power.cap
  let s1 := if p1 > c then overCap s else underCap s p1 c
  if s1.power.over16 = 100 ∧ s.power.over16 ≠ 100 then { recordError s1 90 9 0x6013 (p1 % 2 ^ 16) with departing := true } else s1

/-- SPRINT_USED (R408). -/
def sprintUsed (p : PowerSt) : Nat := sumList p.bins

/-- The sprint meter at the end of a millisecond (R408): 601 bins of 100 ms. -/
def stepSprint (s : State) (p1 : Nat) : State :=
  let p := s.power
  let n := b2n (decide (p1 > p.sust))
  let b := match p.bins with
    | [] => [n]
    | a :: r => (a + n) :: r
  let s1 := updPower s (fun q =>
    if p.binMs + 1 ≥ 100 then { q with bins := (0 :: b).take 601, binMs := 0 } else { q with bins := b, binMs := p.binMs + 1 })
  count (setPwr s1 0x058 0 16 (min 65535 (sprintUsed s1.power))) 90 9 0xA0 n

/-- Whether sprint is allowed in the millisecond that begins (R409). -/
def sprintAllowed (s : State) : Bool :=
  s.plan.isSome && frsRunning s 0 && decide (profile s < 2) && tbit (opCur s) 10
    && decide (fld (pwr s 0x04C) 0 16 = (if s.bench then 3200 else 6400)) && !s.bench && !tbit (pwr s 0x040) 8
    && decide (s.power.thrTherm = 0) && decide (s.power.thrInput = 0) && decide (sprintUsed s.power < 10000)

/-- The data word of a hint frame (R528): POWER, KIND, LEAD in units of 0.1 ms, and SEQ, one more than that of the frame before it. -/
def hintWord (last : Option Word) (w kind lead : Nat) : Word :=
  let seq := match last with
    | none => 0
    | some h => fld h 28 4 + 1
  BitVec.ofNat 32 (w % 2 ^ 16 + kind * 2 ^ 16 + min 255 lead * 2 ^ 20 + seq % 16 * 2 ^ 28)

/-- A load hint (R417): sent with the forerunner method for a change that exceeds HINT_STEP. -/
def loadHint (s : State) (w kind lead : Nat) : State :=
  let c := pwr s 0x0A0
  if tbit c 1 && decide (fld c 24 8 * 50 < (w - s.power.pPrev) + (s.power.pPrev - w)) then
    updPower s (fun p => { p with hint := some (hintWord p.hint w kind lead) })
  else s

/-! ## Temperature (R410, R411) -/

/-- Sensors of a die (R410). -/
def sensorCount (die : Nat) : Nat := if dieType die = .compute then 4 else 1

/-- Faulty sensors of a die. -/
def faultyCount (s : State) (die : Nat) : Nat :=
  ((upFrom 0 (sensorCount die)).filter (fun k => mapGet s.power.faulty (die * 4 + k) false)).length

/-- Whether a die is counted at CRIT_C (R410). -/
def dieCrit (s : State) (die : Nat) : Bool :=
  decide (faultyCount s die ≥ 2) || (decide (sensorCount die = 1) && decide (faultyCount s die = 1))

/-- A sensor's reading: outside −40 to 150 °C it is marked faulty (R410). -/
def readSensor (s : State) (r : Die × Fin 4 × Int) : State :=
  let k := r.1.val * 4 + r.2.1.val
  if (r.2.2 < -640 ∨ r.2.2 > 2400) ∧ mapGet s.power.faulty k false = false then
    count (recordError (updPower s (fun p => { p with faulty := mapSet p.faulty k true })) 90 0x0A 0x7012 (r.1.val + r.2.1.val * 128)) 90
      0x0A 0xA9 1
  else s

/-- The hotter of the best reading so far and a valid one, with its die. -/
def hotter (s : State) (best : Option (Int × Nat)) (r : Die × Fin 4 × Int) : Option (Int × Nat) :=
  if mapGet s.power.faulty (r.1.val * 4 + r.2.1.val) false then best
  else
    match best with
    | none => some (r.2.2, r.1.val)
    | some (t, d) => if r.2.2 > t then some (r.2.2, r.1.val) else some (t, d)

/-- The hottest of a list of readings. -/
def hottest (s : State) (l : List (Die × Fin 4 × Int)) : Option (Int × Nat) := foldState (hotter s) none l

/-- DIE_Ti of the dies with readings (R421). -/
def showDie (l : List (Die × Fin 4 × Int)) (s : State) (die : Nat) : State :=
  match hottest s (l.filter (fun r => decide (r.1.val = die))) with
  | none => setReg s 90 0x0A (0x100 + 4 * die) (BitVec.ofNat 32 (faultyCount s die * 2 ^ 28 + b2n (dieCrit s die) * 2 ^ 31))
  | some (t, _) =>
    setReg s 90 0x0A (0x100 + 4 * die) (BitVec.ofNat 32 (unsign 16 t + faultyCount s die * 2 ^ 28 + b2n (dieCrit s die) * 2 ^ 31))

/-- lvl(t) of R411, with the temperature in units of 0.0625 °C. -/
def thermLevel (s : State) (t : Int) : Nat :=
  let c := reg s 90 0x0A 0x040
  let thr : Int := fld c 0 8
  let crit : Int := fld c 8 8
  if t < thr * 16 then 0
  else if t ≥ crit * 16 then 16
  else min 16 (2 + 2 * ((t - thr * 16) / 16).toNat)

/-- The thermal controller (R410, R411). -/
def stepThermal (s : State) (coolant : Int) (l : List (Die × Fin 4 × Int)) : State :=
  let s1 := foldState readSensor s l
  let s2 := foldState (showDie l) s1 ((upFrom 0 100).filter (fun d => l.any (fun r => decide (r.1.val = d))))
  let s3 := setReg s2 90 0x0A 0x048 (BitVec.ofNat 32 (unsign 16 coolant))
  let s4 := if coolant > (fld (reg s3 90 0x0A 0x04C) 0 8 : Int) * 16 then recordError s3 90 0x0A 0x7001 (unsign 16 coolant) else s3
  let crit : Int := (fld (reg s4 90 0x0A 0x040) 8 8 : Int) * 16
  let hot := hottest s4 l
  let bad := (upFrom 0 100).find? (fun d => dieCrit s4 d)
  let top : Option (Int × Nat) :=
    match hot, bad with
    | some (t, d), some b => if crit > t then some (crit, b) else some (t, d)
    | some h, none => some h
    | none, some b => some (crit, b)
    | none, none => none
  let s5 := match hot with
    | some (t, d) => setReg s4 90 0x0A 0x044 (BitVec.ofNat 32 (unsign 16 t + d * 2 ^ 16))
    | none => s4
  match top with
  | none => s5
  | some (t, d) =>
    let old := s5.power.thrTherm
    let up := thermLevel s5 t
    let dn := thermLevel s5 (t + (fld (reg s5 90 0x0A 0x040) 16 8 : Int) * 16)
    let new := if up > old then up else if dn < old then dn else old
    let s6 := updPower s5 (fun p => { p with thrTherm := new })
    let s7 := if up = 16 ∧ old < 16 ∧ t ≥ crit then recordError s6 90 0x0A 0x7010 d else s6
    count s7 90 0x0A 0xA8 (b2n (decide (new > 0)))

/-! ## Input and filler (R414, R415) -/

/-- The input at the end of a millisecond (R414): back at 40.0 V or more for 100 ms, THR_INPUT falls to 0. -/
def stepInput (s : State) (volts : Nat) : State :=
  if s.power.excursion then
    if volts < 4000 then updPower s (fun p => { p with backMs := none })
    else
      match s.power.backMs with
      | none => updPower s (fun p => { p with backMs := some p.slowMs })
      | some m =>
        if s.power.slowMs ≥ m + 100 then updPower s (fun p => { p with thrInput := 0, excursion := false, backMs := none }) else s
  else s

/-- INPUT_UNDERVOLTAGE (R414): below 40.0 V; the error once per excursion. -/
def execInputUndervoltage (t : Time) (volts : Nat) (s : State) : Host.Outcome State Fault Refusal :=
  let s1 := advance s t
  if volts ≥ 4000 then .next s1
  else
    let s2 := updPower s1 (fun p => { p with thrInput := 16, excursion := true, backMs := none, sprint := false })
    if s1.power.excursion then .next s2 else .next (recordError s2 90 9 0x6010 (volts % 2 ^ 16))

/-- The frequency at which a logical core without a stage is timed (R61, R127, log entry 31): 1,550 MHz in the Density profile, the one
frequency of the plan in the fixed-frequency mode, else 1,800 MHz. -/
def restMhz (pl : PlanInfo) : Nat :=
  if pl.profile = 2 then 1550
  else if pl.profile = 3 ∨ pl.freqMode = 1 then 1800
  else
    match pl.stages with
    | [] => 1800
    | g :: _ => g.mhz

/-- The unlocked frequency in force (R401, R402): that of the operating point in the Balanced profile, else the plan's, or 1.80 GHz without one. -/
def unlockedMhz (s : State) : Nat :=
  let n := if profile s = 1 then fld (opCur s) 0 7 else 0
  if n ≠ 0 then n * 25
  else
    match s.plan with
    | none => 1800
    | some pl => restMhz pl

/-- FILLER_MAX (R415): 3,000 W at 1.80 GHz, scaled with the unlocked frequency. -/
def fillerMax (s : State) : Nat := 3000 * unlockedMhz s / 1800

/-- Whether filler may run (R415). -/
def fillerOn (s : State) : Bool :=
  tbit (pwr s 0x0A0) 0 && decide (powerStateNow s ≥ 3) && tbit (opCur s) 9 && decide (profile s ≠ 3)
    && decide (max s.power.thrPower (max s.power.thrTherm s.power.thrInput) = 0)

/-- The filler target at the end of a millisecond (R415); a millisecond over the cap leaves what R406 made of it. -/
def stepFiller (s : State) (p1 : Nat) : State :=
  let p := s.power
  let show_ (u : State) : State := count (setPwr u 0x0A8 0 16 u.power.filler) 90 9 0xA4 (b2n (decide (u.power.filler > 0)))
  if !fillerOn s then show_ (updPower s (fun q => { q with filler := 0 }))
  else if p1 > p.cap then show_ s
  else
    let other := p1 - p.filler
    let c := pwr s 0x0A0
    let ramp := fld c 16 8 * 10
    let want := max (fld c 8 8 * 50) (if ramp = 0 then 0 else p.pPrev - ramp) - other
    let most := min (fillerMax s) (p.cap - other)
    let s1 := show_ (updPower s (fun q => { q with filler := min want most }))
    if want > most then recordError s1 90 9 0x6014 ((want - most) % 2 ^ 16) else s1

/-! ## The controller millisecond (R402 to R415) -/

/-- CAP_STATUS as the controllers stand (R420). -/
def capStatus (p : PowerSt) : Word :=
  BitVec.ofNat 32 (nth p.pace 0 0 + nth p.pace 1 0 * 4 + nth p.pace 2 0 * 16 + p.thrPower * 2 ^ 8 + p.thrTherm * 2 ^ 13 + p.thrInput * 2 ^ 18)

/-- A core without a stage takes the operating point's frequency in the Balanced profile (R402), to be switched under R397. -/
def opFreq (n : Nat) (s : State) (c : Nat) : State :=
  let f := min (n * 25) (smMhz s c)
  let x := core s c
  if ownsStage s c || decide (x.clk.mhz = f) || decide (f < 1000) then s
  else putCore s c { x with clk := { programSynth x.clk f s.now with armed := true, armT := s.now } }

/-- A stopped core without a stage takes SYN_OFF or GATED as the operating point says (R402). -/
def opIdle (s : State) (c : Nat) : State :=
  if coreStopped s c && decide ((core s c).clk.mode ≠ stopMode s c) then
    updCore s c (fun x => { x with clk := { x.clk with mode := stopMode s c } })
  else s

/-- The operating point of the phase applies from this millisecond (R402). -/
def stepOp (s : State) : State :=
  let n := fld (pwr s 0x068) (4 * fld (pwr s 0x064) 0 3) 3
  let old := fld (pwr s 0x06C) 0 3
  let s1 := setReg s 90 9 0x06C (BitVec.ofNat 32 n)
  if n = old then s1
  else
    let o := opCur s1
    let oo := opCur s
    let s2 := if tbit o 8 ≠ tbit oo 8 then foldState opIdle s1 (upFrom 0 1152) else s1
    if profile s = 1 ∧ s.plan.isSome = true ∧ fld o 0 7 ≠ 0 then foldState (opFreq (fld o 0 7)) s2 (upFrom 0 1152) else s2

/-- The limits, the cap and sprint of the millisecond that begins (R404, R409, R417). -/
def nextLimits (s : State) : State :=
  let a := sprintAllowed s
  let cap := if tbit (pwr s 0x040) 8 then fld (pwr s 0x054) 0 16 else if a then fld (pwr s 0x050) 0 16 else fld (pwr s 0x04C) 0 16
  let s1 := setPwr (updPower s (fun p => { p with cap := cap, sust := fld (pwr s 0x04C) 0 16, sprint := a })) 0x040 9 1 (b2n a)
  if a && !s.power.sprint then loadHint s1 (fld (pwr s 0x050) 0 16) 3 20
  else if !a && s.power.sprint then loadHint s1 (fld (pwr s 0x04C) 0 16) 4 20
  else s1

/-- A controller millisecond ends (R403 to R415): P_1MS is formed, and the power, sprint, thermal, input and filler rules apply. -/
def controllerMs (s : State) (m : MsIn) : State :=
  if !railOn s .aux then s
  else
    let l := s.power.samples
    let p1 := if l.isEmpty then 0 else sumList l / l.length
    let s1 := updPower s (fun p => { p with slowMs := p.slowMs + 1, samples := [] })
    let s2 := setReg (setReg s1 90 9 0x044 (BitVec.ofNat 32 (min 65535 p1 + min 65535 (maxList l) * 2 ^ 16))) 90 9 0x048
      (BitVec.ofNat 32 (m.volts % 2 ^ 16 + m.amps % 2 ^ 16 * 2 ^ 16))
    let s3 := stepSprint (capRule (stepBlades s2 m.blade0 m.blade1) p1) p1
    let s4 := stepInput (stepThermal s3 m.coolant m.sensors) m.volts
    let s5 := updFrs s4 90 (fun fr => { fr with thr := max s4.power.thrPower (max s4.power.thrTherm s4.power.thrInput) })
    let s6 := stepFiller (stepOp s5) p1
    nextLimits (setReg (updPower s6 (fun p => { p with pPrev := p1 })) 90 9 0x060 (capStatus s6.power))

/-! ## Register writes of the PWR and THM pages (R388, R420, R421) -/

/-- The refusal of a write of the PWR or THM page. -/
def pwrRefuse (s : State) (page off : Nat) : State := recordError s 90 page 0x10C0 off

/-- A write of LIMIT_SUST or LIMIT_SINGLE (R388). -/
def writeLimit (s : State) (off : Nat) (v : Word) : State :=
  let top := (blockReset s.bench .pwr 90 9 off).toNat
  if v.toNat < 900 ∨ v.toNat > top then pwrRefuse s 9 off else setReg s 90 9 off v

/-- A write of CAP_CTRL, PHASE_CUR, PHASE_OP, OPn or SMOOTH_CTRL and SERVE_EST (R420): a nonzero RSVD field refuses it. -/
def writePwr (s : State) (off : Nat) (v : Word) : State :=
  if off = 0x04C ∨ off = 0x054 then writeLimit s off v
  else if off = 0x05C then
    if fld v 8 8 > 25 ∨ fld v 16 8 = 0 ∨ fld v 24 8 ≠ 0 ∨ fld v 6 2 ≠ 0 then pwrRefuse s 9 off else setReg s 90 9 off v
  else if off = 0x064 then if v.toNat > 4 then pwrRefuse s 9 off else setReg s 90 9 off v
  else if off = 0x068 then if v &&& 0xFFF88888#32 ≠ 0#32 then pwrRefuse s 9 off else setReg s 90 9 off v
  else if 0x080 ≤ off ∧ off < 0x0A0 then
    if fld v 7 1 ≠ 0 ∨ fld v 11 21 ≠ 0 then pwrRefuse s 9 off else setReg s 90 9 off v
  else if off = 0x0A0 then if fld v 2 6 ≠ 0 then pwrRefuse s 9 off else setReg s 90 9 off v
  else if off = 0x0A4 then if fld v 16 16 ≠ 0 then pwrRefuse s 9 off else setReg s 90 9 off v
  else s

/-- A write of THM_CFG or COOLANT_LIMIT (R421). -/
def writeThm (s : State) (off : Nat) (v : Word) : State :=
  if off = 0x040 then
    let thr := fld v 0 8
    let crit := fld v 8 8
    let h := fld v 16 8
    if 80 ≤ thr ∧ thr < crit ∧ crit ≤ 105 ∧ 1 ≤ h ∧ h ≤ 8 then setReg s 90 0x0A off (v &&& 0x00FFFFFF#32) else pwrRefuse s 0x0A off
  else setReg s 90 0x0A off (v &&& 0xFF#32)

end Sys2Proof.Machine
end

