-- ==== Sys2Proof/Machine/PlanRead.lean ====
section
/-!
DEFINITION. Sys2Proof/Machine/PlanRead.lean: reading a plan container (R139 to R142) and the sections that the device consumes: frame programs
(R156 to R158), mesh schedules (R144), link slots (R328), region tables (R357), weight placements (R373), cache layouts (R219,
R220), expert envelopes (R249), the canopy table (R268) and the fallback index (R459).
-/
namespace Sys2Proof.Machine

/-! ## Bytes -/

/-- The bytes from `o` on, `n` of them. -/
def bytesAt (f : List Byte) (o n : Nat) : List Byte := (f.drop o).take n

/-- The little-endian number of `n` bytes at `o`. -/
def leAt (f : List Byte) (o n : Nat) : Nat := ofLE (bytesAt f o n)

/-- `n` records of `size` bytes from `o` on. -/
def recsAt (f : List Byte) (o size n : Nat) : List (List Byte) := (upFrom 0 n).map (fun i => bytesAt f (o + i * size) size)

/-- Whether `n` bytes at `o` are zero. -/
def zeroAt (f : List Byte) (o n : Nat) : Bool := decide (leAt f o n = 0)

/-- The SHA-384 digest of bytes as its 48 bytes spell it (log entry 8). -/
def digestIs (l digest : List Byte) : Bool := decide (Config.sha384 l = BitVec.ofNat 384 (ofLE digest))

/-! ## Header and directory (R139, R140) -/

/-- A directory entry with its index (R140). -/
structure PlanEnt where
  idx : Nat
  type : Nat
  unit : Nat
  flags : Nat
  node : Nat
  die : Nat
  off : Nat
  len : Nat
  rsvd : Nat
  digest : List Byte
deriving DecidableEq, Repr

/-- The directory entry of an index (R140). -/
def entAtIdx (f : List Byte) (i : Nat) : PlanEnt :=
  let o := leAt f 0x38 8 + 80 * i
  { idx := i, type := leAt f o 2, unit := leAt f (o + 2) 1, flags := leAt f (o + 3) 1, node := leAt f (o + 4) 2, die := leAt f (o + 6) 2,
    off := leAt f (o + 8) 8, len := leAt f (o + 16) 8, rsvd := leAt f (o + 24) 8, digest := bytesAt f (o + 32) 48 }

/-- The directory (R140). -/
def directory (f : List Byte) : List PlanEnt := (upFrom 0 (leAt f 0x0C 4)).map (entAtIdx f)

/-- The bytes of a section. -/
def section_ (f : List Byte) (e : PlanEnt) : List Byte := bytesAt f e.off e.len

/-- Whether the container's first 256 bytes and its directory bounds are as R139 says. -/
def headerOk (f : List Byte) : Bool :=
  decide (f.length ≥ 256) && decide (leAt f 0 4 = 0x4C505956) && decide (leAt f 6 2 = 1) && decide (leAt f 8 4 = 0x100)
    && decide (1 ≤ leAt f 0x0C 4) && decide (leAt f 0x0C 4 ≤ 4096) && decide (leAt f 0x28 1 ≤ 3) && decide (leAt f 0x29 1 ≤ 1)
    && decide (1 ≤ leAt f 0x2A 2) && decide (leAt f 0x2A 2 ≤ 256) && decide (1 ≤ leAt f 0x32 1) && decide (leAt f 0x32 1 ≤ 4)
    && decide (1 ≤ leAt f 0x33 1) && decide (leAt f 0x33 1 ≤ 32) && decide (1 ≤ leAt f 0x34 2) && decide (leAt f 0x34 2 ≤ 256)
    && zeroAt f 0x36 2 && decide (leAt f 0x38 8 % 64 = 0) && decide (leAt f 0x38 8 + 80 * leAt f 0x0C 4 ≤ f.length) && zeroAt f 0x40 144

/-- Whether a directory entry's own fields and bounds are as R140 says. -/
def entOk (f : List Byte) (e : PlanEnt) : Bool :=
  decide (e.flags < 2) && decide (e.rsvd = 0) && decide (e.off % 64 = 0) && decide (e.off + e.len ≤ f.length)

/-- Whether two sections overlap. -/
def entsMeet (a b : PlanEnt) : Bool := decide (a.off < b.off + b.len) && decide (b.off < a.off + a.len)

/-- The entries that break R140, in directory order. -/
def badEnts (f : List Byte) (d : List PlanEnt) : List PlanEnt :=
  d.filter (fun e => !entOk f e || d.any (fun b => decide (b.idx < e.idx) && entsMeet b e))

/-- Whether an entry is one of a unit for a module (R140). -/
def entFor (u node : Nat) (e : PlanEnt) : Bool := decide (e.unit = u) && (decide (e.node = node) || decide (e.node = 0xFFFF))

/-- The nodes of a plan's slice (R359). -/
def planNodes (s : State) (f : List Byte) : List Nat :=
  let o := leAt f 0x30 2
  let ny := max s.ny 1
  let nz := max s.nz 1
  ((upFrom 0 (leAt f 0x34 2)).map (fun z =>
    ((upFrom 0 (leAt f 0x33 1)).map (fun y =>
      (upFrom 0 (leAt f 0x32 1)).map (fun x => nodeOf ((nodeX o + x) % 4) ((nodeY o + y) % ny) ((nodeZ o + z) % nz)))).flatten)).flatten

/-! ## Frame programs (R156) -/

/-- The number of bytes of `n` records of `size`, padded to a multiple of 64. -/
def padded (size n : Nat) : Nat := roundUp (size * n) 64

/-- The array sizes of a FRAME_PROGRAM section in bytes: segments, jobs, stage groups, entries, descriptors. -/
def progSizes (b : List Byte) : List Nat :=
  [padded 16 (leAt b 4 2), padded 8 (leAt b 7 1), padded 8 (leAt b 8 2), padded 16 (leAt b 0x10 4), padded 64 (leAt b 0x14 4)]

/-- The place of array `i` in a FRAME_PROGRAM section: they follow the header of 32 bytes. -/
def progAt (b : List Byte) (i : Nat) : Nat := foldState (fun a n => a + n) 32 ((progSizes b).take i)

/-- The program that a FRAME_PROGRAM section spells (R156). -/
def readProg (b : List Byte) : FBank :=
  { base := leAt b 0 4, firstSeg := leAt b 6 1, agreeLag := leAt b 0xA 1, decay := leAt b 0xB 1, ovrHold := leAt b 0xC 1,
    segs := (recsAt b (progAt b 0) 16 (leAt b 4 2)).map (fun r =>
      { start := leAt r 0 4, len := leAt r 4 4, firstEntry := leAt r 8 4, count := leAt r 12 2, nxt := leAt r 14 1 }),
    jobs := (recsAt b (progAt b 1) 8 (leAt b 7 1)).map (fun r =>
      { tag := leAt r 0 1, depth := leAt r 1 1, chunk := leAt r 2 1, slots := leAt r 4 2 }),
    groups := (recsAt b (progAt b 2) 8 (leAt b 8 2)).map (fun r => { tag := leAt r 0 1, lag := leAt r 1 1, layer := leAt r 2 2 % 1024 }),
    entries := (recsAt b (progAt b 3) 16 (leAt b 0x10 4)).map (fun r => BitVec.ofNat 128 (ofLE r)), nwLoad := none,
    descs := (recsAt b (progAt b 4) 64 (leAt b 0x14 4)).map (fun r => BitVec.ofNat 512 (ofLE r)) }

/-- Whether the RSVD fields of a FRAME_PROGRAM section are zero and its arrays lie inside it. -/
def progShape (b : List Byte) : Bool :=
  decide (b.length ≥ 32) && zeroAt b 0xD 3 && zeroAt b 0x18 8 && decide (progAt b 5 ≤ b.length)
    && (recsAt b (progAt b 0) 16 (leAt b 4 2)).all (fun r => zeroAt r 15 1)
    && (recsAt b (progAt b 1) 8 (leAt b 7 1)).all (fun r => zeroAt r 3 1 && zeroAt r 6 2)
    && (recsAt b (progAt b 2) 8 (leAt b 8 2)).all (fun r => zeroAt r 4 4 && decide (leAt r 2 2 < 1024))

/-! ## Mesh schedules and link slots (R144, R328) -/

/-- The schedule bank that a MESH_SCHEDULE section spells (R144). -/
def readSched (b : List Byte) : SchedBank :=
  { cycles := leAt b 0 4,
    runs := (recsAt b 8 8 (leAt b 4 4)).map (fun r =>
      let w : BitVec 64 := BitVec.ofNat 64 (ofLE r)
      { first := fld w 0 24, count := fld w 24 16 + 1, out := fld w 40 3, inp := fld w 43 3 }) }

/-- Whether a MESH_SCHEDULE section holds its entries, their RSVD bits zero. -/
def schedShape (b : List Byte) : Bool :=
  decide (b.length ≥ 8) && decide (8 + 8 * leAt b 4 4 ≤ b.length) && (recsAt b 8 8 (leAt b 4 4)).all (fun r => decide (ofLE r < 2 ^ 46))

/-- A port table of a LINK_SLOTS section (R328). -/
structure PortTable where
  port : Nat
  dir : Nat
  tx : List LinkRun
  rx : List LinkRun
  rsvdOk : Bool
deriving DecidableEq, Repr

/-- A run list of a port table (R328). -/
def readRuns (b : List Byte) (o n : Nat) : List LinkRun :=
  (recsAt b o 8 n).map (fun r => { first := leAt r 0 3, count := leAt r 3 3 + 1 })

/-- The port tables of a LINK_SLOTS section from a place on (R328). -/
def readTables (b : List Byte) (n o : Nat) : List PortTable :=
  match n with
  | 0 => []
  | k + 1 =>
    let tx := leAt b (o + 2) 2
    let rx := leAt b (o + 4) 2
    { port := leAt b o 1, dir := leAt b (o + 1) 1, tx := readRuns b (o + 8) tx, rx := readRuns b (o + 8 + 8 * tx) rx,
      rsvdOk := zeroAt b (o + 6) 2 && (recsAt b (o + 8) 8 (tx + rx)).all (fun r => zeroAt r 6 2) && decide (o + 8 + 8 * (tx + rx) ≤ b.length) }
      :: readTables b k (o + 8 + 8 * (tx + rx))

/-- The port tables of a LINK_SLOTS section (R328). -/
def linkTables (b : List Byte) : List PortTable := readTables b (min (leAt b 0 2) 42) 64

/-- The delivery delay that a LINK_SLOTS section gives a direction code (R328): X, Y, Z, S, or a spare. -/
def delayOf (b : List Byte) (dir : Nat) : Nat :=
  if dir ≥ 16 then leAt b 0xC 1
  else if dir ≤ 3 then leAt b 8 1
  else if dir ≤ 5 then leAt b 9 1
  else if dir ≤ 7 then leAt b 0xA 1
  else leAt b 0xB 1

/-! ## Stages and contexts (R142) -/

/-- The stages of a CORE_PLAN section of a die and node. -/
def readStages (b : List Byte) (node die : Nat) : List Stage :=
  (recsAt b 4 8 (leAt b 0 4)).map (fun r =>
    let w : BitVec 64 := BitVec.ofNat 64 (ofLE r)
    { node := node, die := die, logical := fld w 0 4, job := fld w 4 8, layer := fld w 12 10, group := fld w 22 10, mhz := fld w 32 16 })

/-- The contexts of a CONTEXTS section of a die. -/
def readContexts (b : List Byte) (die : Nat) : List CtxPlan :=
  (recsAt b 4 8 (leAt b 0 4)).map (fun r =>
    let w : BitVec 64 := BitVec.ofNat 64 (ofLE r)
    { die := die, logical := fld w 0 4, ctx := fld w 4 4, base := fld w 8 17, bound := fld w 25 17, owner := fld w 42 8 })

/-- Whether a counted section of 8-byte entries holds them with bits from `lo` on zero. -/
def countedShape (b : List Byte) (lo : Nat) : Bool :=
  decide (b.length ≥ 4) && decide (4 + 8 * leAt b 0 4 ≤ b.length) && (recsAt b 4 8 (leAt b 0 4)).all (fun r => decide (ofLE r < 2 ^ lo))

/-! ## Region tables (R357) -/

/-- The protection bank that a REGION_TABLES section spells: region entries and route lists by direction code. -/
def readProt (b : List Byte) : ProtBank :=
  { entries :=
      foldState (fun m i =>
        let o := 128 + 32 * i
        mapPut ProtEntry.empty m i
          { valid := true, job := leAt b o 1, mode := leAt b (o + 1) 1, node := leAt b (o + 2) 2, base := leAt b (o + 8) 8,
            limit := leAt b (o + 16) 8, perm := leAt b (o + 4) 1, qos := leAt b (o + 5) 1 }) [] (upFrom 0 (leAt b 0 2)),
    routes := foldState (fun m d => mapPut 0xFFFFFFFFFFFFFFFF#64 m d (BitVec.ofNat 64 (leAt b (8 * d) 8))) [] (upFrom 1 15) }

/-! ## Placements (R373) -/

/-- The extents of a WEIGHT_PLACEMENT section. -/
def readExtents (b : List Byte) : List Extent :=
  (recsAt b 64 32 (leAt b 0 4)).map (fun r =>
    { job := leAt r 0 1, kind := leAt r 1 1, member := leAt r 2 1, tiles := leAt r 4 4, offset := leAt r 8 8, pgroup := leAt r 16 4 })

/-! ## Cache layouts (R219, R220) -/

/-- The KV_LAYOUT that a section spells. -/
def readKv (b : List Byte) : KvLayout :=
  let nf := leAt b 0xC 4
  let nr := leAt b 0x10 4
  { job := leAt b 0 1, format := leAt b 1 1, slots := leAt b 2 2, localSlots := leAt b 4 2, layers := leAt b 6 2, groups := leAt b 8 1,
    n := leAt b 0xA 2, sink := leAt b 0x18 4,
    frames := (recsAt b 64 48 nf).map (fun r =>
      { layer := leAt r 0 2, first := leAt r 4 2, count := leAt r 6 2, pages := leAt r 8 4, base := leAt r 16 8, slotStride := leAt r 24 8,
        groupStride := leAt r 32 8 }),
    rings := (recsAt b (64 + 48 * nf) 48 nr).map (fun r =>
      { layer := leAt r 0 2, die := leAt r 2 1, core := leAt r 3 1 % 16, ctx := leAt r 3 1 / 16, first := leAt r 4 2, count := leAt r 6 2,
        group := leAt r 8 1, ring := leAt r 12 4, sink := leAt r 16 4, stage := leAt r 20 4, stageUnits := leAt r 24 4 }),
    parity := (recsAt b (64 + 48 * (nf + nr)) 64 (leAt b 0x14 4)).map (fun r =>
      { pgroup := leAt r 0 4, first := leAt r 4 2, count := leAt r 6 2, group := leAt r 8 1, mode := leAt r 9 1, holder := leAt r 10 2,
        layers := (upFrom 0 7).map (fun i => leAt r (12 + 2 * i) 2), tray := leAt r 26 2, pb := leAt r 32 8, pbStride := leAt r 40 8,
        sealedBase := leAt r 48 8, sealedStride := leAt r 56 8 }) }

/-- Whether a KV_LAYOUT section holds its records with RSVD fields zero. -/
def kvShape (b : List Byte) : Bool :=
  let nf := leAt b 0xC 4
  let nr := leAt b 0x10 4
  let np := leAt b 0x14 4
  decide (b.length ≥ 64) && decide (64 + 48 * (nf + nr) + 64 * np ≤ b.length) && zeroAt b 9 1 && zeroAt b 0x1C 36
    && (recsAt b 64 48 nf).all (fun r => zeroAt r 2 2 && zeroAt r 12 4 && zeroAt r 40 8)
    && (recsAt b (64 + 48 * nf) 48 nr).all (fun r => zeroAt r 9 3 && zeroAt r 28 20)
    && (recsAt b (64 + 48 * (nf + nr)) 64 np).all (fun r => zeroAt r 28 4)

/-! ## Envelopes (R249) -/

/-- The EXPERT_ENVELOPE that a section spells. -/
def readEnv (b : List Byte) : Envelope :=
  let nl := leAt b 0 2
  { pool := leAt b 4 4, thresh := leAt b 8 4, alpha := leAt b 0xC 1, warmup := leAt b 0xD 1, stop := leAt b 0xE 1,
    layers := (recsAt b 64 32 nl).map (fun r =>
      { layer := leAt r 0 2, experts := leAt r 2 1, topk := leAt r 3 1, cand := leAt r 4 1, lanes := leAt r 5 1, lanesA := leAt r 6 1,
        cap := leAt r 7 1, gate := leAt r 8 1, shared := leAt r 9 1, halfA := leAt r 10 2, t16 := leAt r 12 4, bankOff := leAt r 16 8,
        die := leAt r 24 1, core := leAt r 25 1 }),
    targets := (recsAt b (64 + 32 * nl) 32 (leAt b 2 2)).map (fun r =>
      { layer := leAt r 0 2, matrix := leAt r 2 1, rank := leAt r 3 1, fmt := leAt r 4 1, train := leAt r 5 1, tiles := leAt r 8 4,
        poolOff := leAt r 16 8 }) }

/-- Whether an EXPERT_ENVELOPE section holds its records with RSVD fields zero. -/
def envShape (b : List Byte) : Bool :=
  let nl := leAt b 0 2
  let nt := leAt b 2 2
  decide (b.length ≥ 64) && decide (64 + 32 * (nl + nt) ≤ b.length) && zeroAt b 0xF 49
    && (recsAt b 64 32 nl).all (fun r => zeroAt r 26 6)
    && (recsAt b (64 + 32 * nl) 32 nt).all (fun r => zeroAt r 6 2 && zeroAt r 12 4 && zeroAt r 24 8)

/-! ## Canopy table and fallback index (R268, R459) -/

/-- The models of a CANOPY_TABLE section with the job tags of their placements. -/
def readCanopy (b : List Byte) : List (Nat × List Nat) :=
  (recsAt b 16 8 (leAt b 0 1)).map (fun r => (leAt r 0 1, (upFrom 0 (leAt r 1 1)).map (fun i => leAt r (2 + i) 1)))

/-- The entries of a FALLBACK_INDEX section. -/
def readFallback (b : List Byte) : List Fallback :=
  (recsAt b 64 16 (leAt b 0 4)).map (fun r =>
    { cls := leAt r 0 1, rebuild := leAt r 1 1, node := leAt r 2 2, detail := leAt r 4 1, edge := leAt r 5 1, resume := leAt r 6 1,
      frames := leAt r 8 4 })

/-! ## The plan information of a unit -/

/-- All sections of a type of a unit for a module, with their bytes. -/
def sectionsOf (f : List Byte) (u node type : Nat) : List (PlanEnt × List Byte) :=
  ((directory f).filter (fun e => entFor u node e && decide (e.type = type))).map (fun e => (e, section_ f e))

/-- The fields of a container that a module's firmware holds for one of its units (R139 to R143). -/
def planInfo (s : State) (f : List Byte) (u : Nat) : PlanInfo :=
  let n := ownNode s
  { id := leAt f 0x20 8 + u, unit := u, profile := leAt f 0x28 1, freqMode := leAt f 0x29 1, base := leAt f 0x2C 4, origin := leAt f 0x30 2,
    x := leAt f 0x32 1, y := leAt f 0x33 1, z := leAt f 0x34 2, floor := BitVec.ofNat 128 (leAt f 0x10 16),
    jobs :=
      match sectionsOf f u n 0x10 with
      | [] => []
      | p :: _ => (readProg p.2).jobs,
    stages :=
      ((planNodes s f).map (fun m => ((sectionsOf f u m 0x30).map (fun p => readStages p.2 m p.1.die)).flatten)).flatten,
    contexts := ((sectionsOf f u n 0x31).map (fun p => readContexts p.2 p.1.die)).flatten,
    extents := ((sectionsOf f u n 0x40).map (fun p => readExtents p.2)).flatten,
    kv := (sectionsOf f u n 0x41).map (fun p => readKv p.2),
    env :=
      match sectionsOf f u n 0x42 with
      | [] => none
      | p :: _ => some (readEnv p.2),
    canopy := ((sectionsOf f u n 0x45).map (fun p => readCanopy p.2)).flatten,
    fallback := ((sectionsOf f u n 0x60).map (fun p => readFallback p.2)).flatten }

/-- The watch-unit image that a unit gives a die of this module (R141); none where it gives no image. -/
def nwImage (s : State) (f : List Byte) (u die : Nat) : List Word :=
  match (sectionsOf f u (ownNode s) 0x11).find? (fun p => decide (p.1.die = die)) with
  | none => []
  | some p => (upFrom 0 144).map (fun i => BitVec.ofNat 32 (leAt p.2 (4 * i) 4))

end Sys2Proof.Machine
end

