-- ==== Sys2Proof/Machine/PlanCheck.lean ====
section
/-!
DEFINITION. Sys2Proof/Machine/PlanCheck.lean: the checks that a plan load makes (R147) and the refusal rules of each section: frame programs
(R165, R289, R396, R445), issue times (R61), planned frequencies (R127, R128), stages (R125), mesh schedules (R144), link slots
(R329), region tables (R357), placements (R373, R374), cache layouts (R221), envelopes (R250), the canopy table (R268), the
fallback index (R460) and the repair state (R450). A check answers the code of the first condition that fails, or 0.
-/
namespace Sys2Proof.Machine

/-! ## Frame programs (R165) -/

/-- The SLOT entries of a segment. -/
def slotsOf (b : FBank) (g : Seg) : List (BitVec 128) := (segEntries b g).filter (fun e => decide (entOp e = 1))

/-- TYPES and LENGTH of a SLOT entry (R157). -/
def slotTypesOf (e : BitVec 128) : Nat := fld e 32 6
/-- LENGTH of a SLOT entry in ticks. -/
def slotLenOf (e : BitVec 128) : Nat := fld e 40 24

/-- Whether slots tile from one tick to another in ascending order (R153). -/
def slotsTile (l : List (BitVec 128)) (p z : Nat) : Bool :=
  match l with
  | [] => decide (p = z)
  | e :: r => decide (entAt e = p) && decide (slotLenOf e > 0) && slotsTile r (p + slotLenOf e) z

/-- The slot of a segment in which a tick lies. -/
def slotAt (b : FBank) (g : Seg) (at_ : Nat) : Option (BitVec 128) :=
  (slotsOf b g).find? (fun e => decide (entAt e ≤ at_) && decide (at_ < entAt e + slotLenOf e))

/-- The slot type bit that an entry needs (R153). -/
def typeBit (e : BitVec 128) : Nat :=
  match entOp e with
  | 2 => if fld e 60 2 = 2 then 1 else 0
  | 3 => 2
  | 4 => 2
  | 5 => 3
  | 6 => 4
  | _ => 5

/-- The bits of an entry that its OP uses (R157, R158). -/
def entryBits (op : Nat) : BitVec 128 :=
  match op with
  | 1 => fmask 128 0 32 ||| fmask 128 32 6 ||| fmask 128 40 24
  | 2 => fmask 128 0 63 ||| fmask 128 64 46
  | 3 => fmask 128 0 64
  | 4 => fmask 128 0 64
  | 5 => fmask 128 0 48
  | 6 => fmask 128 0 64
  | 7 => fmask 128 0 48
  | _ => fmask 128 0 32

/-- The bits of UNIT_MASK that a die type defines (R396). -/
def unitMaskBits (die : Nat) : Nat :=
  match dieType die with
  | .compute => 0xFFFF
  | .memory => 3
  | _ => 0

/-- The number of set bits of a field of 16 bits. -/
def popcount16 (v : Nat) : Nat := ((upFrom 0 16).filter (fun i => decide (v / 2 ^ i % 2 = 1))).length

/-- The variants that a PUSH can select (R161). -/
def pushVariants (e : BitVec 128) : List Nat :=
  let r := b2n (tbit e 86)
  let w := 2 * b2n (tbit e 87)
  [0, r, w, r + w]

/-- Whether a PUSH stays inside the descriptors and the stage groups (R165). -/
def pushOk (b : FBank) (e : BitVec 128) : Bool :=
  (pushVariants e).all (fun v => decide (fld e 32 16 + v * fld e 88 14 + fld e 48 8 + 1 ≤ b.descs.length))
    && decide (fld e 78 8 < b.groups.length)

/-- Whether an entry stands in the last slot of its segment or in a segment that ends the frame (R155). -/
def jumpDeferred (b : FBank) (g : Seg) (e : BitVec 128) : Bool := decide (g.start + g.len = b.base) || inLastSlot b g (entAt e)

/-- Whether a JUMP meets R155 and R157. -/
def jumpOk (b : FBank) (g : Seg) (e : BitVec 128) : Bool :=
  let t := fld e 40 8
  decide (fld e 32 2 ≤ 2) && decide (t < b.segs.length)
    && decide ((segOf b t).start = (if jumpDeferred b g e then 0 else g.start + g.len))

/-- Whether a slot-typed entry meets the rules on its place and its fields (R153, R157, R165, R289, R396, R445). -/
def entryOk (b : FBank) (die : Nat) (g : Seg) (e : BitVec 128) : Bool :=
  let op := entOp e
  decide (1 ≤ op) && decide (op ≤ 9) && decide (e &&& ~~~(entryBits op) = 0#128) && decide (g.start ≤ entAt e)
    && decide (entAt e < g.start + g.len)
    && (decide (op = 1)
        || match slotAt b g (entAt e) with
           | none => false
           | some sl =>
             decide (slotTypesOf sl / 2 ^ typeBit e % 2 = 1)
               && (match op with
                   | 2 => pushOk b e
                   | 3 => decide (fld e 32 32 &&& unitMaskBits die = fld e 32 32)
                   | 4 => decide (fld e 32 32 &&& unitMaskBits die = fld e 32 32)
                   | 5 => decide (dieType die = .memory) && decide (popcount16 (fld e 32 16) ≤ 4)
                            && decide (entAt sl + slotLenOf sl ≥ entAt e + 24)
                   | 6 => !([4, 5, 6].contains (fld e 44 4)) || decide (fld e 32 16 = 0xFFFF)
                   | 7 => jumpOk b g e
                   | 9 => decide (die = 0)
                   | _ => true))

/-- Whether a segment tiles its part of a chain (R153, R155, R165). -/
def segOk (b : FBank) (die : Nat) (g : Seg) : Bool :=
  let z := g.start + g.len
  decide (g.len > 0) && decide (z ≤ b.base) && decide (g.firstEntry + g.count ≤ b.entries.length) && decide (g.nxt < b.segs.length)
    && decide ((segOf b g.nxt).start = (if z = b.base then 0 else z)) && slotsTile (slotsOf b g) g.start z
    && (segEntries b g).all (entryOk b die g)

/-- The paths through the segments from one on: the entries of each (R165). -/
def pathsFrom (b : FBank) (fuel i : Nat) : List (List (BitVec 128)) :=
  match fuel with
  | 0 => []
  | k + 1 =>
    let g := segOf b i
    let es := segEntries b g
    if g.start + g.len ≥ b.base then [es]
    else
      let js := (es.filter (fun e => decide (entOp e = 7) && !jumpDeferred b g e)).map (fun e => fld e 40 8)
      ((g.nxt :: js).map (fun j => (pathsFrom b k j).map (fun p => es ++ p))).flatten

/-- REPORT and EXCHANGE entries of a path, in order. -/
def reportsOf (p : List (BitVec 128)) : List Nat := (p.map entOp).filter (fun o => decide (o = 8) || decide (o = 9))

/-- The starts of the refreshes of a bank set along a path (R286). -/
def refreshes (p : List (BitVec 128)) (k : Nat) : List Nat :=
  (p.filter (fun e => decide (entOp e = 5) && decide (fld e 32 16 / 2 ^ k % 2 = 1))).map entAt

/-- Whether refresh starts follow each other by 24 to 610 ticks (R286). -/
def spaced (l : List Nat) : Bool :=
  match l with
  | [] => true
  | a :: r =>
    (match r with
     | [] => true
     | c :: _ => decide (a + 24 ≤ c) && decide (c ≤ a + 610)) && spaced r

/-- Whether a path of a memory die meets R286. -/
def refreshOk (base : Nat) (p : List (BitVec 128)) : Bool :=
  (upFrom 0 16).all (fun k =>
    match refreshes p k with
    | [] => false
    | a :: r =>
      let z := r.getLastD a
      spaced (a :: r) && decide (a ≤ 418) && decide (base - z + a ≤ 514) && decide (z + 24 ≤ base))

/-- The rows that a slot-masked descriptor of a queue covers (R134, log entry 30). -/
def maskedRows (q : Nat) (d : BitVec 512) : Nat :=
  if q = 0 then (if dOpcode d ≤ 1 then mxeM d else 0) else if q = 1 then vxeR d else 0

/-- The job slots that the slot-masked pushes of a stage group cover (R166, log entry 30). -/
def groupSlots (b : FBank) (g : Nat) : List Nat :=
  let lim :=
    match jobOf b (groupOf b g).tag with
    | some j => j.slots
    | none => 0
  let ps := b.entries.filter (fun e => decide (entOp e = 2) && tbit e 62 && decide (fld e 78 8 = g))
  (upFrom 0 lim).filter (fun n =>
    ps.any (fun e =>
      let ds := (b.descs.drop (fld e 32 16)).take (fld e 48 8 + 1)
      decide (fld e 66 12 ≤ n) && ds.any (fun d => decide (n < fld e 66 12 + maskedRows (fld e 60 2) d))))

/-- The slots that a profile allows a stage group (R166). -/
def profileSlots (p : Nat) : Nat :=
  match p with
  | 0 => 16
  | 1 => 128
  | 2 => 512
  | _ => 0

/-- Whether a die's program meets R165, R289, R396 and R445, beside the other dies' job tables. -/
def progOk (b : FBank) (die base prof entries descs : Nat) : Bool :=
  decide (b.base = base) && decide (1 ≤ b.segs.length) && decide (b.segs.length ≤ 256) && decide (b.jobs.length ≤ 16)
    && decide (b.groups.length ≤ 256) && decide (entries ≤ 32768) && decide (descs ≤ 16384) && decide (b.agreeLag ≥ 2)
    && decide (b.decay ≥ 1) && decide (b.ovrHold ≥ 1) && decide (b.firstSeg < b.segs.length) && decide ((segOf b b.firstSeg).start = 0)
    && b.jobs.all (fun j => decide (j.depth ≥ 1) && decide (j.chunk ≥ 1) && decide (1 ≤ j.slots) && decide (j.slots ≤ 4096))
    && b.groups.all (fun g =>
        match jobOf b g.tag with
        | none => false
        | some j => decide (g.lag < j.depth))
    && b.segs.all (segOk b die)
    && (upFrom 0 b.groups.length).all (fun g => decide ((groupSlots b g).length ≤ profileSlots prof))
    && (upFrom 0 b.segs.length).all (fun i =>
        decide ((segOf b i).start ≠ 0)
          || (pathsFrom b 256 i).all (fun p =>
              decide (reportsOf p = (if die = 0 then [8, 9] else [8])) && (decide (dieType die ≠ .memory) || refreshOk b.base p)))

/-! ## Issue times and frequencies (R61, R125, R127, R128) -/

/-- The frequency planned for a logical core of a die of this module, or the one that cores without a stage are timed at. -/
def plannedMhz (s : State) (pl : PlanInfo) (die logical : Nat) : Nat :=
  match pl.stages.find? (fun g => decide (g.node = ownNode s) && decide (g.die = die) && decide (g.logical = logical)) with
  | some g => if pl.profile = 3 then 1800 else g.mhz
  | none => restMhz pl

/-- Whether every ISSUE_AT that a program pushes lies below the base frame in the core's planned cycles (R61, R147). -/
def issueOk (s : State) (pl : PlanInfo) (die : Nat) (b : FBank) : Bool :=
  b.entries.all (fun e =>
    decide (entOp e ≠ 2)
      || (pushVariants e).all (fun v =>
          ((b.descs.drop (fld e 32 16 + v * fld e 88 14)).take (fld e 48 8 + 1)).all (fun d =>
            decide (dIssueAt d < b.base * 64 * plannedMhz s pl die (fld e 56 4) / 10000))))

/-- Whether a CORE_PLAN section holds at most one stage per logical core and job, and one frequency per logical core (R125, R142). -/
def stagesOk (l : List Stage) : Bool :=
  match l with
  | [] => true
  | g :: r =>
    r.all (fun h => decide (h.logical ≠ g.logical) || (decide (h.job ≠ g.job) && decide (h.mhz = g.mhz))) && stagesOk r

/-- The greatest speed-map frequency of a die's spare cores, or none where it has no usable spare (R128, R450). -/
def spareMhz (s : State) (die : Nat) : Option Nat :=
  match (dieCores die).filter (fun c => decide (logicalOf s c ≥ 16) && !smUnusable s c) with
  | [] => none
  | c :: r => some (foldState (fun m x => max m (smMhz s x)) (smMhz s c) r)

/-- Whether a frequency is within the speed map for a physical core (R128). -/
def mapOk (s : State) (c mhz : Nat) : Bool :=
  decide (mhz ≤ smMhz s c)
    && match spareMhz s (coreDie c) with
       | none => true
       | some m => decide (mhz ≤ m)

/-- Whether a stage's planned frequency is legal for the profile and within the speed map (R127, R128). The Service profile states none. -/
def freqOk (s : State) (pl : PlanInfo) (g : Stage) : Bool :=
  if pl.profile = 3 then decide (g.mhz = 0)
  else
    decide (g.mhz % 25 = 0) && decide (1000 ≤ g.mhz) && decide (g.mhz ≤ 2300) && (decide (pl.profile ≠ 2) || decide (g.mhz = 1550))
      && (decide (pl.freqMode = 1) || pl.stages.all (fun h => decide (h.mhz = g.mhz)))
      && match physOf s g.die g.logical with
         | none => true
         | some c => mapOk s c g.mhz

/-! ## Mesh schedules and link slots (R144, R329) -/

/-- The planned cycles that a run covers, as indexes (R28, R144). -/
def runSpan (r : SchedRun) : Nat × Nat := (plannedIndex r.first, plannedIndex r.first + r.count)

/-- Whether runs are sorted by output and first cycle, and those of one output do not overlap (R144). -/
def runsSorted (l : List SchedRun) : Bool :=
  match l with
  | [] => true
  | a :: r =>
    (match r with
     | [] => true
     | b :: _ => decide (a.out < b.out) || (decide (a.out = b.out) && decide (a.first < b.first) && decide ((runSpan a).2 ≤ (runSpan b).1)))
      && runsSorted r

/-- Whether a die has an edge. -/
def hasEdge (die e : Nat) : Bool := tbit (edgePresent die) (4 + e)

/-- Whether a schedule section is well formed (R144). -/
def schedOk (die base : Nat) (b : SchedBank) : Bool :=
  decide (b.cycles = plannedIndex (base * 64 / 5)) && runsSorted b.runs
    && b.runs.all (fun r =>
        !dynSlot r.first && decide (r.out ≤ 4) && decide (r.inp ≤ 4) && decide (r.inp ≠ r.out) && (decide (r.out = 4) || hasEdge die r.out)
          && (decide (r.inp = 4) || hasEdge die r.inp) && decide ((runSpan r).2 ≤ b.cycles))

/-- The greatest position of a run of planned positions, which skips dynamic ones (R328, R310). -/
def lastPos (r : LinkRun) : Nat :=
  let k := plannedIndex r.first + r.count - 1
  let m := k / 97 * 100
  let i := k % 97
  m + (if i < 32 then i + 1 else if i < 64 then i + 2 else i + 3)

/-- Whether a run list is sorted, without overlap and within the positions (R328). -/
def linkRunsOk (positions : Nat) (l : List LinkRun) : Bool :=
  match l with
  | [] => true
  | a :: r =>
    !dynSlot a.first && decide (lastPos a < positions)
      && (match r with
          | [] => true
          | b :: _ => decide (lastPos a < b.first))
      && linkRunsOk positions r

/-- The TX runs that a module's LINK_SLOTS section gives the port that faces a direction: those of the tables whose direction is the
partner's one (R37, R328). -/
def txToward (f : List Byte) (u node dir rank : Nat) : List LinkRun :=
  match sectionsOf f u node 0x21 with
  | [] => []
  | p :: _ =>
    match ((linkTables p.2).filter (fun t => decide (t.dir = dir))).drop rank with
    | [] => []
    | t :: _ => t.tx

/-- The direction of a port as its partner sees it (R37). -/
def oppositeDir (d : Nat) : Nat :=
  match d with
  | 4 => 5
  | 5 => 4
  | 6 => 7
  | 7 => 6
  | 20 => 21
  | 21 => 20
  | 22 => 23
  | 23 => 22
  | k => k

/-- Whether a LINK_SLOTS section meets R328 and R329 on this module. -/
def linkOk (s : State) (f : List Byte) (u base : Nat) (b : List Byte) : Bool :=
  let pos := leAt b 4 4
  let ts := linkTables b
  decide (b.length ≥ 64) && decide (leAt b 0 2 ≤ 42) && decide (pos = 13 * base / 5) && zeroAt b 2 2 && zeroAt b 0xD 51
    && (upFrom 8 5).all (fun o => decide (1 ≤ leAt b o 1) && decide (leAt b o 1 ≤ 31))
    && (upFrom 0 ts.length).all (fun i =>
        match ts.drop i with
        | [] => true
        | t :: more =>
          let d := delayOf b t.dir
          t.rsvdOk && decide (t.port < 42) && decide (t.dir = portDir s t.port) && !(more.any (fun x => decide (x.port = t.port)))
            && linkRunsOk pos t.tx && linkRunsOk pos t.rx && decide (d ≥ fld (lnk s t.port 0x04C) 16 5)
            && t.tx.all (fun r => decide (lastPos r / 13 + d < pos / 13))
            && ((t.tx.isEmpty && t.rx.isEmpty) || (decide (portState s t.port = 5) && decide (fld (lnk s t.port 0x044) 13 2 = 0)))
            && (decide (t.dir % 16 ≥ 8)
                || decide (t.rx = txToward f u (partnerOf s t.dir).2 (oppositeDir t.dir)
                    ((ts.take i).filter (fun x => decide (x.dir = t.dir))).length)))

/-! ## Region tables (R357) -/

/-- Whether a REGION_TABLES section meets R357. -/
def protOk (s : State) (b : List Byte) : Bool :=
  let n := leAt b 0 2
  decide (b.length ≥ 128) && decide (n ≤ 256) && decide (128 + 32 * n ≤ b.length) && zeroAt b 2 6
    && (recsAt b 128 32 n).all (fun r =>
        decide (leAt r 1 1 ≤ 2) && decide (leAt r 4 1 < 16) && decide (leAt r 5 1 < 16) && decide (leAt r 5 1 / 2 % 2 = 0)
          && decide (leAt r 8 8 < 2 ^ 48) && decide (leAt r 16 8 ≤ 2 ^ 48) && decide (leAt r 8 8 % 4096 = 0)
          && decide (leAt r 16 8 % 4096 = 0) && decide (leAt r 8 8 < leAt r 16 8) && zeroAt r 6 2 && zeroAt r 24 8)
    && (upFrom 1 15).all (fun d =>
        (upFrom 0 8).all (fun i =>
          let p := leAt b (8 * d + i) 1
          decide (p = 0xFF) || (decide (p < 42) && decide (portDir s p % 16 = d))))

/-! ## Placements (R373, R374) -/

/-- The bytes from and to which an extent lies. -/
def extentSpan (x : Extent) : Nat × Nat := (x.offset, x.offset + x.tiles * 4096)

/-- Whether two ranges share a byte. -/
def spansMeet (a b : Nat × Nat) : Bool := decide (a.1 < b.2) && decide (b.1 < a.2)

/-- Whether no two ranges of a list share a byte. -/
def spansApart (l : List (Nat × Nat)) : Bool :=
  match l with
  | [] => true
  | a :: r => r.all (fun b => !spansMeet a b) && spansApart r

/-- Whether a range of bytes lies in one Tier 1 stack (R276). -/
def inStack (a : Nat × Nat) : Bool :=
  decide (a.1 < a.2) && decide (a.2 ≤ 0x00C000000000) && decide (a.1 / 0x000C00000000 = (a.2 - 1) / 0x000C00000000)

/-- Whether an extent lies in a Tier 1 stack or in one Tier 0 slot's 24 MiB (R373). -/
def extentPlaceOk (x : Extent) : Bool :=
  let a := extentSpan x
  decide (x.offset % 4096 = 0)
    && (inStack a
        || (decide (0x010000000000 ≤ a.1) && decide (a.2 ≤ 0x010800000000) && decide (x.tiles ≥ 1)
            && decide (a.1 % 0x02000000 + x.tiles * 4096 ≤ 0x01800000)))

/-- The extents of every module of the slice, each with its node (R374). -/
def sliceExtents (s : State) (f : List Byte) (u : Nat) : List (Nat × Extent) :=
  ((planNodes s f).map (fun n => ((sectionsOf f u n 0x40).map (fun p => (readExtents p.2).map (fun x => (n, x)))).flatten)).flatten

/-- Whether a parity group meets R374 on a slice of a number of trays. -/
def pgroupOk (trays : Nat) (l : List (Nat × Extent)) : Bool :=
  decide (trays ≥ 8) && l.all (fun a => decide (a.2.member ≤ 7) && decide (a.2.kind ≤ 3))
    && decide ((l.map (fun a => a.2.member)).Nodup) && decide ((l.map (fun a => a.1 / 8)).Nodup)

/-- Whether a WEIGHT_PLACEMENT section holds its records, RSVD bytes zero (R147, R373). -/
def placementShape (b : List Byte) : Bool :=
  decide (b.length ≥ 64) && decide (leAt b 0 4 ≤ 4096) && decide (64 + 32 * leAt b 0 4 ≤ b.length) && zeroAt b 4 60
    && (recsAt b 64 32 (leAt b 0 4)).all (fun r => zeroAt r 3 1 && zeroAt r 20 12)

/-- Whether the extents of a module meet R373 and R374. -/
def placementOk (s : State) (f : List Byte) (u : Nat) (b : List Byte) : Bool :=
  let xs := readExtents b
  let all := sliceExtents s f u
  xs.all (fun x =>
        decide (x.kind ≤ 4) && decide (x.tiles ≥ 1) && extentPlaceOk x
          && decide ((x.member ≤ 7 ∧ x.pgroup ≠ 0xFFFFFFFF) ∨ (x.member = 0xFF ∧ x.pgroup = 0xFFFFFFFF))
          && spansApart ((xs.filter (fun y => decide (y.job = x.job))).map extentSpan)
          && (decide (x.pgroup = 0xFFFFFFFF)
              || pgroupOk (leAt f 0x33 1 * leAt f 0x34 2) (all.filter (fun a => decide (a.2.pgroup = x.pgroup)))))

/-! ## Cache layouts (R221) -/

/-- The bytes of a sealed page (R195, R219). -/
def pageBytes (format : Nat) : Nat := if format ≤ 1 then 98304 else 65536

/-- Whether a record's slots are in range and of one class (R191, R219). -/
def slotsOk (k : KvLayout) (first count : Nat) : Bool :=
  decide (count ≥ 1) && decide (first + count ≤ k.slots) && (decide (first + count ≤ k.localSlots) || decide (k.localSlots ≤ first))

/-- The page frames of a frame record as byte ranges (R220). -/
def framePages (k : KvLayout) (r : KvFrame) : List (Nat × Nat) :=
  ((upFrom 0 r.count).map (fun i =>
    ((upFrom 0 k.groups).map (fun g =>
      (upFrom 0 r.pages).map (fun j =>
        let a := r.base + i * r.slotStride + g * r.groupStride + j * pageBytes k.format
        (a, a + pageBytes k.format)))).flatten)).flatten

/-- The layouts of a unit for every module of the slice. -/
def allLayouts (f : List Byte) (u : Nat) : List KvLayout :=
  ((directory f).filter (fun e => decide (e.type = 0x41) && decide (e.unit = u))).map (fun e => readKv (section_ f e))

/-- Whether a module is a home of a parity record's sealed pages (R220): of the spread class every one, of the local class the slots 0 to 3 of
SEALED_TRAY. -/
def parityHome (s : State) (r : KvParity) : Bool :=
  decide (r.mode = 1) || (decide (r.tray = ownNode s - nodeX (ownNode s)) && decide (nodeX (ownNode s) < 4))

/-- The sealed parity pages that a parity record places on this module where it is a home of them, at most as many for a slot as the greatest
PAGES that any module's layout gives a member layer of those slots (R220, log entry 32). -/
def sealedPages (s : State) (ks : List KvLayout) (k : KvLayout) (r : KvParity) : List (Nat × Nat) :=
  let frames := ((ks.filter (fun x => decide (x.job = k.job))).map (fun x => x.frames)).flatten
  let n := foldState (fun m (x : KvFrame) =>
    if r.layers.contains x.layer ∧ x.first < r.first + r.count ∧ r.first < x.first + x.count then max m x.pages else m) 0 frames
  if !parityHome s r then [] else
  ((upFrom 0 r.count).map (fun i =>
    (upFrom 0 n).map (fun j => (r.sealedBase + i * r.sealedStride + j * 98304, r.sealedBase + i * r.sealedStride + (j + 1) * 98304)))).flatten

/-- The parity windows of a record on its open parity holder: the lines of positions 0 to 511 of the open window and the sink line, for each slot
(R208, R211, log entry 32). -/
def parityWindows (s : State) (k : KvLayout) (r : KvParity) : List (Nat × Nat) :=
  if r.holder ≠ ownNode s then [] else (upFrom 0 r.count).map (fun i => (r.pb + i * r.pbStride, r.pb + i * r.pbStride + (max 511 k.sink + 1) * 384))

/-- Whether two records of one kind cover the same slot, layer and group. -/
def coverApart (l : List (Nat × Nat × Nat × Nat)) : Bool :=
  match l with
  | [] => true
  | a :: r =>
    r.all (fun b =>
      decide (a.1 ≠ b.1) || decide (a.2.1 ≠ b.2.1) || decide (a.2.2.1 + a.2.2.2 ≤ b.2.2.1) || decide (b.2.2.1 + b.2.2.2 ≤ a.2.2.1))
      && coverApart r

/-- The trays that own a layer of a job (R123). -/
def ownerTrays (pl : PlanInfo) (job layer : Nat) : List Nat :=
  (pl.stages.filter (fun g => decide (g.job = job) && decide (g.layer = layer))).map (fun g => g.node / 8)

/-- Whether no element of a list of lists occurs in two of them. -/
def listsApart (l : List (List Nat)) : Bool :=
  match l with
  | [] => true
  | a :: r => r.all (fun b => !a.any (fun x => b.contains x)) && listsApart r

/-- Whether a parity record meets R208. -/
def parityOk (pl : PlanInfo) (k : KvLayout) (r : KvParity) : Bool :=
  let ls := r.layers.filter (fun l => decide (l ≠ 0xFFFF))
  let trays := ls.map (ownerTrays pl k.job)
  let first := ls.headD 0
  decide (r.mode ≤ 1) && decide (r.group < k.groups) && ls.all (fun l => decide (l < k.layers)) && decide (ls.length ≥ 1)
    && slotsOk k r.first r.count && decide (r.mode = (if r.first < k.localSlots then 0 else 1))
    && !(trays.any (fun t => t.contains (r.holder / 8)))
    && (if r.mode = 0 then listsApart ([r.tray / 8] :: trays) && decide (r.tray % 8 = 0)
        else decide (((((ls.map (fun l => l % k.n)) ++ [(first + 7) % k.n])).Nodup)) && decide (r.tray = 0))
    && decide (r.pb ≥ 0x007800000000)

/-- Whether a ring record lies in its context (R194, R220). -/
def ringOk (pl : PlanInfo) (k : KvLayout) (r : KvRing) : Bool :=
  slotsOk k r.first r.count && decide (r.layer < k.layers) && decide (r.group < k.groups) && decide (dieType r.die = .compute)
    && decide (r.ring < 2 ^ 17) && decide (r.sink < 2 ^ 17) && decide (r.stage < 2 ^ 17) && decide (r.stageUnits < 2 ^ 17)
    && (pl.contexts.filter (fun c => decide (c.die = r.die) && decide (c.logical = r.core) && decide (c.ctx = r.ctx))).any (fun c =>
        decide (c.base + r.ring + r.count * 0x400 ≤ c.bound) && decide (c.base + r.sink + 2 ≤ c.bound)
          && decide (c.base + r.stage + r.stageUnits ≤ c.bound))

/-- The rings of a writer core in the layouts of all jobs (R194). -/
def ringsAt (l : List KvLayout) (die core : Nat) : Nat :=
  foldState (fun n (r : KvRing) => if r.die = die ∧ r.core = core then n + r.count else n) 0 ((l.map (fun k => k.rings)).flatten)

/-- Whether a KV_LAYOUT section meets R219 to R221, beside the unit's layouts for every module. -/
def kvOk (s : State) (pl : PlanInfo) (ks : List KvLayout) (k : KvLayout) : Bool :=
  decide (k.frames.length ≤ 65536) && decide (k.rings.length ≤ 65536) && decide (k.parity.length ≤ 65536) && decide (k.format ≤ 3) && decide (1 ≤ k.layers) && decide (k.layers ≤ 1024) && decide (1 ≤ k.groups) && decide (k.groups ≤ 64)
    && (match pl.jobs.find? (fun j => decide (j.tag = k.job)) with
        | none => false
        | some j => decide (j.slots = k.slots))
    && decide (k.localSlots ≤ k.slots) && (if k.localSlots = k.slots then decide (k.n = 0) else decide (k.n ≥ 8))
    && k.frames.all (fun r =>
        slotsOk k r.first r.count && decide (r.layer < k.layers) && decide (r.base % 4096 = 0) && (framePages k r).all inStack)
    && k.rings.all (ringOk pl k) && k.rings.all (fun r => decide (ringsAt pl.kv r.die r.core ≤ 48))
    && k.parity.all (fun r => parityOk pl k r && (sealedPages s ks k r).all inStack && (parityWindows s k r).all inStack)
    && coverApart ((k.frames.map (fun r => (r.layer, 0, r.first, r.count))))
    && coverApart ((k.rings.map (fun r => (r.layer, r.group, r.first, r.count))))
    && coverApart (((k.parity.map (fun r => r.layers.map (fun l => (l, r.group, r.first, r.count)))).flatten).filter (fun x =>
        decide (x.1 ≠ 0xFFFF)))
    && spansApart (((k.frames.map (framePages k)).flatten) ++ ((k.parity.map (sealedPages s ks k)).flatten)
        ++ ((k.parity.map (parityWindows s k)).flatten)
        ++ ((pl.extents.filter (fun x => decide (x.job = k.job))).map extentSpan))

/-! ## Envelopes (R250) -/

/-- The bytes within each stack that an expert bank takes (R250). -/
def bankSpan (l : EnvLayer) : Nat × Nat := (l.bankOff, l.bankOff + (l.experts + l.shared) * l.t16 * 4096)

/-- The bytes within each stack that a target's pool takes (R250). -/
def poolSpan (e : Envelope) (t : EnvTarget) : Nat × Nat := (t.poolOff, t.poolOff + e.pool * ceilDiv t.tiles 16 * 4096)

/-- Whether a layer is owned by the tray of this module (R123). -/
def trayOwns (s : State) (pl : PlanInfo) (layer : Nat) : Bool :=
  pl.stages.any (fun g => decide (g.layer = layer) && decide (g.node / 8 = ownNode s / 8))

/-- Whether an EXPERT_ENVELOPE section meets R227, R240, R249 and R250. -/
def envOk (s : State) (pl : PlanInfo) (e : Envelope) : Bool :=
  let spans := e.layers.map bankSpan ++ e.targets.map (poolSpan e)
  decide (e.layers.length ≤ 1024) && decide (e.targets.length ≤ 64) && decide (1 ≤ e.pool) && decide (e.pool ≤ 65537) && decide (1 ≤ e.alpha) && decide (e.alpha ≤ 7) && decide (1 ≤ e.stop)
    && e.layers.all (fun l =>
        decide (l.layer < 1024) && decide (1 ≤ l.experts) && decide (l.experts ≤ 64) && decide (1 ≤ l.topk) && decide (l.topk ≤ 4)
          && decide (l.topk ≤ l.cand) && decide (l.cand ≤ min 8 l.experts) && decide (1 ≤ l.cap) && decide (l.cap ≤ 64)
          && decide (l.topk ≤ l.lanes) && decide (l.lanes ≤ min 64 l.experts) && decide (l.gate ≤ 1) && decide (l.shared ≤ 1)
          && (decide (l.lanesA = 0) || (decide (l.topk ≤ l.lanesA) && decide (l.lanesA < l.lanes)))
          && decide ((l.lanesA = 0) ↔ (l.halfA = 0)) && decide (l.bankOff % 4096 = 0)
          && decide ((l.experts + l.shared) * l.t16 < 2 ^ 23) && decide (dieType l.die = .compute) && decide (l.core < 16)
          && trayOwns s pl l.layer)
    && e.targets.all (fun t =>
        decide (t.layer < 1024) && decide (t.matrix ≤ 6) && [8, 16, 32, 64].contains t.rank && (decide (t.fmt = 1) || decide (t.fmt = 3))
          && decide (t.train ≤ 1) && decide (t.poolOff % 4096 = 0) && decide (e.pool * ceilDiv t.tiles 16 < 2 ^ 23) && trayOwns s pl t.layer)
    && spans.all (fun a => decide (a.2 ≤ 0x000C00000000)) && spansApart spans
    && decide ((e.layers.map (fun l => l.layer)).Nodup) && decide ((e.targets.map (fun t => (t.layer, t.matrix))).Nodup)

/-! ## Canopy table and fallback index (R268, R459, R460) -/

/-- Whether a CANOPY_TABLE section meets R268. -/
def canopyOk (pl : PlanInfo) (b : List Byte) : Bool :=
  let m := readCanopy b
  let tags := (m.map (fun x => x.2)).flatten
  decide (b.length ≥ 16) && decide (leAt b 0 1 ≤ 32) && zeroAt b 1 15 && decide (16 + 8 * leAt b 0 1 ≤ b.length)
    && (recsAt b 16 8 (leAt b 0 1)).all (fun r =>
        decide (leAt r 0 1 ≤ 31) && decide (1 ≤ leAt r 1 1) && decide (leAt r 1 1 ≤ 4) && zeroAt r (2 + leAt r 1 1) (6 - leAt r 1 1))
    && decide ((m.map (fun x => x.1)).Nodup) && decide (tags.Nodup)
    && tags.all (fun t => pl.jobs.any (fun j => decide (j.tag = t)))
    && pl.jobs.all (fun j => decide (j.slots = 0) || tags.contains j.tag)

/-- Whether a FALLBACK_INDEX section meets R459 and R460 in a container of a number of units. -/
def fallbackOk (units trays : Nat) (b : List Byte) : Bool :=
  let l := readFallback b
  decide (b.length ≥ 64) && decide (leAt b 0 4 ≤ 1024) && zeroAt b 4 60 && decide (64 + 16 * leAt b 0 4 ≤ b.length)
    && (recsAt b 64 16 (leAt b 0 4)).all (fun r => zeroAt r 7 1 && zeroAt r 12 4)
    && l.all (fun e =>
        decide (1 ≤ e.cls) && decide (e.cls ≤ 3) && decide (e.frames < 2 ^ 24) && decide (1 ≤ e.resume) && decide (e.resume < units)
          && decide (e.rebuild < units)
          && (if e.cls = 1 then decide (e.detail = 0) && decide (e.edge = 0) && (decide (e.rebuild ≠ 0) || decide (trays < 8))
              else if e.cls = 2 then decide (e.rebuild = 0) && decide (e.detail < 42) && decide (e.edge = 0)
              else decide (e.rebuild = 0) && decide (e.detail < 100) && decide (1 ≤ e.edge) && decide (e.edge ≤ 2)))
    && decide ((l.map (fun e => (e.cls, e.node, e.detail, e.edge))).Nodup)

/-! ## The repair state (R450) -/

/-- Whether a logical core of a die of this module is absent (R449). -/
def absentCore (s : State) (die logical : Nat) : Bool := (physOf s die logical).isNone

/-- Whether a range of Tier 1 holds nothing that the repair state records unusable (R448, R450). -/
def placeUsable (s : State) (a : Nat × Nat) : Bool :=
  decide (a.1 ≥ 0x00C000000000)
    || (!mapGet s.badDies (mmDie (a.1 / 0x000C00000000)) false
        && s.badRows.all (fun r =>
            (rowLines (r.1 / 2 ^ 26) (r.1 % 2 ^ 26)).all (fun l => decide (l * 64 + 64 ≤ a.1) || decide (a.2 ≤ l * 64))))

end Sys2Proof.Machine
end

