-- ==== Sys2Proof/Machine/Plan.lean ====
section
/-!
DEFINITION. Sys2Proof/Machine/Plan.lean: protection banks (R358, R366) and the load of a plan unit (R143, R147, R494): its checks in order,
the placing of every section into inactive banks, the arming of all swaps, and the swap of the plan at a boundary (R152).
-/
namespace Sys2Proof.Machine

/-! ## Protection banks (R358, R366) -/

/-- Whether a die implements the protection and route registers (R366). -/
def hasProt (die : Nat) : Bool := decide (die ≠ 9) && decide (die ≠ 90)

/-- Whether a die holds region entries (R366). -/
def hasRegions (die : Nat) : Bool := decide (dieType die = .compute) || decide (dieType die = .trunk)

/-- PROT_SEL.ENTRY of a die. -/
def protSel (s : State) (die : Nat) : Nat := fld (reg s die 0 0x108) 0 9

/-- The state with a protection bank of a die replaced. -/
def putProt (s : State) (die : Nat) (b : Bool) (p : ProtBank) : State :=
  updRouter s die (fun r => if b then { r with protB := p } else { r with protA := p })

/-- A write of PROT_CTRL (R34, R358): while a swap is pending it is refused. -/
def writeProtCtrl (s : State) (die : Nat) (v : Word) : State :=
  if tbit (reg s die 0 0x104) 1 then recordError s die 0 0x10A0 (protSel s die)
  else
    let s1 := setRegFld s die 0 0x100 0 1 (fld v 0 1)
    if tbit v 1 then noteArm (setRegFld s1 die 0 0x104 1 1 1) (barOff die 0 0x100) else s1

/-- A region entry with the field of a window register replaced (R366). -/
def setEntryField (e : ProtEntry) (off : Nat) (v : Word) : ProtEntry :=
  match off with
  | 0x10C => { e with node := fld v 0 16, mode := fld v 16 2, job := fld v 18 8, valid := tbit v 31 }
  | 0x110 => { e with base := e.base / 2 ^ 32 * 2 ^ 32 + v.toNat }
  | 0x114 => { e with base := fld v 0 16 * 2 ^ 32 + e.base % 2 ^ 32 }
  | 0x118 => { e with limit := e.limit / 2 ^ 32 * 2 ^ 32 + v.toNat }
  | 0x11C => { e with limit := fld v 0 16 * 2 ^ 32 + e.limit % 2 ^ 32 }
  | _ => { e with perm := fld v 0 4, qos := fld v 4 4 }

/-- A window register of a region entry as it reads (R366). -/
def entryField (e : ProtEntry) (off : Nat) : Word :=
  BitVec.ofNat 32
    (match off with
     | 0x10C => e.node + e.mode * 2 ^ 16 + e.job * 2 ^ 18 + b2n e.valid * 2 ^ 31
     | 0x110 => e.base % 2 ^ 32
     | 0x114 => e.base / 2 ^ 32 % 2 ^ 16
     | 0x118 => e.limit % 2 ^ 32
     | 0x11C => e.limit / 2 ^ 32 % 2 ^ 16
     | _ => e.perm + e.qos * 16)

/-- A route list as PROT_SEL names it: an unlisted one has no port (R366). -/
def routeList (p : ProtBank) (dir : Nat) : Dword := mapGet p.routes dir 0xFFFFFFFFFFFFFFFF#64

/-- A write of a window register (R366): refused for the active bank, while a swap is pending, and for an unaligned BASE or LIMIT. A register
that does not match the kind of entry selected ignores writes. -/
def writeProtWindow (s : State) (die off : Nat) (v : Word) : State :=
  let n := protSel s die
  let b := tbit (reg s die 0 0x108) 16
  let p := protBank s die b
  if n < 256 ∧ off < 0x124 ∧ !hasRegions die then s
  else if (off = 0x110 ∨ off = 0x118) ∧ fld v 0 12 ≠ 0 then recordError s die 0 0x10A0 n
  else if decide (b = tbit (reg s die 0 0x104) 0) || tbit (reg s die 0 0x104) 1 then recordError s die 0 0x10A0 n
  else if off ≥ 0x124 then
    if 257 ≤ n ∧ n ≤ 271 then
      let d := n - 256
      let w := setFld (routeList p d) (if off = 0x124 then 0 else 32) 32 v.toNat
      putProt s die b { p with routes := mapPut 0xFFFFFFFFFFFFFFFF#64 p.routes d w }
    else s
  else if n < 256 ∧ hasRegions die then
    putProt s die b { p with entries := mapPut ProtEntry.empty p.entries n (setEntryField (mapGet p.entries n ProtEntry.empty) off v) }
  else s

/-- A window register as it reads (R366). -/
def readProtWindow (s : State) (die off : Nat) : Word :=
  let n := protSel s die
  let p := protBank s die (tbit (reg s die 0 0x108) 16)
  if off ≥ 0x124 then
    if 257 ≤ n ∧ n ≤ 271 then BitVec.ofNat 32 (fld (routeList p (n - 256)) (if off = 0x124 then 0 else 32) 32)
    else if n < 256 then 0xFFFFFFFF#32 else 0#32
  else if n < 256 ∧ hasRegions die then entryField (mapGet p.entries n ProtEntry.empty) off
  else 0#32

/-- PROT_SWAP_ARM (R358). -/
def execProtSwapArm (t : Time) (die : Die) (v : Word) (s : State) : Host.Outcome State Fault Refusal :=
  let s1 := advance s t
  .next (if hasProt die.val then pageWrite s1 die.val 0 0x100 true (fun u => writeProtCtrl u die.val v) else s1)

/-- An armed protection swap at a frame boundary (R34, R358); a bank without entries is no empty bank (log entry 33). -/
def swapProt (s : State) (die : Nat) : State :=
  if tbit (reg s die 0 0x104) 1 && armedBefore s (barOff die 0 0x100) s.now then
    count (setRegFld (setRegFld s die 0 0x104 1 1 0) die 0 0x104 0 1 (fld (reg s die 0 0x100) 0 1)) die 0 0x08 1
  else s

/-! ## The checks of a load in order (R147) -/

/-- Whether a node is populated (R36, R359). -/
def populated (c : Cabling) (n : Nat) : Bool :=
  decide (nodeX n < 4) && decide (nodeY n < c.ny) && decide (nodeZ n < c.nz)
    && decide (nth c.pop (nodeZ n * c.ny + nodeY n) 0 / 2 ^ nodeX n % 2 = 1)

/-- Whether the slice of a container lies in the populated set and does not overlap another running slice (R359). -/
def sliceOk (s : State) (f : List Byte) : Bool :=
  let same := decide (s.slice.origin = leAt f 0x30 2 ∧ s.slice.x = leAt f 0x32 1 ∧ s.slice.y = leAt f 0x33 1 ∧ s.slice.z = leAt f 0x34 2)
  (match s.cab with
   | none => false
   | some c =>
     decide (leAt f 0x33 1 ≤ c.ny) && decide (leAt f 0x34 2 ≤ c.nz) && (planNodes s f).all (populated c))
    && (same || !s.slice.running || !frsRunning s 0)

/-- A 128-bit feature word from four registers of a page (R493). -/
def featureWord (s : State) (die page off : Nat) : BitVec 128 :=
  BitVec.ofNat 128 (foldState (fun v i => v + (reg s die page (off + 4 * i)).toNat * 2 ^ (32 * i)) 0 (upFrom 0 4))

/-- The state with a 128-bit feature word in four registers of a page. -/
def putFeatures (s : State) (die page off : Nat) (v : BitVec 128) : State :=
  foldState (fun u i => setReg u die page (off + 4 * i) (BitVec.ofNat 32 (fld v (32 * i) 32))) s (upFrom 0 4)

/-- Whether a section type is one that R141 lists. -/
def knownType (t : Nat) : Bool := [0x10, 0x11, 0x20, 0x21, 0x30, 0x31, 0x40, 0x41, 0x42, 0x45, 0x50, 0x60, 0x70, 0x80].contains t

/-- The code of the first condition that a section of the unit breaks on this module, or 0. A section of a die that cannot take it is
ignored (log entry 34). -/
def sectionFault (s : State) (f : List Byte) (pl : PlanInfo) (e : PlanEnt) : Nat :=
  let b := section_ f e
  let u := pl.unit
  match e.type with
  | 0x10 =>
    if e.die ≥ 100 then 0
    else if e.die = 9 then (if (readProg b).entries.any (fun x => decide (entOp x = 5)) then 0x1040 else 0)
    else
      let p := readProg b
      firstFailing [(!progShape b, 0x101A),
        (!progOk p e.die pl.base pl.profile (leAt b 0x10 4) (leAt b 0x14 4) || decide (p.jobs ≠ pl.jobs), 0x1040),
        (!issueOk s pl e.die p, 0x1014)]
  | 0x11 => if e.len = 0x240 then 0 else 0x101A
  | 0x20 => if e.die ≥ 100 then 0 else firstFailing [(!schedShape b, 0x101A), (!schedOk e.die pl.base (readSched b), 0x1016)]
  | 0x21 => if linkOk s f u pl.base b then 0 else 0x1090
  | 0x30 =>
    let l := readStages b (ownNode s) e.die
    if e.die ≥ 100 ∨ dieType e.die ≠ .compute then 0
    else
      let all := pl.stages.filter (fun g => decide (g.node = ownNode s) && decide (g.die = e.die))
      firstFailing [(!countedShape b 48, 0x101A), (!stagesOk all, 0x1019), (l.any (fun g => absentCore s e.die g.logical), 0x10E2),
        (!l.all (freqOk s pl), 0x1015)]
  | 0x31 =>
    if e.die ≥ 100 ∨ dieType e.die ≠ .compute then 0
    else firstFailing [(!countedShape b 50, 0x101A), ((readContexts b e.die).any (fun c => absentCore s e.die c.logical), 0x10E2)]
  | 0x40 =>
    firstFailing [(!placementShape b, 0x101A), (!placementOk s f u b, 0x10B0), (!(readExtents b).all (fun x => placeUsable s (extentSpan x)), 0x10E2)]
  | 0x41 => firstFailing [(!kvShape b, 0x101A), (!kvOk s pl (allLayouts f pl.unit) (readKv b), 0x1050)]
  | 0x42 => firstFailing [(!envShape b, 0x101A), (!envOk s pl (readEnv b), 0x1060)]
  | 0x45 => if canopyOk pl b then 0 else 0x1071
  | 0x50 => if protOk s b then 0 else 0x10A1
  | 0x60 => if fallbackOk (leAt f 0x2A 2) (leAt f 0x33 1 * leAt f 0x34 2) b then 0 else 0x10E1
  | _ => 0

/-- The first failing section of a list, with its code and index. -/
def firstBad (g : PlanEnt → Nat) (l : List PlanEnt) : Option (Nat × Option Nat) :=
  match l with
  | [] => none
  | e :: r => if g e = 0 then firstBad g r else some (g e, some e.idx)

/-- The first of two answers. -/
def orElse (a b : Option (Nat × Option Nat)) : Option (Nat × Option Nat) :=
  match a with
  | none => b
  | some x => some x

/-- A header condition that fails with a code belongs to no directory entry. -/
def headFault (bad : Bool) (code : Nat) : Option (Nat × Option Nat) := if bad then some (code, none) else none

/-- The conditions that belong to the container, in the order in which the firmware checks them (DESIGN CHOICE, log entry 34). -/
def containerFault (s : State) (f : List Byte) (floor : BitVec 128) (sigOk : Bool) : Option (Nat × Option Nat) :=
  let d := directory f
  let own := d.filter (fun e => decide (e.node = ownNode s) || decide (e.node = 0xFFFF))
  let signed := d.any (fun e => decide (e.type = 0x80) && decide (e.unit = 0)) && sigOk
  orElse (headFault (!headerOk f) 0x101A)
    (orElse (match badEnts f d with
             | [] => none
             | e :: _ => some (0x101A, some e.idx))
      (orElse (headFault (!digestIs (bytesAt f 0 0xD0 ++ bytesAt f (leAt f 0x38 8) (80 * leAt f 0x0C 4)) (bytesAt f 0xD0 48)) 0x1013)
        (orElse (firstBad (fun e => if digestIs (section_ f e) e.digest then 0 else 0x1013) own)
          (orElse (headFault (decide (leAt f 0x2C 4 % 80 ≠ 0)) 0x1012)
            (orElse (headFault (!sliceOk s f) 0x10A1)
              (orElse (headFault (decide (BitVec.ofNat 128 (leAt f 0x10 16) &&& ~~~floor ≠ 0#128)) 0x1017)
                (orElse (headFault (tbit (reg s 9 8 0x044) 0 && !signed) 0x8052)
                  (orElse (headFault (decide (leAt f 0x29 1 = 1) && decide (leAt f 0x28 1 ≥ 2)) 0x1015)
                    (firstBad (fun e => if !knownType e.type && tbit (BitVec.ofNat 8 e.flags) 0 then 0x1018 else 0) d)))))))))

/-- The condition of a unit's sections that fails first on this module (R147, R268). -/
def unitFault (s : State) (f : List Byte) (pl : PlanInfo) : Option (Nat × Option Nat) :=
  orElse (firstBad (sectionFault s f pl) ((directory f).filter (entFor pl.unit (ownNode s))))
    (headFault (pl.canopy.isEmpty && pl.jobs.any (fun j => decide (j.slots ≠ 0)) && decide (ownNode s = pl.origin)) 0x1071)

/-- A refused load records its code in the FRS page of die 0 (R147); a condition of no entry leaves the detail free. The code of a refused
KV_LAYOUT section goes to the REQ page of the job's tracker too (R224, log entry 121). -/
def recordPlanFault (s : State) (f : List Byte) (x : Nat × Option Nat) : State :=
  match x.2 with
  | some i =>
    let s1 := recordError s 0 1 x.1 i
    match (directory f).find? (fun e => decide (e.idx = i)) with
    | some e => if x.1 = 0x1050 then recordError s1 (if leAt (section_ f e) 0 1 % 2 = 1 then 99 else 0) 9 0x1050 i else s1
    | none => s1
  | none => recordErrorFree s 0 1 x.1

/-! ## Contexts (R50, R142) -/

/-- Whether a context of a core already stands as planned. -/
def ctxStands (s : State) (c : Nat) (x : CtxPlan) : Bool :=
  tbit (ctxReg s c x.ctx 0xC) 0 && decide (ctxBase s c x.ctx = x.base * 256) && decide (ctxBound s c x.ctx = x.bound * 256)
    && decide (ctxOwner s c x.ctx = x.owner)

/-- One planned context assigned on the core that carries its logical core: the state, whether it was accepted, and the contexts newly
assigned so far. -/
def planContext (a : State × Bool × List (Nat × Nat)) (x : CtxPlan) : State × Bool × List (Nat × Nat) :=
  if !a.2.1 then a
  else
    match physOf a.1 x.die x.logical with
    | none => a
    | some c =>
      let s := settle a.1 c
      if ctxStands s c x then (s, true, a.2.2)
      else if tbit (ctxReg s c x.ctx 0xC) 0 then
        (ctxRefuse s c x.ctx (if x.base ≥ x.bound ∨ x.bound > 98304 then 0 else 2), false, a.2.2)
      else
        let s1 := ctxAssign (setCtx (setCtx s c x.ctx 0 0 17 x.base) c x.ctx 4 0 17 x.bound) c x.ctx x.owner
        if tbit (ctxReg s1 c x.ctx 0xC) 0 then (s1, true, (c, x.ctx) :: a.2.2) else (s1, false, a.2.2)

/-- The contexts of a discarded plan that were newly assigned are released (R143). -/
def dropContexts (s : State) (l : List (Nat × Nat)) : State := foldState (fun u p => ctxRelease u p.1 p.2) s l

/-! ## Placing and arming (R143) -/

/-- The inactive bank of a status register with ACTIVE_BANK in bit 0. -/
def otherBank (w : Word) : Nat := 1 - fld w 0 1

/-- The banks that a unit's sections load on this module and whose swap is pending: those loads are refused (R34). -/
def pendingLoads (s : State) (f : List Byte) (u : Nat) : List PlanEnt :=
  ((directory f).filter (entFor u (ownNode s))).filter (fun e =>
    match e.type with
    | 0x10 => decide (e.die < 100) && tbit (reg s e.die 1 0x064) 1
    | 0x20 => decide (e.die < 100) && tbit (reg s e.die 0 0x04C) 1
    | 0x21 => (linkTables (section_ f e)).any (fun t => tbit (lnk s t.port 0x064) 1)
    | 0x50 => (upFrom 0 100).any (fun d => tbit (reg s d 0 0x104) 1)
    | _ => false)

/-- The error of a load into a bank whose swap is pending. -/
def refuseLoad (s : State) (f : List Byte) (e : PlanEnt) : State :=
  match e.type with
  | 0x10 => recordError s e.die 1 0x1041 0x060
  | 0x20 => recordError s e.die 0 0x1011 (otherBank (reg s e.die 0 0x04C))
  | 0x21 =>
    match (linkTables (section_ f e)).find? (fun t => tbit (lnk s t.port 0x064) 1) with
    | some t => lnkError s t.port 0x1011 (otherBank (lnk s t.port 0x064))
    | none => s
  | _ =>
    match (upFrom 0 100).find? (fun d => tbit (reg s d 0 0x104) 1) with
    | some d => recordError s d 0 0x10A0 (protSel s d)
    | none => s

/-- A program placed in the inactive bank of a die (R143, R156). -/
def placeProg (s : State) (die : Nat) (b : FBank) : State :=
  updFrs s die (fun fr => if otherBank (reg s die 1 0x064) = 1 then { fr with bankB := b } else { fr with bankA := b })

/-- A region table placed in the inactive protection banks (R357). -/
def placeProt (b : ProtBank) (s : State) (die : Nat) : State :=
  if !hasProt die then s
  else putProt s die (decide (otherBank (reg s die 0 0x104) = 1)) { b with entries := if hasRegions die then b.entries else [] }

/-- A section placed in inactive banks (R143). -/
def placeSection (f : List Byte) (pl : PlanInfo) (s : State) (e : PlanEnt) : State :=
  let b := section_ f e
  match e.type with
  | 0x10 =>
    if e.die ≥ 100 ∨ e.die = 9 then s
    else
      placeProg s e.die
        { readProg b with
          nwLoad := if dieType e.die = .compute then
              some { image := nwImage s f pl.unit e.die, carry := decide (pl.unit ≠ 0), en := decide (pl.profile ≠ 3) }
            else none }
  | 0x20 => if e.die ≥ 100 then s else loadSched s e.die (otherBank (reg s e.die 0 0x04C)) (readSched b)
  | 0x21 =>
    foldState (fun u t => loadLink u t.port (otherBank (lnk u t.port 0x064)) { tx := t.tx, rx := t.rx } (delayOf b t.dir)) s (linkTables b)
  | 0x50 => foldState (placeProt (readProt b)) s (upFrom 0 100)
  | _ => s

/-- The banks of a section armed (R143). -/
def armSection (f : List Byte) (s : State) (e : PlanEnt) : State :=
  let arm (w : Word) : Word := BitVec.ofNat 32 (otherBank w + 2)
  match e.type with
  | 0x10 => if e.die ≥ 100 ∨ e.die = 9 then s else writeProgCtrl s e.die (arm (reg s e.die 1 0x064))
  | 0x20 => if e.die ≥ 100 then s else writeSchedCtrl s e.die (arm (reg s e.die 0 0x04C))
  | 0x21 => foldState (fun u t => writeSlotCtrl u t.port (arm (lnk u t.port 0x064))) s (linkTables (section_ f e))
  | 0x50 =>
    foldState (fun u d => if hasProt d then writeProtCtrl u d (arm (reg u d 0 0x104)) else u) s (upFrom 0 100)
  | _ => s

/-- The other synthesiser of a core is programmed for a planned frequency and its switch armed with the swap (R127, R397, log entry 35). -/
def armSynth (mhz : Nat) (s : State) (c : Nat) : State :=
  if mhz = 0 ∨ (core s c).clk.mhz = mhz then s
  else updCore s c (fun x => { x with clk := { x.clk with nextMhz := mhz, lockAt := 0, armed := true, armT := s.now } })

/-- The core of a stage is to run at the planned frequency (R127). -/
def armStage (s : State) (g : Stage) : State :=
  match physOf s g.die g.logical with
  | none => s
  | some c => armSynth g.mhz s c

/-- In the fixed-frequency mode every other core of the module runs at the plan's one frequency too, as far as its speed-map entry allows (R127,
R129). -/
def armRest (s : State) (pl : PlanInfo) (own : List Stage) : State :=
  if pl.freqMode ≠ 0 ∨ pl.profile = 3 then s
  else
    let l := own.filterMap (fun g => physOf s g.die g.logical)
    foldState (fun u c => armSynth (min (restMhz pl) (smMhz u c)) u c) s ((upFrom 0 1152).filter (fun c => !l.contains c))

/-- The key under which the moment of a plan's arming is kept. -/
def planKey : Nat := 0x10000000

/-- Every watch entry's state and mean as a fallback switch carries them (R118). -/
def keepWatch (s : State) (die : Nat) : State :=
  foldState (fun u i =>
    let cfg := nwReg u die i 0x840
    if tbit cfg 31 then
      { u with nwKept := mapSet u.nwKept (fld cfg 18 8 * 1024 + fld cfg 0 10) (nwReg u die i 0x854, nwReg u die i 0x84C) }
    else u) s (upFrom 0 16)

/-- The firmware saves every watch entry before a fallback switch (R118, R464). -/
def keepWatches (s : State) : State := foldState keepWatch { s with nwKept := [] } ((upFrom 0 64).map cpDie)

/-- A unit of a container placed and armed on this module, all its checks passed (R143). A fallback unit finds the watch entries saved (R464). -/
def armUnit (s : State) (f : List Byte) (u : Nat) : State :=
  let pl := planInfo s f u
  let es := (directory f).filter (entFor u (ownNode s))
  let s1 := foldState (placeSection f pl) s es
  let s2 := foldState (armSection f) s1 es
  let own := pl.stages.filter (fun g => decide (g.node = ownNode s) && decide (pl.profile ≠ 3))
  let s3 := armRest (foldState armStage s2 own) pl own
  noteArm { s3 with planNext := some pl, container := f } planKey

/-- FO_ANCHOR: the lowest node of the slice whose ANCHOR_ELIGIBLE is set (R462). -/
def showAnchor (s : State) (f : List Byte) (eligible : List Nat) : State :=
  let own := if tbit (reg s 0 8 0x700) 16 then [ownNode s] else []
  match (own ++ eligible).filter (fun n => (planNodes s f).contains n) with
  | [] => setReg s 0 8 0x714 0xFFFF#32
  | n :: r => setReg s 0 8 0x714 (BitVec.ofNat 32 (foldState min n r))

/-- A fence entry of a Bough die is lifted when the plan names the node again after it completed a start (R463, R469). -/
def liftFence (nodes returned : List Nat) (s : State) (k : Nat) : State :=
  let die := bgDie (k / 16)
  let off := 0x080 + 4 * (k % 16)
  let n := fld (reg s die 8 off) 0 16
  if tbit (reg s die 8 off) 31 ∧ nodes.contains n ∧ returned.contains n then setReg s die 8 off 0#32 else s

/-! ## The floor reduction (R494, R496) -/

/-- The other modules that a plan's floor counts: those of its slice, without the ones that have left it and not completed a start since. -/
def floorNodes (s : State) (q : PlanReq) : List Nat :=
  (planNodes s q.file).filter (fun n => decide (n ≠ ownNode s) && (!s.fo.lost.contains n || q.returned.contains n))

/-- Whether the reduction over the slice tree has the module word of every one of them. -/
def reduced (s : State) (q : PlanReq) : Bool := (floorNodes s q).all (fun n => (mapFind q.words n).isSome)

/-- The floor: the AND of the module words of the slice. -/
def floorOf (s : State) (q : PlanReq) : BitVec 128 :=
  foldState (fun w n => w &&& mapGet q.words n 0) (featureWord s 0 8 0x080) (floorNodes s q)

/-- A plan load once its floor is formed (R143, R147). Unit 0 arms all swaps; another unit is loaded into inactive banks ahead of need. -/
def loadPlan (s0 : State) (q : PlanReq) : State :=
  let file := q.file
  let floor := floorOf s0 q
  let pl := planInfo s0 file q.unit
  match orElse (containerFault s0 file floor q.sigOk) (unitFault s0 file pl) with
  | some x => recordPlanFault s0 file x
  | none =>
    match pendingLoads s0 file q.unit with
    | e :: _ => refuseLoad s0 file e
    | [] =>
      let a := foldState planContext (s0, true, []) pl.contexts
      if !a.2.1 || !q.othersOk then dropContexts a.1 a.2.2
      else
        let s1 := showAnchor (putFeatures a.1 0 8 0x090 floor) file q.eligible
        let s2 := foldState (liftFence (planNodes s0 file) q.returned) s1 (upFrom 0 224)
        if q.unit = 0 then armUnit s2 file 0
        else foldState (placeSection file pl) { s2 with container := file } ((directory file).filter (entFor q.unit (ownNode s2)))

/-- The state with the plan load in its floor reduction replaced. -/
def putPlanReq (s : State) (q : Option PlanReq) : State := { s with fo := { s.fo with planReq := q } }

/-- The reduction is issued (R494, R496): the load goes on with its result, or waits for the words that have not come. A container without a legal
header names no slice and is refused as it stands. -/
def issuePlan (s : State) (q : PlanReq) : State :=
  if headerOk q.file && !reduced s q then putPlanReq s (some q) else loadPlan (putPlanReq s none) q

/-- A module is lost: the reduction in progress ends with 0x4051, and the plan load waits for the failover (R364, R496). -/
def endReduction (s : State) (lost : List Nat) : State :=
  match s.fo.planReq with
  | none => s
  | some q =>
    let s1 := putPlanReq s (some { q with ended := true, returned := q.returned.filter (fun n => !lost.contains n) })
    if q.ended then s1 else recordError s1 0 8 0x4051 0

/-- After the failover the firmware reissues the reduction over the slice that remains (R496). -/
def reissuePlan (s : State) : State :=
  match s.fo.planReq with
  | none => s
  | some q => if q.ended then issuePlan s { q with ended := false } else s

/-- PLAN_LOAD (R143, R147, R494): unit `u` of a container, whether every other module of the slice reported success, whether its signature is
valid, the module words that the reduction brings by node, the other modules eligible as anchor, and the nodes that completed a start since they
were fenced. -/
def execPlanLoad (t : Time) (u : Fin 256) (file : List Byte) (othersOk sigOk : Bool) (words : List (Fin 65536 × BitVec 128))
    (eligible returned : List Nat) (s : State) : Host.Outcome State Fault Refusal :=
  .next (issuePlan (notePlanLoad (advance s t))
    { unit := u.val, file := file, othersOk := othersOk, sigOk := sigOk, words := foldState (fun m p => mapSet m p.1.val p.2) [] words,
      eligible := eligible, returned := returned })

/-! ## The plan swap at a boundary (R152) -/

/-- An image word of the watch unit takes the writable fields of its register (R120). -/
def imageMask (k : Nat) : Word :=
  if k = 0 then 0x0000FF0F#32
  else if k < 3 then 0xFFFFFFFF#32
  else if k < 16 then 0#32
  else
    match k % 8 with
    | 0 => 0x83FFFFFF#32
    | 1 => 0x01FFFFFF#32
    | 2 => 0x0000FFFF#32
    | 3 => 0xFFFFFFFF#32
    | 5 => 0x0001FFFF#32
    | _ => 0#32

/-- The image of a watch unit written to a die, EN as it was (R141). -/
def writeImage (s : State) (die : Nat) (l : List Word) : State :=
  foldState (fun u k =>
    setReg u die 1 (0x800 + 4 * k) (maskWrite (reg u die 1 (0x800 + 4 * k)) (if k = 0 then 0x0000FF0E#32 else imageMask k) (nth l k 0#32)))
    s (upFrom 0 (min 144 l.length))

/-- A watch entry starts in WARMUP with m cleared (R118), or takes what was kept for its layer. -/
def startWatch (carry : Bool) (die : Nat) (s : State) (i : Nat) : State :=
  let cfg := nwReg s die i 0x840
  let kept := mapFind s.nwKept (fld cfg 18 8 * 1024 + fld cfg 0 10)
  match (if carry then kept else none) with
  | some k => setReg (setReg s die 1 (nwOff i 0x854) k.1) die 1 (nwOff i 0x84C) k.2
  | none => setReg (setReg s die 1 (nwOff i 0x854) 3#32) die 1 (nwOff i 0x84C) 0#32

/-- What a program swap brings to a die's watch unit (R118, R119, R121). -/
def startWatches (s : State) (die : Nat) (x : NwLoad) : State :=
  let s1 := writeImage s die x.image
  let s2 := foldState (startWatch x.carry die) s1 (upFrom 0 16)
  let en := x.en && (upFrom 0 16).any (fun i => tbit (nwReg s2 die i 0x840) 31)
  let s3 := setRegFld s2 die 1 0x800 0 1 (b2n en)
  if en then loadWarm s3 die (fld (reg s3 die 1 0x800) 8 8) else s3

/-- What a plan that takes effect brings to the watch unit of a compute die for which it has no frame program (R118, R119, R141). -/
def planWatch (s : State) (die : Nat) : State :=
  match s.planNext.or s.plan with
  | none => s
  | some pl =>
    if dieType die ≠ .compute ∨ (sectionsOf s.container pl.unit (ownNode s) 0x10).any (fun p => decide (p.1.die = die)) = true then s
    else
      startWatches s die
        { image := nwImage s s.container pl.unit die, carry := decide (pl.unit ≠ 0), en := decide (pl.profile ≠ 3) }

/-- The jobs and layer states that a fallback switch carries to a die's frame sequencer (R118): the layers in RECOMPUTE or WIDE run wide, and a step that was
to be recomputed is recomputed under the new plan. -/
def carrySteps (s : State) (die : Nat) : State :=
  updFrs s die (fun fr =>
    foldState (fun u p =>
      let st := fld p.2.1 0 2
      { u with wideLayers := mapPut false u.wideLayers p.1 (isWide st),
               carry := if st = 1 then u.carry ||| BitVec.ofNat 256 (2 ^ (p.1 / 1024)) else u.carry }) fr s.nwKept)

/-- The watch unit of a die after its program swapped: the bank's load is taken once (R119). `due` says whether the armed plan takes effect. -/
def swapWatch (due : Bool) (s0 : State) (die : Nat) : State :=
  let s := if due && decide ((s0.planNext.map (fun pl => pl.unit)).getD 0 ≠ 0) then carrySteps s0 die else s0
  match (progBank s die).nwLoad with
  | none => if due then planWatch s die else s
  | some x =>
    let act := fld (reg s die 1 0x064) 0 1
    startWatches
      (updFrs s die (fun fr =>
        if act = 1 then { fr with bankB := { fr.bankB with nwLoad := none } } else { fr with bankA := { fr.bankA with nwLoad := none } }))
      die x

/-- Whether the plan armed last takes effect at this boundary (R152). -/
def planDue (s : State) : Bool := s.planNext.isSome && armedBefore s planKey s.now

/-- The armed plan is in force (R139, R152, R359). -/
def swapPlan (s : State) : State :=
  match s.planNext with
  | none => s
  | some pl =>
    { s with plan := some pl, planNext := none, slice := { running := true, origin := pl.origin, x := pl.x, y := pl.y, z := pl.z } }

end Sys2Proof.Machine
end

