-- ==== Sys2Proof/Machine/Tracker.lean ====
section
/-!
DEFINITION. Sys2Proof/Machine/Tracker.lean: a request tracker and its rings (R252, R253, R257 to R259, R273, R274), with the intent record
that precedes each entry (R457).
-/
namespace Sys2Proof.Machine

/-! ## Tracker state and REQ registers -/

/-- The request tracker of Trunk die `k`. -/
def tracker (s : State) (k : Nat) : Tracker := mapGet s.trackers k Tracker.reset

/-- The state with a tracker changed. -/
def updTracker (s : State) (k : Nat) (f : Tracker → Tracker) : State :=
  { s with trackers := mapPut Tracker.reset s.trackers k (f (tracker s k)) }

/-- The state with the serving firmware's state changed. -/
def updServ (s : State) (f : ServSt → ServSt) : State := { s with serv := f s.serv }

/-- A register of tracker `k`'s REQ page. -/
def rq (s : State) (k off : Nat) : Word := reg s (trDie k) 9 off

/-- The state with a register of a REQ page written. -/
def setRq (s : State) (k off : Nat) (v : Word) : State := setReg s (trDie k) 9 off v

/-- An error in a REQ page (R275). -/
def reqError (s : State) (k code info : Nat) : State := recordError s (trDie k) 9 code info

/-- Events of a REQ page (R275). -/
def reqCount (s : State) (k code n : Nat) : State := count s (trDie k) 9 code n

/-! ## Rings (R253) -/

/-- Entries of a ring whose SIZE register is at an offset. -/
def ringSize (s : State) (k off : Nat) : Nat := 2 ^ fld (rq s k off) 0 5

/-- A ring's base address, from its BASE registers. -/
def ringBase (s : State) (k off : Nat) : Nat := (rq s k off).toNat + (rq s k (off + 4)).toNat * 2 ^ 32

/-- The entries that a ring holds: tail − head. -/
def ringHolds (s : State) (k tail head : Nat) : Nat := ((rq s k tail).toNat + 2 ^ 32 - (rq s k head).toNat) % 2 ^ 32

/-- An entry written to a ring of host memory at its tail, which then advances; the intent record comes first (R253, R457). -/
def ringWrite (s : State) (k base size tail : Nat) (e : List Byte) : State :=
  let n := (rq s k tail).toNat
  let a := ringBase s k base + n % ringSize s k size * e.length
  let s1 := updTracker s k (fun x => { x with intent := some (e, a, tail, (n + 1) % 2 ^ 32) })
  setRq (putHost s1 a e) k tail (BitVec.ofNat 32 (n + 1))

/-- Offset of the registers of stream ring `n`. -/
def streamOff (n : Nat) : Nat := 0x100 + 0x20 * n

/-- Whether the completion ring has room. -/
def cqRoom (s : State) (k : Nat) : Bool := decide (ringHolds s k 0x06C 0x070 < ringSize s k 0x068)

/-- Whether a stream ring has room. -/
def streamRoom (s : State) (k n : Nat) : Bool :=
  decide (ringHolds s k (streamOff n + 0xC) (streamOff n + 0x10) < ringSize s k (streamOff n + 8))

/-! ## Stream entries (R258, R259) -/

/-- A stream entry (R258). -/
def streamEntry (id token index : Nat) (anomaly stop replayed : Bool) : List Byte :=
  toLE 4 id ++ toLE 4 token ++ toLE 4 index ++ toLE 4 (b2n anomaly + b2n stop * 2 + b2n replayed * 4)

/-- The held entries of a stream ring. -/
def heldStream (s : State) (k n : Nat) : List (List Byte) := mapGet (tracker s k).holdS n []

/-- Whether a stream ring and its holding area are both full (R259). -/
def streamFull (s : State) (k n : Nat) : Bool := !streamRoom s k n && decide ((heldStream s k n).length ≥ 1024)

/-- A stream entry written to its ring. -/
def writeStream (s : State) (k n : Nat) (e : List Byte) : State :=
  let s1 := reqCount (ringWrite s k (streamOff n) (streamOff n + 8) (streamOff n + 0xC) e) k 0x52 1
  let s2 := if tbit (BitVec.ofNat 32 (ofLE (e.drop 12))) 0 then reqCount s1 k 0x54 1 else s1
  raiseRing s2 k (3 + 16 * k + n)

/-- Held entries of a stream ring written while it has room. -/
def drainStream (fuel : Nat) (s : State) (k n : Nat) : State :=
  match fuel with
  | 0 => s
  | f + 1 =>
    match heldStream s k n with
    | [] => s
    | e :: r =>
      if streamRoom s k n then drainStream f (writeStream (updTracker s k (fun x => { x with holdS := mapPut [] x.holdS n r })) k n e) k n
      else s

/-- A stream entry posted: entries are written in order as the ring has room, and held while it is full (R259). -/
def postStream (s : State) (k n : Nat) (e : List Byte) : State :=
  let s1 := drainStream 1024 s k n
  if streamRoom s1 k n && (heldStream s1 k n).isEmpty then writeStream s1 k n e
  else reqCount (updTracker s1 k (fun x => { x with holdS := mapSet x.holdS n (heldStream s1 k n ++ [e]) })) k 0x55 1

/-! ## Completions (R257, R259) -/

/-- A completion entry (R257). -/
def completion (id status reason : Nat) (anomaly chosen : Bool) (tokens seed len : Nat) : List Byte :=
  toLE 8 id ++ toLE 2 status ++ toLE 1 reason ++ toLE 1 (b2n anomaly + b2n chosen * 2) ++ toLE 4 tokens ++ toLE 8 seed ++ toLE 4 len ++ toLE 4 0

/-- Whether a completion waits for a held stream entry of its request (R257). -/
def behindStream (s : State) (k : Nat) (e : List Byte) : Bool :=
  (tracker s k).holdS.any (fun p => p.2.any (fun x => decide (x.take 4 = e.take 4)))

/-- A completion written to the completion ring. -/
def writeCompletion (s : State) (k : Nat) (e : List Byte) : State :=
  raiseRing (reqCount (ringWrite s k 0x060 0x068 0x06C e) k 0x51 1) k (1 + k)

/-- A completion posted: written, or held while the ring is full or a stream entry of its request is held (R257, R259). -/
def postCompletion (s : State) (k : Nat) (e : List Byte) : State :=
  if cqRoom s k && !behindStream s k e && (tracker s k).holdC.isEmpty then writeCompletion s k e
  else updTracker s k (fun x => { x with holdC := x.holdC ++ [e] })

/-- Held completions written while the ring has room, those whose stream entries are written first. -/
def drainCompletions (fuel : Nat) (s : State) (k : Nat) : State :=
  match fuel with
  | 0 => s
  | f + 1 =>
    match (tracker s k).holdC.find? (fun e => !behindStream s k e) with
    | none => s
    | some e =>
      if cqRoom s k then drainCompletions f (writeCompletion (updTracker s k (fun x => { x with holdC := x.holdC.erase e })) k e) k
      else s

/-- REQ_STATUS as it reads (R259, R273). -/
def reqStatus (s : State) (k : Nat) : Word :=
  BitVec.ofNat 32 (min 65535 (tracker s k).reqs.length + b2n (!cqRoom s k && !(tracker s k).holdC.isEmpty) * 65536)

/-- Whether a tracker acts: its page is reachable, its firmware runs and its cluster is not lost, in a control slot of its die (R153, R260). -/
def trackerActs (s : State) (k : Nat) : Bool := reachable s (trDie k) 9 && fwRuns s && !(tracker s k).lost && inCtl s (trDie k)

/-- Whether the rings of tracker `k` are served, by its own cluster or by the one that took over (R456, R457). -/
def ringsServed (s : State) (k : Nat) : Bool := trackerActs s k || ((tracker s k).lost && trackerActs s (1 - k))

/-- STREAM_HOLD_DRAIN (R259). -/
def execStreamHoldDrain (t : Time) (k : Fin 2) (n : Fin 16) (s : State) : Host.Outcome State Fault Refusal :=
  let s1 := advance s t
  if ringsServed s1 k.val then
    let s2 := drainStream 1024 s1 k.val n.val
    .next (drainCompletions 4096 s2 k.val)
  else .next s1

/-- COMPLETION_HOLD_DRAIN (R259). -/
def execCompletionHoldDrain (t : Time) (k : Fin 2) (s : State) : Host.Outcome State Fault Refusal :=
  let s1 := advance s t
  .next (if ringsServed s1 k.val then drainCompletions 4096 s1 k.val else s1)

/-! ## Register writes (R274) -/

/-- A refused write of a REQ register. -/
def reqRefuse (s : State) (k off : Nat) : State := reqError s k 0x1070 off

/-- Whether a head or tail of a ring may take a value: the ring would hold at most its size. -/
def indexOk (s : State) (k size : Nat) (tail head : Word) : Bool := decide ((tail.toNat + 2 ^ 32 - head.toNat) % 2 ^ 32 ≤ ringSize s k size)

/-- A write of a base: refused while ACCEPT is 1 or where it is not aligned. -/
def writeRingBase (s : State) (k off align : Nat) (v : Word) : State :=
  if tbit (rq s k 0x040) 0 || decide (v.toNat % align ≠ 0) then reqRefuse s k off else setRq s k off v

/-- A write of a size: refused while ACCEPT is 1 or outside 6 to 16. -/
def writeRingSize (s : State) (k off : Nat) (v : Word) : State :=
  if tbit (rq s k 0x040) 0 || decide (fld v 0 5 < 6) || decide (fld v 0 5 > 16) then reqRefuse s k off
  else setRq s k off (v &&& 0x1F#32)

/-- A write of a register of tracker `k` (R273, R274). -/
def writeReq (s : State) (k off : Nat) (v : Word) : State :=
  match off with
  | 0x040 => setRq s k off (v &&& 1#32)
  | 0x048 => writeRingBase s k off 64 v
  | 0x04C => writeRingBase s k off 1 v
  | 0x050 => writeRingSize s k off v
  | 0x054 => if indexOk s k 0x050 v (rq s k 0x058) then setRq s k off v else reqRefuse s k off
  | 0x060 => writeRingBase s k off 32 v
  | 0x064 => writeRingBase s k off 1 v
  | 0x068 => writeRingSize s k off v
  | 0x070 => if indexOk s k 0x068 (rq s k 0x06C) v then setRq s k off v else reqRefuse s k off
  | _ =>
    if 0x100 ≤ off ∧ off < 0x300 then
      let b := off - off % 0x20
      match off % 0x20 with
      | 0x00 => writeRingBase s k off 16 v
      | 0x04 => writeRingBase s k off 1 v
      | 0x08 => writeRingSize s k off v
      | 0x10 => if indexOk s k (b + 8) (rq s k (b + 0xC)) v then setRq s k off v else reqRefuse s k off
      | _ => s
    else s

end Sys2Proof.Machine
end

