-- ==== Sys2Proof/Machine/Cache.lean ====
section
/-!
DEFINITION. Sys2Proof/Machine/Cache.lean: the key-value cache as the firmware handles it: job slots and their classes (R191), the places of pages
on this module (R193, R219, R220), sealing (R195 to R198), the move of parity records (R214), and the ring of a resumed session (R217).
-/
namespace Sys2Proof.Machine

/-! ## Jobs, slots and classes -/

/-- KV_LAYOUT of a job on this module, if the plan in force gives one (R219). -/
def kvOf (s : State) (job : Nat) : Option KvLayout :=
  match s.plan with
  | none => none
  | some pl => pl.kv.find? (fun k => decide (k.job = job))

/-- Job slots of a job in the plan in force (R156). -/
def jobSlots (s : State) (job : Nat) : Nat :=
  match s.plan with
  | none => 0
  | some pl =>
    match pl.jobs.find? (fun j => decide (j.tag = job)) with
    | none => 0
    | some j => j.slots

/-- CHUNK of a job. -/
def jobChunk (s : State) (job : Nat) : Nat :=
  match jobOf (progBank s 0) job with
  | none => 1
  | some j => j.chunk

/-- Whether a slot is of the spread class (R219). Where no KV_LAYOUT names the job, every slot is local (log entry 40). -/
def slotSpread (s : State) (job slot : Nat) : Bool :=
  match kvOf s job with
  | none => false
  | some k => decide (k.localSlots ≤ slot)

/-- The state of a job slot at PIPE_LAG 0: 0 free, 1 prefill, 2 decode, 3 draining (R166). -/
def slotPoint (s : State) (job slot : Nat) : SlotPoint := slotSeen (frsOf s 0) job slot 0

/-- The class that a declared maximum length takes: whether it is spread (R191). -/
def isSpread (len : Nat) : Bool := decide (len > 262144)

/-- The place of this module among the active modules of the slice, in ascending node number (R191). -/
def moduleIndex (s : State) : Nat := ((planNodes s s.container).filter (fun n => decide (n < ownNode s))).length

/-- The slot of this module in its tray (R36). -/
def traySlot (s : State) : Nat := nodeX (ownNode s)

/-- The numbers below a count whose residue by a modulus is given, as their quotients: how many there are. -/
def residues (count m r : Nat) : Nat := (count + m - 1 - r % m) / m

/-! ## Pages on this module (R219, R220) -/

/-- Tier 1 offset of frame `j` of a slot and group under a frame record. -/
def frameAt (k : KvLayout) (r : KvFrame) (slot g j : Nat) : Nat :=
  r.base + (slot - r.first) * r.slotStride + g * r.groupStride + j * pageBytes k.format

/-- Whether a record's slots hold a slot. -/
def inSlots (first count slot : Nat) : Bool := decide (first ≤ slot) && decide (slot < first + count)

/-- The frame record of a layer and slot. -/
def frameRec (k : KvLayout) (layer slot : Nat) : Option KvFrame :=
  k.frames.find? (fun r => decide (r.layer = layer) && inSlots r.first r.count slot)

/-- The ordinal of page `p` of a layer on this module, if this module is its home (R191, R219). -/
def pageOrdinal (s : State) (k : KvLayout) (layer slot p : Nat) : Option Nat :=
  if k.localSlots ≤ slot then (if (p + layer) % max k.n 1 = moduleIndex s then some (p / max k.n 1) else none)
  else if p % 4 = traySlot s then some (p / 4)
  else none

/-- How many of the first pages of a layer have their home on this module. -/
def pagesHere (s : State) (k : KvLayout) (layer slot pages : Nat) : Nat :=
  if k.localSlots ≤ slot then
    let n := max k.n 1
    residues pages n ((moduleIndex s + n - layer % n) % n)
  else residues pages 4 (traySlot s)

/-- A name for a page of a sequence: whether it holds parity, its layer (of parity, the group's first one), its group and its number. -/
def cachePage (parity : Bool) (layer g p : Nat) : Nat := b2n parity * 2 ^ 60 + layer * 2 ^ 40 + g * 2 ^ 32 + p

/-- The number of the page with ordinal `j` of a layer on this module (R191, R219). -/
def pageNumber (s : State) (k : KvLayout) (layer slot j : Nat) : Nat :=
  if k.localSlots ≤ slot then
    let n := max k.n 1
    j * n + (moduleIndex s + n - layer % n) % n
  else j * 4 + traySlot s

/-- The tile runs (page, offset and tiles) that hold the sealed pages of a slot on this module, for a number of pages (R220). -/
def slotPages (s : State) (k : KvLayout) (slot pages : Nat) : List (Nat × Nat × Nat) :=
  ((k.frames.filter (fun r => inSlots r.first r.count slot)).map (fun r =>
    ((upFrom 0 k.groups).map (fun g =>
      (upFrom 0 (min r.pages (pagesHere s k r.layer slot pages))).map (fun j =>
        (cachePage false r.layer g (pageNumber s k r.layer slot j), frameAt k r slot g j, pageBytes k.format / 4096)))).flatten)).flatten

/-- The first member layer of a parity record. -/
def parityFirst (r : KvParity) : Nat := nth r.layers 0 0

/-- The ordinal of sealed parity page `p` on this module, if it is its home (R220). -/
def parityOrdinal (s : State) (k : KvLayout) (r : KvParity) (p : Nat) : Option Nat :=
  if r.mode = 1 then (if (p + parityFirst r + 7) % max k.n 1 = moduleIndex s then some (p / max k.n 1) else none)
  else if r.tray = ownNode s - traySlot s ∧ p % 4 = traySlot s then some (p / 4)
  else none

/-- Tier 1 offset of sealed parity page `j` of a slot. -/
def sealedParityAt (r : KvParity) (slot j : Nat) : Nat := r.sealedBase + (slot - r.first) * r.sealedStride + j * 98304

/-- The tile runs that hold the sealed parity pages of a slot on this module, with the pages. -/
def slotParity (s : State) (k : KvLayout) (slot pages : Nat) : List (Nat × Nat × Nat) :=
  ((k.parity.filter (fun r => inSlots r.first r.count slot)).map (fun r =>
    let m := if r.mode = 1 then max k.n 1 else 4
    let p0 := if r.mode = 1 then (moduleIndex s + m * 1032 - (parityFirst r + 7)) % m else traySlot s
    let n := if r.mode = 1 ∨ r.tray = ownNode s - traySlot s then residues pages m p0 else 0
    (upFrom 0 n).map (fun j => (cachePage true (parityFirst r) r.group (j * m + p0), sealedParityAt r slot j, 24)))).flatten

/-! ## Scratchpad rings and staging (R194, R196) -/

/-- The ring record of a layer, group and slot, with the physical core that carries its writer. -/
def ringRec (s : State) (k : KvLayout) (layer group slot : Nat) : Option (KvRing × Nat) :=
  match k.rings.find? (fun r => decide (r.layer = layer) && decide (r.group = group) && inSlots r.first r.count slot) with
  | none => none
  | some r =>
    match physOf s r.die r.core with
    | none => none
    | some c => some (r, c)

/-- Scratchpad address of the ring line of position `q` of a slot (R194, R220). -/
def ringLine (s : State) (r : KvRing) (c slot q : Nat) : Nat :=
  ctxBase s c r.ctx + (r.ring + (slot - r.first) * 0x400) * 256 + q % 512 * 512

/-- Element format and scale mode of a cache format (R195). -/
def cacheFmt (format : Nat) : Nat × Nat :=
  match format with
  | 0 => (3, 1)
  | 1 => (8, 1)
  | 2 => (7, 2)
  | _ => (9, 2)

/-- Row pitch of a cache format in 64-byte units. -/
def cachePitch (format : Nat) : Nat := if format ≤ 1 then 2 else 1

/-- A CONVERT command over 128 rows of 128 channels (R73, R196): source address, format, scale mode and pitch, and the same of the destination. -/
def convertDesc (a fa sa pa b fb sb pb : Nat) : BitVec 512 :=
  let w (k v : Nat) : BitVec 512 := BitVec.ofNat 512 (v * 2 ^ (32 * k))
  w 0 0x48 ||| w 2 (a + fa * 2 ^ 25 + sa * 2 ^ 29) ||| w 4 (b + fb * 2 ^ 25 + sb * 2 ^ 29) ||| w 6 (127 + 127 * 2 ^ 7) ||| w 7 (pa + pb * 2 ^ 16)

/-- The effect of a CONVERT that the firmware has a core run, with its data events (R103, R196). -/
def runConvert (s : State) (c : Nat) (d : BitVec 512) : State :=
  let r := vxeData d 0 s.fresh (core s c) (core s c)
  reportEvents (updCore s c (fun x => { x with spm := r.1.x.spm, poison := r.1.x.poison })) (coreDie c) (corePage c 2) (cmdInfo d 1 0) r.1.events

/-- Staging place of command `i` of a seal: the commands follow one another where the area is long enough (DESIGN CHOICE, log entry 41). -/
def stageAt (s : State) (k : KvLayout) (r : KvRing) (c i : Nat) : Nat :=
  let n := 128 * (cachePitch k.format + 1) * 64
  ctxBase s c r.ctx + r.stage * 256 + (if (i + 1) * n ≤ r.stageUnits * 256 then i * n else 0)

/-- One of the four conversions of a page (R196): part 0 is K and part 1 V, halves 0 and 1; the bytes staged with the marks of their poisoned
words. -/
def sealPart (k : KvLayout) (r : KvRing) (c slot page : Nat) (acc : State × List (List Byte × List Nat)) (i : Nat) :
    State × List (List Byte × List Nat) :=
  let f := cacheFmt k.format
  let z := stageAt acc.1 k r c i
  let a := ringLine acc.1 r c slot (page * 256 + i % 2 * 128) + i / 2 * 256
  let s1 := runConvert acc.1 c (convertDesc a 1 0 8 z f.1 f.2 (cachePitch k.format))
  let n := 128 * (cachePitch k.format + 1) * 64
  (s1, acc.2 ++ [(spmRead (core s1 c) z n, spmMarks (core s1 c) z n)])

/-- A part of a page in its frame's layout: the element rows of both halves, then the scale rows of both halves (R195, R196). -/
def joinPart (k : KvLayout) (h0 h1 : List Byte) : List Byte :=
  let n := 128 * cachePitch k.format * 64
  h0.take n ++ h1.take n ++ h0.drop n ++ h1.drop n

/-- Where word `w` of half `h` of a part lies in the frame's layout, in words. -/
def joinWord (k : KvLayout) (h w : Nat) : Nat :=
  let n := 16 * cachePitch k.format * 64
  if w < n then h * n + w else 2 * n + h * 1024 + (w - n)

/-- The firmware seals a page whose writer is on this module: the conversions, and the page as it is copied, with the marks of the words that
were poisoned in the ring (R84, R196). -/
def sealBytes (s : State) (k : KvLayout) (r : KvRing) (c slot page : Nat) : State × List Byte × List Nat :=
  let a := foldState (sealPart k r c slot page) (s, []) (upFrom 0 4)
  let p (i : Nat) : List Byte × List Nat := nth a.2 i ([], [])
  let m (i : Nat) : List Nat := (p i).2.map (fun w => i / 2 * (pageBytes k.format / 16) + joinWord k (i % 2) w)
  (a.1, joinPart k (p 0).1 (p 1).1 ++ joinPart k (p 2).1 (p 3).1, m 0 ++ m 1 ++ m 2 ++ m 3)

/-- The key of a SEALED_LIMIT word (R198). -/
def sealKey (job slot layer group : Nat) : Nat := job * 2 ^ 38 + slot * 2 ^ 26 + layer * 2 ^ 16 + group

/-- Clean zero bytes over a range of Tier 1, as FILL or the firmware writes them (R211, R214). -/
def zeroT1 (s : State) (lo hi : Nat) : State :=
  foldState (fun u l => setLine u l .clean) { s with t1 := mapEraseRange s.t1 lo hi } (linesOf lo (hi - lo))

/-- The bytes of a range of Tier 1 as the firmware copies them, with the marks of their poisoned words (R84, R291). -/
def t1Copy (s : State) (off n : Nat) : List Byte × List Nat :=
  (t1Bytes s off n, lineMarks off n ((linesOf off n).filter (fun l => decide (lineSt s l ≠ .clean))))

/-- The parity records of a page move from the open holder to their sealed home, a lost line poisoned, and the vacated lines are zeroed (R210,
R214). Bytes for another module are shown in `lastBytes`. -/
def moveParity (s : State) (k : KvLayout) (r : KvParity) (slot page : Nat) : State :=
  if r.holder = ownNode s then
    let a := r.pb + (slot - r.first) * r.pbStride + page * 256 * 384
    let b := t1Copy s a 98304
    let s1 :=
      match parityOrdinal s k r page with
      | some j => (t1Write s (sealedParityAt r slot j) b.1 b.2).1
      | none => { s with lastBytes := b.1 }
    zeroT1 s1 a (a + 98304)
  else s

/-- The parity record of a slot and group whose first member is a layer. -/
def parityRec (k : KvLayout) (slot layer group : Nat) : Option KvParity :=
  k.parity.find? (fun r => inSlots r.first r.count slot && decide (r.group = group) && decide (parityFirst r = layer))

/-- The move of a page's parity records that is due (R214). -/
def dueParity (s : State) (m : ParityMove) : State :=
  match kvOf s m.job with
  | none => s
  | some k =>
    match parityRec k m.slot m.layer m.group with
    | none => s
    | some r => moveParity s k r m.slot m.page

/-- The moves of parity records whose last record has been sent: those of a step go out in the frame of the next one (R212, R214). -/
def dueParities (s : State) : State :=
  let due (m : ParityMove) : Bool := decide (m.step ≤ jobStep (frsOf s 0) m.job)
  foldState dueParity (updServ s (fun v => { v with parityWait := v.parityWait.filter (fun m => !due m) })) (s.serv.parityWait.filter due)

/-- The FP32 word of a SEALED_LIMIT (R198). -/
def limitWord (n : Nat) : Word := f32ofRat .nearestEven false n 1 0

/-- SEALED_LIMIT of a job slot, layer and group: the firmware writes it into the copy that the next frame reads (R198). -/
def putLimit (s : State) (key limit : Nat) : State :=
  updServ s (fun v => { v with
    sealedTo := mapPut 0 v.sealedTo key limit, sealedCopy := mapPut 0#32 v.sealedCopy (2 * key + (frameNum s 0 + 1) % 2) (limitWord limit) })

/-- In every frame the firmware brings the copies that the next frame reads up to date (R198, log entry 122). -/
def copyLimits (s : State) : State :=
  updServ s (fun v => { v with
    sealedCopy := foldState (fun m p => mapPut 0#32 m (2 * p.1 + (frameNum s 0 + 1) % 2) (limitWord p.2)) v.sealedCopy v.sealedTo })

/-- The firmware seals a page of a slot, layer and group (R196): what this module does of it. -/
def sealLines (s : State) (k : KvLayout) (slot layer group page : Nat) : State :=
  match ringRec s k layer group slot with
  | none => s
  | some (r, c) =>
    let b := sealBytes s k r c slot page
    let s2 :=
      match frameRec k layer slot, pageOrdinal s k layer slot page with
      | some fr, some j => (t1Write b.1 (frameAt k fr slot group j) b.2.1 b.2.2).1
      | _, _ => { b.1 with lastBytes := b.2.1 }
    putLimit s2 (sealKey k.job slot layer group) (256 * (page + 1))

/-- The firmware seals a page (R196, R214). The seal of a parity group's first member carries the move of its records (log entry 42), which waits
until the last of them has been sent: where frames run, until the boundary two steps on. -/
def sealPage (s : State) (k : KvLayout) (slot layer group page : Nat) : State :=
  let s1 := sealLines s k slot layer group page
  match parityRec k slot layer group with
  | none => s1
  | some r =>
    if frsRunning s1 0 then
      let m : ParityMove := { job := k.job, slot := slot, group := group, layer := layer, page := page, step := jobStep (frsOf s1 0) k.job + 2 }
      updServ s1 (fun v => { v with parityWait := v.parityWait ++ [m] })
    else moveParity s1 k r slot page

/-! ## Last page, rings and parity lines of a slot that is parked or resumed (R215, R217) -/

/-- The ring lines of a slot from a position to the end of its page are zeroed (R215). -/
def zeroTail (s : State) (r : KvRing) (c slot len : Nat) : State :=
  foldState (fun u q => updCore u c (fun x => spmZero x (ringLine u r c slot q) (ringLine u r c slot q + 512))) s (upFrom len (256 - len % 256))

/-- A page is sealed whose records have all been sent: its parity moves with it (R214, R215). -/
def sealDone (s : State) (k : KvLayout) (slot layer group page : Nat) : State :=
  let s1 := sealLines s k slot layer group page
  match parityRec k slot layer group with
  | none => s1
  | some r => moveParity s1 k r slot page

/-- The last partial page of every layer and group is sealed, its rows beyond LEN zero (R215 step 2). The slot was free only DEPTH steps after its
last append, so the records of that step have been sent (R212, R215 step 3). -/
def sealLast (s : State) (k : KvLayout) (slot len : Nat) : State :=
  if len % 256 = 0 then s
  else
    foldState (fun u layer =>
      foldState (fun v g =>
        match ringRec v k layer g slot with
        | none => sealDone v k slot layer g (len / 256)
        | some (r, c) => sealDone (zeroTail v r c slot len) k slot layer g (len / 256)) u (upFrom 0 k.groups)) s (upFrom 0 k.layers)

/-- The slot's rings and parity lines on this module are zeroed (R215 step 5). -/
def zeroSlot (s : State) (k : KvLayout) (slot len : Nat) : State :=
  let s1 := foldState (fun u r =>
    match physOf u r.die r.core with
    | none => u
    | some c =>
      if inSlots r.first r.count slot then
        let a := ctxBase u c r.ctx + (r.ring + (slot - r.first) * 0x400) * 256
        updCore u c (fun x => spmZero x a (a + 262144))
      else u) s k.rings
  foldState (fun u r =>
    if r.holder = ownNode u ∧ inSlots r.first r.count slot = true then
      let a := r.pb + (slot - r.first) * r.pbStride
      zeroT1 u (a + (len / 256 - 2) * 256 * 384) (a + (len + 256) / 256 * 256 * 384)
    else u) s1 k.parity

/-- Free bytes, and the state after they are drawn. -/
def freeBytes (s : State) (rule n : Nat) : List Byte × State :=
  ((upFrom 0 n).map (fun i => BitVec.ofNat 8 (Config.freeWord rule i s.fresh).toNat), { s with fresh := s.fresh + 1 })

/-- The bytes of a sealed page with the marks of its poisoned words, and the state: of a page on another module the bytes are a free value (log
entry 89). -/
def pageSource (s : State) (k : KvLayout) (layer g slot p : Nat) : State × List Byte × List Nat :=
  match frameRec k layer slot, pageOrdinal s k layer slot p with
  | some fr, some j => (s, t1Copy s (frameAt k fr slot g j) (pageBytes k.format))
  | _, _ =>
    let b := freeBytes s 217 (pageBytes k.format)
    (b.2, b.1, [])

/-- Words of a list of marks from word `a` on, as many as `n`, counted from `b`. -/
def cutMarks (l : List Nat) (a n b : Nat) : List Nat := (l.filter (fun w => decide (a ≤ w) && decide (w < a + n))).map (fun w => w - a + b)

/-- A quarter of a sealed page goes back to the ring as BF16 values of its rows (R213, R217): part 0 is K and part 1 V, halves 0 and 1. -/
def restorePart (k : KvLayout) (r : KvRing) (c slot p : Nat) (bytes : List Byte) (marks : List Nat) (s : State) (i : Nat) : State :=
  let f := cacheFmt k.format
  let n := 128 * cachePitch k.format * 64
  let o := i / 2 * (pageBytes k.format / 2)
  let half := (bytes.drop (o + i % 2 * n)).take n ++ (bytes.drop (o + 2 * n + i % 2 * 8192)).take 8192
  let m := cutMarks marks ((o + i % 2 * n) / 8) (n / 8) 0 ++ cutMarks marks ((o + 2 * n + i % 2 * 8192) / 8) 1024 (n / 8)
  let z := stageAt s k r c i
  let s1 := updCore s c (fun x => spmStore x z half m)
  runConvert s1 c (convertDesc z f.1 f.2 (cachePitch k.format) (ringLine s1 r c slot (p * 256 + i % 2 * 128) + i / 2 * 256) 1 0 8)

/-- A page of every layer and group whose writer is on this module goes back to its ring (R213, R217). -/
def restorePage (s : State) (k : KvLayout) (slot p : Nat) : State :=
  foldState (fun u layer =>
    foldState (fun v g =>
      match ringRec v k layer g slot with
      | none => v
      | some (r, c) =>
        let b := pageSource v k layer g slot p
        foldState (restorePart k r c slot p b.2.1 b.2.2) b.1 (upFrom 0 4)) u (upFrom 0 k.groups)) s (upFrom 0 k.layers)

/-- The page that holds position LEN − 1 goes back to the ring, unless LEN is a multiple of 256 (R217). -/
def restoreRing (s : State) (k : KvLayout) (slot len : Nat) : State := if len % 256 = 0 then s else restorePage s k slot (len / 256)

/-- The rebuilt positions of the writer's window go back to the ring: the page that holds position LEN − 1 and the one before it cover the 256
most recent positions (R197, R213). -/
def restoreWindow (s : State) (k : KvLayout) (slot len : Nat) : State :=
  foldState (fun u p => restorePage u k slot p) s ((upFrom ((len - 256) / 256) (ceilDiv len 256 - (len - 256) / 256)))

end Sys2Proof.Machine
end

