-- ==== Sys2Proof/Machine/Transfers.lean ====
section
/-!
DEFINITION. Sys2Proof/Machine/Transfers.lean: sets of tier moves that the firmware carries out (R215, R217, R244, R270, R303), and the Tier 2
extents it gives them (R277, log entry 43).
-/
namespace Sys2Proof.Machine

/-! ## Tier 2 extents -/

/-- The Tier 2 tiles that sessions, models, and grafts hold, as first tile and count. -/
def heldTiles (s : State) : List (Nat × Nat) :=
  let ofPieces (l : List Piece) : List (Nat × Nat) := l.map (fun p => (p.t2, p.tiles))
  (s.serv.sessions.map (fun x => match x.2 with
    | none => []
    | some y => ofPieces y.ext)).flatten
    ++ (s.serv.models.map (fun x => ofPieces x.2.ext)).flatten
    ++ (s.serv.pool.map (fun x => match x.2 with
      | none => []
      | some y => ofPieces y.ext)).flatten

/-- Whether a run of tiles of the window lies in mapped segments and meets no held extent. -/
def tilesFree (s : State) (held : List (Nat × Nat)) (a n : Nat) : Bool :=
  decide (a + n ≤ 2 ^ 28)
    && (upFrom (a / 2 ^ 20) ((a + n - 1) / 2 ^ 20 + 1 - a / 2 ^ 20)).all (fun k => tbit (hlk s (0x800 + 4 * k)) 31)
    && held.all (fun h => decide (a + n ≤ h.1) || decide (h.1 + h.2 ≤ a))

/-- The lowest free run of `n` tiles of the window (log entry 43). -/
def findTiles (s : State) (n : Nat) : Option Nat :=
  let held := heldTiles s
  let starts := (upFrom 0 256).map (fun k => k * 2 ^ 20) ++ held.map (fun h => h.1 + h.2)
  let fit := starts.filter (fun a => tilesFree s held a n)
  match fit with
  | [] => none
  | a :: r => some (foldState min a r)

/-- Tile runs of Tier 1 paired with consecutive tiles of the window from one on, cut into moves of at most 32,768 tiles (R303). -/
def pieces (inward : Bool) (t2 : Nat) (l : List (Nat × Nat)) : List Piece :=
  match l with
  | [] => []
  | (a, n) :: r =>
    (upFrom 0 (ceilDiv n 32768)).map (fun i =>
      { t1 := a + i * 32768 * 4096, t2 := t2 + i * 32768, tiles := min 32768 (n - i * 32768), inward := inward })
      ++ pieces inward (t2 + n) r

/-- Tiles of a list of runs. -/
def tilesOf (l : List (Nat × Nat)) : Nat := foldState (fun a x => a + x.2) 0 l

/-- First tile of the extents a set of pieces uses. -/
def firstTile (l : List Piece) : Nat :=
  match l with
  | [] => 0
  | p :: _ => p.t2

/-! ## Moves (R303) -/

/-- The firmware queues one piece by the TM registers. -/
def queuePiece (s : State) (key : Nat) (p : Piece) : State :=
  let tag := s.serv.nextTag
  let s1 := setReg (setReg s 98 8 0x600 (BitVec.ofNat 32 (p.t1 % 2 ^ 32))) 98 8 0x604 (BitVec.ofNat 32 (p.t1 / 2 ^ 32))
  let s2 := setReg (setReg s1 98 8 0x608 (BitVec.ofNat 32 p.t2)) 98 8 0x60C (BitVec.ofNat 32 (p.tiles - 1 + b2n p.inward * 2 ^ 16))
  let s3 := updServ s2 (fun v => { v with nextTag := (tag + 1) % 65536, tags := mapSet v.tags tag key })
  queueMove s3 (BitVec.ofNat 32 tag)

/-- Pieces of a transfer queued while the mover's queue has places. -/
def pumpOne (fuel : Nat) (s : State) (key : Nat) : State :=
  match fuel with
  | 0 => s
  | f + 1 =>
    match mapGet s.serv.transfers key none with
    | none => s
    | some x =>
      match x.todo with
      | [] => s
      | p :: r =>
        if s.mover.queue.length ≥ 64 then s
        else
          pumpOne f (queuePiece (updServ s (fun v => { v with transfers := mapSet v.transfers key (some { x with todo := r, open_ := x.open_ + 1 }) }))
            key p) key

/-- Every transfer queues what it can, oldest first. -/
def pumpTransfers (s : State) : State := foldState (fun u x => pumpOne 64 u x.1) s s.serv.transfers

/-- A new transfer: its number and the state. -/
def startTransfer (s : State) (kind key : Nat) (l : List Piece) : State :=
  let n := s.serv.nextKey
  pumpTransfers (updServ s (fun v => { v with
    nextKey := n + 1, transfers := mapSet v.transfers n (some { kind := kind, key := key, todo := l, open_ := 0, status := 0 }) }))

/-- One completion of a move of the firmware is taken: its transfer has one move fewer. A move that failed ends the rest of its transfer. -/
def takeDone (s : State) (d : MoveDone) : State :=
  match mapFind s.serv.tags d.tag with
  | none => s
  | some key =>
    let s1 := updServ (setReg s 98 8 0x620 (BitVec.ofNat 32 (d.status + d.moved * 2 ^ 16))) (fun v => { v with tags := mapErase v.tags d.tag })
    match mapGet s1.serv.transfers key none with
    | none => s1
    | some x =>
      let bad := decide (d.status = 0x3060) || decide (d.status = 0x3061) || decide (d.status = 0x4013)
      let y := { x with open_ := x.open_ - 1, status := if x.status = 0 ∧ bad = true then d.status else x.status,
                        todo := if bad then [] else x.todo }
      updServ s1 (fun v => { v with transfers := mapSet v.transfers key (some y) })

/-- The firmware reads the completions of its own moves (R307). -/
def takeDones (s : State) : State :=
  let own := s.mover.done.filter (fun d => (mapFind s.serv.tags d.tag).isSome)
  foldState takeDone (putMover s { s.mover with done := s.mover.done.filter (fun d => (mapFind s.serv.tags d.tag).isNone) }) own

/-- Transfers that have ended: nothing to queue and nothing open. -/
def endedTransfers (s : State) : List (Nat × Transfer) :=
  (s.serv.transfers.map (fun p => match p.2 with
    | some x => if x.todo.isEmpty && decide (x.open_ = 0) then [(p.1, x)] else []
    | none => [])).flatten

/-- The ended transfers are taken out. -/
def dropEnded (s : State) (l : List (Nat × Transfer)) : State :=
  updServ s (fun v => { v with transfers := foldState (fun m p => mapErase m p.1) v.transfers l })

/-! ## Moves and a module loss (R218, R272, R300) -/

/-- A module loss interrupts every transfer: the firmware's queued moves are dropped, and the transfers start again under the fallback plan. -/
def haltTransfers (s : State) : State :=
  let l := (s.serv.transfers.map (fun p => match p.2 with
    | some x => [(x.kind, x.key)]
    | none => [])).flatten
  let own (m : Move) : Bool := (mapFind s.serv.tags m.tag).isSome
  let s1 := putMover s { s.mover with queue := s.mover.queue.filter (fun m => !own m) }
  updServ s1 (fun v => { v with transfers := [], again := v.again ++ l })

end Sys2Proof.Machine
end

