-- ==== Sys2Proof/Machine/Loading.lean ====
section
/-!
DEFINITION. Sys2Proof/Machine/Loading.lean: manifests (R369 to R372, R376), the load engine of die 1 (R377 to R379, R384), and the digest engines
of the memory dies (R380, R385).
-/
namespace Sys2Proof.Machine

/-! ## Manifests (R369 to R372, R376) -/

/-- Whether a manifest's header is sound and its digest and signature hold (R370, R372). -/
def manifestTrusted (s : State) (b : List Byte) (sigOk : Bool) : Bool :=
  decide (leAt b 0 4 = 0x4D505956) && decide (leAt b 4 4 / 65536 = 1) && decide (leAt b 8 1 ≤ 1) && decide (leAt b 9 1 ≤ 1) && zeroAt b 10 2
    && decide (leAt b 0xC 4 ≥ 1) && decide (leAt b 0xC 4 ≤ 1048576) && decide (b.length = 256 + 96 * leAt b 0xC 4) && zeroAt b 0x1C 4
    && zeroAt b 0x58 8 && zeroAt b 0xF0 16
    && (match s.plan with
      | none => false
      | some pl => decide (leAt b 8 1 = 1) || decide (leAt b 0x10 8 = pl.id - pl.unit))
    && (if leAt b 8 1 = 1 then decide (leAt b 0x10 8 = 0) && decide (leAt b 0x18 4 ≤ 65535) else decide (leAt b 0x18 4 = 0xFFFFFFFF))
    && digestIs (b.drop 256) (bytesAt b 0x60 48) && sigOk

/-- The entries of a manifest. -/
def manifestEntries (b : List Byte) : List (List Byte) := recsAt b 256 96 (leAt b 0xC 4)

/-- Whether a run of tiles lies within a stack, or within the implemented part of a slot (R369). -/
def shardPlace (off tiles : Nat) : Bool :=
  match homeOf off with
  | .tier1 _ b => decide (b + tiles * 4096 ≤ stackSize)
  | .tier0 _ _ b => decide (b + tiles * 4096 ≤ 0x01800000)
  | _ => false

/-- The extents of every module in the unit in force. -/
def planExtents (s : State) : List (Nat × Extent) :=
  match s.plan with
  | none => []
  | some pl => sliceExtents s s.container pl.unit

/-- Whether an entry of a manifest breaks R369, R371 or R372. -/
def entryBad (s : State) (isSealed : Bool) (es : List (Nat × Extent)) (i : Nat) (e : List Byte) : Bool :=
  let node := leAt e 4 2
  let off := leAt e 8 8
  let tiles := leAt e 16 4
  !(decide (leAt e 0 4 = i) && zeroAt e 7 1 && zeroAt e 24 8 && decide (off % 4096 = 0) && decide (1 ≤ tiles) && decide (tiles ≤ 65536)
    && shardPlace off tiles && (!isSealed || decide (node = ownNode s))
    && es.any (fun x => decide (x.1 = node) && decide (x.2.offset ≤ off) && decide (off + tiles * 4096 ≤ x.2.offset + x.2.tiles * 4096)
      && decide (x.2.member = leAt e 6 1) && decide (x.2.pgroup = leAt e 20 4) && decide ((off - x.2.offset) % (65536 * 4096) = 0)
      && (decide (tiles = 65536) || decide (off + tiles * 4096 = x.2.offset + x.2.tiles * 4096))))

/-- The number of the first item of a list that meets a test. -/
def findIndex {α : Type} (p : Nat → α → Bool) (i : Nat) (l : List α) : Option Nat :=
  match l with
  | [] => none
  | x :: r => if p i x then some i else findIndex p (i + 1) r

/-- The error of a manifest, with its ERR_INFO, or none (R372, R376, R386). -/
def manifestFault (s : State) (b : List Byte) (sigOk : Bool) : Option (Nat × Nat) :=
  let isSealed := decide (leAt b 9 1 % 2 = 1)
  if !manifestTrusted s b sigOk then some (0x8040, leAt b 8 1 % 2)
  else if isSealed && decide (leAt b 8 1 = 0) && decide ((planNodes s s.container).length > 8) then some (0x10B1, 0)
  else
    match findIndex (entryBad s isSealed (planExtents s)) 0 (manifestEntries b) with
    | some i => some (0x10B1, i)
    | none => none

/-- The shards of a manifest: those of this module where it is sealed; their bytes follow one another from an address on. -/
def manifestShards (s : State) (b : List Byte) (host : Nat) (staged : Bool) : List Shard :=
  let es := manifestEntries b
  let all := (upFrom 0 es.length).map (fun i =>
    let e := nth es i []
    ({ index := i, node := leAt e 4 2, member := leAt e 6 1, off := leAt e 8 8, tiles := leAt e 16 4, pgroup := leAt e 20 4,
       digest := bytesAt e 32 48, tag := bytesAt e 80 16, words := (upFrom 0 8).map (fun w => BitVec.ofNat 32 (leAt e (4 * w) 4)),
       host := host + foldState (fun a x => a + leAt x 16 4 * 4096) 0 (es.take i), isSealed := decide (leAt b 9 1 % 2 = 1), pool := staged,
       attempts := 0, st := 0, seenMs := 0, rebuild := false } : Shard))
  all.filter (fun x => decide (x.node = ownNode s) || !x.isSealed)

/-! ## The load engine (R377, R384) -/

/-- A register of die 1's HLK page. -/
def ldReg (s : State) (off : Nat) : Word := reg s 1 8 off

/-- The load engine with a change. -/
def updLoader (s : State) (f : Loader → Loader) : State := { s with loader := f s.loader }

/-- The offset, tiles and node of a shard's placement words (R371). -/
def shardOff (x : LdShard) : Nat := (nth x.words 2 0#32).toNat + fld (nth x.words 3 0#32) 0 16 * 2 ^ 32
/-- TILES. -/
def shardTiles (x : LdShard) : Nat := (nth x.words 4 0#32).toNat
/-- NODE. -/
def shardNode (x : LdShard) : Nat := fld (nth x.words 1 0#32) 0 16

/-- A shard ends with a status (R379, R386). -/
def endShard (s : State) (x : LdShard) (status : Nat) : State :=
  let s1 := updLoader s (fun l => { l with done := l.done ++ [(x.tag, status)] })
  let s2 := if status = 0 then count s1 1 8 0x65 1 else s1
  match status with
  | 0x4060 => recordError s2 1 8 0x4060 x.tag
  | 0x8041 => recordError s2 1 8 0x8041 x.tag
  | 0x8042 => recordError s2 (decryptorDie x) 8 0x8042 x.tag
  | _ => s2

/-- A shard enters the load engine; a sealed one without a key completes with 0x8041 (R377). -/
def queueShard (s : State) (x : LdShard) : State :=
  if x.isSealed && (mapGet s.loader.keys (decryptorDie x) none).isNone then endShard s x 0x8041
  else updLoader s (fun l => { l with queue := l.queue ++ [x] })

/-- A refused write of a load engine register. -/
def ldRefuse (s : State) (off : Nat) : State := recordError s 1 8 0x10B2 off

/-- The shard that the LD registers describe. -/
def shardOfRegs (s : State) (tag : Nat) : LdShard :=
  let d := (ldReg s 0xC0C).toNat
  { host := (ldReg s 0xC00).toNat + (ldReg s 0xC04).toNat * 2 ^ 32, isSealed := tbit (ldReg s 0xC08) 0, pool := false, tag := tag,
    words := (upFrom 0 8).map (fun i => ldReg s (0xC20 + 4 * i)), gcm := (upFrom 0 4).map (fun i => ldReg s (0xC40 + 4 * i)),
    due := s.now + (if d = 0 then 976563 else d) * 160 * 64 }

/-- A write of a load engine register of die 1 (R384). -/
def writeLd (s : State) (off : Nat) (v : Word) : State :=
  match off with
  | 0xC00 => if v.toNat % 4096 ≠ 0 then ldRefuse s off else setReg s 1 8 off v
  | 0xC08 => setReg s 1 8 off (v &&& 1#32)
  | 0xC10 =>
    if s.loader.queue.length ≥ 32 ∨ shardOff (shardOfRegs s 0) % 4096 ≠ 0 then ldRefuse s off else queueShard s (shardOfRegs s (fld v 0 16))
  | _ => if off = 0xC04 ∨ off = 0xC0C ∨ (0xC20 ≤ off ∧ off < 0xC50) then setReg s 1 8 off v else s

/-- SHARD_QUEUE (R384). -/
def execShardQueue (t : Time) (v : Word) (s : State) : Host.Outcome State Fault Refusal :=
  .next (pageWrite (advance s t) 1 8 0xC10 false (fun u => writeLd u 0xC10 v))

/-- A read of LD_DONE pops one completion and latches LD_DONE_INFO (R384). -/
def readLdDone (s : State) : State × Word :=
  match s.loader.done with
  | [] => (s, 0#32)
  | (tag, st) :: r => (setReg (updLoader s (fun l => { l with done := r })) 1 8 0xC1C (BitVec.ofNat 32 st), BitVec.ofNat 32 (tag + 65536))

/-- LD_DONE_READ (R384). -/
def execLdDoneRead (t : Time) (s : State) : Host.Outcome State Fault Refusal :=
  let s1 := advance s t
  if reachable s1 1 8 then
    let r := readLdDone s1
    .next { r.1 with lastRead := r.2 }
  else .next s1

/-- LD_STATUS as it reads (R384). -/
def ldStatus (s : State) : Word :=
  let key := mapGet s.loader.keys 1 none
  BitVec.ofNat 32 (s.loader.queue.length - 1 + b2n (!s.loader.queue.isEmpty) * 256
    + (match key with
      | none => 0
      | some k => 512 + k.id % 65536 * 65536))

/-- The firmware queues shards of its models while the load engine has places: one at a time in order (R372, R378). -/
def feedShard (s : State) (m : Nat) (x : Shard) : State :=
  let tag := s.loader.nextTag
  let y : LdShard :=
    { host := x.host, isSealed := x.isSealed, pool := x.pool, tag := tag, words := x.words,
      gcm := (upFrom 0 4).map (fun i => BitVec.ofNat 32 (leAt x.tag (4 * i) 4)), due := s.now + 976563 * 160 * 64 }
  queueShard (updLoader s (fun l => { l with nextTag := (tag + 1) % 65536, tags := mapSet l.tags tag (m * 2 ^ 20 + x.index) })) y

/-- A model's record. -/
def modelOf (s : State) (m : Nat) : Model := mapGet s.serv.models m Model.absent

/-- The state with a model's record changed. -/
def updModel (s : State) (m : Nat) (f : Model → Model) : State :=
  updServ s (fun v => { v with models := mapPut Model.absent v.models m (f (modelOf s m)) })

/-- The state with a shard of a model changed. -/
def updShard (s : State) (m i : Nat) (f : Shard → Shard) : State :=
  updModel s m (fun x => { x with shards := x.shards.map (fun y => if y.index = i then f y else y) })

/-- The firmware feeds the load engine from a model's shards. -/
def feedModel (s : State) (m : Nat) : State :=
  foldState (fun u (x : Shard) =>
    if x.st = 0 ∧ u.loader.queue.length < 32 then feedShard (updShard u m x.index (fun y => { y with st := 1, attempts := y.attempts + 1 })) m x
    else u) s (modelOf s m).shards

/-- Plain bytes written over a run of tiles of this module (R378, R379). -/
def writeTiles (s : State) (off : Nat) (l : List Byte) : State :=
  match homeOf off with
  | .tier1 _ _ => (t1Write s off l []).1
  | .tier0 o k b =>
    match physOf s (cpDie o) k with
    | some c => updCore s c (fun x => spmWrite x b l false)
    | none => s
  | _ => s

/-- Never-written poison over a run of tiles (R291, R377); the words of a scratchpad are poisoned (DEDUCED, log entry 127). -/
def poisonTiles (s : State) (off tiles : Nat) : State :=
  match homeOf off with
  | .tier0 o k b =>
    match physOf s (cpDie o) k with
    | some c => updCore s c (fun x => spmWrite x b (List.replicate (tiles * 4096) 0#8) true)
    | none => s
  | _ => neverRange s (off / 64) (tiles * 64)

/-- The additional authenticated data of a shard: its placement words (R377). -/
def shardAad (x : LdShard) : List Byte := (x.words.map (fun w => toLE 4 w.toNat)).flatten

/-- The shard's bytes after decryption, or none where the tag does not hold (R377). -/
def openShard (s : State) (x : LdShard) (data : List Byte) : Option (List Byte) :=
  match mapGet s.loader.keys (decryptorDie x) none with
  | none => none
  | some k =>
    let iv := k.salt + (nth x.words 0 0#32).toNat * 2 ^ 64
    let tag := BitVec.ofNat 128 (ofLE ((x.gcm.map (fun w => toLE 4 w.toNat)).flatten))
    if Config.gcmTag k.key iv (shardAad x) data = tag then some (Config.gcmCrypt k.key iv data) else none

/-- The running shard ends: its bytes, with the error of the host read or of a write at its home (R377, R379). -/
def landShard (s : State) (x : LdShard) (data : List Byte) (err : Nat) : State :=
  let s0 := updLoader s (fun l => { l with queue := l.queue.drop 1 })
  let s1 := if decryptorDie x = 1 then s0 else settleMemGates s0 (dieOrd (decryptorDie x))
  if err ≠ 0 then endShard s1 x err
  else
    let plain := if x.isSealed then openShard s1 x data else some data
    match plain with
    | none => endShard (poisonTiles s1 (shardOff x) (shardTiles x)) x 0x8042
    | some l =>
      let s2 := if shardNode x = ownNode s1 then writeTiles s1 (shardOff x) (l.take (shardTiles x * 4096)) else s1
      endShard (count s2 1 8 0x66 (shardTiles x)) x 0

/-! ## Digest engines (R380, R385) -/

/-- A refused write of a digest register. -/
def dgRefuse (s : State) (st off : Nat) : State := recordError s (mmDie st) 8 0x1080 off

/-- Whether a stack's digest engine may read a source: its own stack, or Tier 0 (R380). -/
def dgSource (st off tiles : Nat) : Bool :=
  match homeOf off with
  | .tier1 k b => decide (k = st) && decide (b + tiles * 4096 ≤ stackSize)
  | .tier0 o _ b => decide (o % 16 = st) && decide (b + tiles * 4096 ≤ 0x01800000)
  | _ => false

/-- DG_SRC of a stack. -/
def dgSrc (s : State) (st : Nat) : Nat := (mbcReg s st 0x400).toNat + fld (mbcReg s st 0x404) 0 16 * 2 ^ 32

/-- DG_TILES of a stack. -/
def dgTiles (s : State) (st : Nat) : Nat := fld (mbcReg s st 0x408) 0 17

/-- Whether a memory die is in a test slot now (R153). -/
def inTestSlot (s : State) (die : Nat) : Bool :=
  decide ((frsOf s die).slotTypes / 16 % 2 = 1) && decide (s.now < (frsOf s die).began + 64 * (frsOf s die).slotEnd)

/-- START of a digest. -/
def startDigest (s : State) (st : Nat) (testOnly : Bool) (owner : Option (Nat × Nat)) : State :=
  let reads := !testOnly || !frsRunning s (mmDie st) || inTestSlot s (mmDie st)
  let s1 := putMbc s st { mbcOf s st with dgAt := some s.now, dgFor := owner, dgRan := 0, dgSince := if reads then some s.now else none }
  setReg (setReg s1 (mmDie st) 8 0x40C (BitVec.ofNat 32 (b2n testOnly * 2))) (mmDie st) 8 0x410 1#32

/-- A write of a digest register of a stack (R385). -/
def writeDigest (s : State) (st off : Nat) (v : Word) : State :=
  if tbit (mbcReg s st 0x410) 0 then dgRefuse s st off
  else
    match off with
    | 0x400 => if v.toNat % 4096 ≠ 0 then dgRefuse s st off else setReg s (mmDie st) 8 off v
    | 0x404 => setReg s (mmDie st) 8 off (v &&& 0xFFFF#32)
    | 0x408 => setReg s (mmDie st) 8 off (v &&& 0x1FFFF#32)
    | 0x40C =>
      if tbit v 0 then
        if dgTiles s st ≥ 1 ∧ dgTiles s st ≤ 65536 ∧ dgSource st (dgSrc s st) (dgTiles s st) = true then startDigest s st (tbit v 1) none
        else dgRefuse s st off
      else setReg s (mmDie st) 8 off (v &&& 2#32)
    | _ => if 0x440 ≤ off ∧ off < 0x470 then setReg s (mmDie st) 8 off v else s

/-- DIGEST_START (R385). -/
def execDigestStart (t : Time) (stack : Stack) (v : Word) (s : State) : Host.Outcome State Fault Refusal :=
  .next (pageWrite (advance s t) (mmDie stack.val) 8 0x40C true (fun u => writeDigest u stack.val 0x40C (v ||| 1#32)))

/-- The bytes of a digest's source, and whether a line of it is poisoned. -/
def sourceBytes (s : State) (off tiles : Nat) : List Byte × Bool :=
  match homeOf off with
  | .tier1 _ _ => (t1Bytes s off (tiles * 4096), (linesOf off (tiles * 4096)).any (fun l => decide (lineSt s l ≠ .clean)))
  | .tier0 o k b =>
    match physOf s (cpDie o) k with
    | some c => (spmRead (core s c) b (tiles * 4096), spmPoisonedRange (core s c) b (tiles * 4096))
    | none => ([], true)
  | _ => ([], true)

/-- The time that a digest takes at least (R380): 25.6 GB/s from its own stack, 6.4 GB/s from Tier 0. -/
def digestTime (off tiles : Nat) : Nat :=
  match homeOf off with
  | .tier0 _ _ _ => tiles * 4096 * 10 / 64 * 10
  | _ => tiles * 4096 * 10 / 256 * 10

/-- DG_EXPECT as a number, byte 0 lowest. -/
def dgExpect (s : State) (st : Nat) : Nat := ofLE ((upFrom 0 12).map (fun i => toLE 4 (mbcReg s st (0x440 + 4 * i)).toNat)).flatten

/-- The time that the digest of a stack has read: a TEST_ONLY one no further than its test slot while frames run (R381). -/
def digestRan (s : State) (st : Nat) : Nat :=
  let x := mbcOf s st
  let die := mmDie st
  let stop := if tbit (mbcReg s st 0x40C) 1 && frsRunning s die then (frsOf s die).began + 64 * (frsOf s die).slotEnd else s.now
  x.dgRan + (match x.dgSince with
    | some t => min s.now stop - t
    | none => 0)

/-- Whether the digest of a stack that is BUSY can end now: it has read for its time (R380, R381). -/
def digestDue (s : State) (st : Nat) : Bool :=
  tbit (mbcReg s st 0x410) 0 && (mbcOf s st).dgAt.isSome && decide (digestTime (dgSrc s st) (dgTiles s st) ≤ digestRan s st)

/-- The digest of a stack ends: the result, and 0x2070 on a mismatch (R380). -/
def endDigest (s : State) (st : Nat) : State × Bool :=
  let b := sourceBytes s (dgSrc s st) (dgTiles s st)
  let h := (Config.sha384 b.1).toNat
  let ok := !b.2 && decide (h = dgExpect s st)
  let s1 := foldState (fun u i => setReg u (mmDie st) 8 (0x480 + 4 * i) (BitVec.ofNat 32 (h / 2 ^ (32 * i)))) s (upFrom 0 12)
  let s2 := setReg (settleMemGates (putMbc s1 st { mbcOf s1 st with dgAt := none, dgFor := none, dgRan := 0, dgSince := none }) st) (mmDie st) 8 0x410
    (BitVec.ofNat 32 (2 + b2n ok * 4 + b2n b.2 * 8))
  let s3 := mbcCount s2 st 0x2B 1
  (if ok then s3 else mbcCount (recordError s3 (mmDie st) 8 0x2070 (b2n (tbit (mbcReg s st 0x40C) 1) + b2n b.2 * 2)) st 0x2C 1, ok)

/-- The stack whose engine digests a shard (R380). -/
def shardStack (off : Nat) : Nat :=
  match homeOf off with
  | .tier1 k _ => k
  | .tier0 o _ _ => o % 16
  | _ => 0

/-- The firmware starts the digest of a shard on an idle engine (R379). -/
def digestShard (s : State) (m : Nat) (x : Shard) (testOnly : Bool) : State :=
  let st := shardStack x.off
  let die := mmDie st
  let s1 := setReg (setReg (setReg s die 8 0x400 (BitVec.ofNat 32 x.off)) die 8 0x404 (BitVec.ofNat 32 (x.off / 2 ^ 32))) die 8 0x408
    (BitVec.ofNat 32 x.tiles)
  let s2 := foldState (fun u i => setReg u die 8 (0x440 + 4 * i) (BitVec.ofNat 32 (leAt x.digest (4 * i) 4))) s1 (upFrom 0 12)
  startDigest (updShard s2 m x.index (fun y => { y with st := if y.st = 2 then 4 else y.st })) st testOnly (some (m, x.index))

/-- Idle engines take the next shard that waits for its digest. -/
def pumpDigests (s : State) : State :=
  foldState (fun u (p : Nat × Model) =>
    foldState (fun w (x : Shard) =>
      if x.st = 2 ∧ tbit (mbcReg w (shardStack x.off) 0x410) 0 = false then digestShard w p.1 x false else w) u p.2.shards) s s.serv.models

end Sys2Proof.Machine
end

