-- ==== Sys2Proof/Machine/Canopy.lean ====
section
/-!
DEFINITION. Sys2Proof/Machine/Canopy.lean: the model canopy (R268 to R272): which model a job serves, the choice of a placement, eviction, loading,
and the admission of models, with the digests of their shards (R381, R382).
-/
namespace Sys2Proof.Machine

/-! ## Requests and models -/

/-- The open requests of both trackers. -/
def allReqs (s : State) : List Request := (tracker s 0).reqs ++ (tracker s 1).reqs

/-- The models of the plan in force with the jobs of their placements (R268). -/
def canopy (s : State) : List (Nat × List Nat) :=
  match s.plan with
  | none => []
  | some pl => pl.canopy

/-- The place of an item in a list, if it is there. -/
def placeOf (l : List Nat) (x i : Nat) : Option Nat :=
  match l with
  | [] => none
  | y :: r => if y = x then some i else placeOf r x (i + 1)

/-- The model that a job is a placement of, and the placement's index. -/
def jobModel (s : State) (job : Nat) : Option (Nat × Nat) :=
  match (canopy s).find? (fun p => p.2.contains job) with
  | none => none
  | some p =>
    match placeOf p.2 job 0 with
    | none => none
    | some i => some (p.1, i)

/-- The jobs of a model's placements. -/
def modelJobs (s : State) (m : Nat) : List Nat :=
  match (canopy s).find? (fun p => decide (p.1 = m)) with
  | none => []
  | some p => p.2

/-- Whether this module is the origin of the slice (R252). -/
def isOrigin (s : State) : Bool :=
  match s.plan with
  | none => false
  | some pl => decide (pl.origin = ownNode s)

/-- Whether a model is resident or pinned in the placement that a job is. -/
def jobResident (s : State) (job : Nat) : Bool :=
  match jobModel s job with
  | none => false
  | some (m, p) => (decide ((modelOf s m).st = 3) || decide ((modelOf s m).st = 4)) && decide ((modelOf s m).place = p)

/-- Whether a model is loading into the placement that a job is. -/
def jobLoading (s : State) (job : Nat) : Bool :=
  match jobModel s job with
  | none => false
  | some (m, p) => decide ((modelOf s m).st = 2) && decide ((modelOf s m).place = p)

/-- JOB_SKIP of a job on every core of this module (R269). -/
def setSkip (s : State) (job : Nat) (on : Bool) : State :=
  foldState (fun u c =>
    let i := job / 32
    let old := reg u (coreDie c) (corePage c 0) (0x0A0 + 4 * i)
    writeJobSkip u c i (setBit old (job % 32) on)) s (upFrom 0 1152)

/-- JOB_SKIP of a job on this module, as a module that is not the origin judges residency (log entry 44). -/
def jobSkipped (s : State) (job : Nat) : Bool :=
  (upFrom 0 1152).any (fun c => tbit (reg s (coreDie c) (corePage c 0) (0x0A0 + 4 * (job / 32))) (job % 32))

/-- Whether every job slot of a job is free. -/
def slotsFree (s : State) (job : Nat) : Bool := (upFrom 0 (jobSlots s job)).all (fun n => decide ((slotPoint s job n).st = 0))

/-- MODELm_STATE as it reads on the origin module (R269, R273). -/
def modelState (s : State) (m : Nat) : Word :=
  let x := modelOf s m
  BitVec.ofNat 32 (x.st + x.place * 16 + min (2 ^ 24 - 1) ((s.power.slowMs - x.usedMs) / 1000) * 256)

/-! ## Placements (R270) -/

/-- The extents of a job, by node, as byte ranges. -/
def jobSpans (s : State) (job : Nat) : List (Nat × Nat × Nat) :=
  ((planExtents s).filter (fun x => decide (x.2.job = job))).map (fun x => (x.1, extentSpan x.2))

/-- Whether extents of two jobs overlap: their placements conflict (R373). -/
def jobsMeet (s : State) (a b : Nat) : Bool :=
  (jobSpans s a).any (fun x => (jobSpans s b).any (fun y => decide (x.1 = y.1) && spansMeet x.2 y.2))

/-- The models resident in a placement that conflicts with a job. -/
def conflicts (s : State) (m job : Nat) : List Nat :=
  ((canopy s).filter (fun p =>
    let x := modelOf s p.1
    p.1 != m && decide (x.st ≥ 2) && (match mapFind (List.zip (upFrom 0 p.2.length) p.2) x.place with
      | none => false
      | some j => jobsMeet s job j))).map (fun p => p.1)

/-- Whether a model can be evicted (R270): RESIDENT, with no open or waiting request. -/
def evictable (s : State) (m : Nat) : Bool :=
  decide ((modelOf s m).st = 3) && (allReqs s).all (fun r => !(modelJobs s m).contains r.job)

/-- When the most recently used model of a list was used last. -/
def latestUse (s : State) (l : List Nat) : Nat := foldState (fun a m => max a (modelOf s m).usedMs) 0 l

/-- The best of the placements that can be freed, given as index and latest use: the one used longest ago, the lowest on ties. -/
def bestPlace (l : List (Nat × Nat)) : Option Nat :=
  match l with
  | [] => none
  | p :: r => some (foldState (fun (b : Nat × Nat) x => if x.2 < b.2 then x else b) p r).1

/-- The placement that a CANOPY_LOAD of a model takes (R270). -/
def choosePlace (s : State) (m : Nat) : Option Nat :=
  let js := modelJobs s m
  let each := List.zip (upFrom 0 js.length) (js.map (fun j => conflicts s m j))
  match each.find? (fun p => p.2.isEmpty) with
  | some p => some p.1
  | none => bestPlace ((each.filter (fun p => p.2.all (evictable s))).map (fun p => (p.1, latestUse s p.2)))

/-- The Tier 1 runs of a job's weights on this module: weights, expert banks and parity (R270, R373). -/
def weightRuns (s : State) (job : Nat) : List (Nat × Nat) :=
  ((planExtents s).filter (fun x => decide (x.1 = ownNode s) && decide (x.2.job = job) && decide (x.2.offset < t1Size)
    && (decide (x.2.kind = 0) || decide (x.2.kind = 1) || decide (x.2.kind = 3)))).map (fun x => (x.2.offset, x.2.tiles))

/-- The job of a model's present placement. -/
def placedJob (s : State) (m : Nat) : Nat := nth (modelJobs s m) (modelOf s m).place 0

/-! ## Eviction and loading -/

/-- An EVICTING model whose job has no occupied slot moves out (R269, R270): JOB_SKIP is set, and its weights move to Tier 2 where there is room and
STANDBY_OK is 1; otherwise it is ABSENT. -/
def moveOut (s : State) (m : Nat) : State :=
  let x := modelOf s m
  let job := placedJob s m
  match x.leaving with
  | none => s
  | some standby =>
    if slotsFree s job then
      let s1 := updModel (setSkip s job true) m (fun y => { y with leaving := none })
      let runs := weightRuns s1 job
      match (if standby then findTiles s1 (tilesOf runs) else none) with
      | some a =>
        let l := pieces false a runs
        startTransfer (updModel s1 m (fun y => { y with ext := l })) 2 m l
      | none => updModel s1 m (fun y => { y with st := 0, ext := [], shards := [] })
    else s

/-- A conflicting model enters EVICTING (R270). -/
def evictModel (standby : Bool) (s : State) (m : Nat) : State := moveOut (updModel s m (fun x => { x with st := 5, leaving := some standby })) m

/-- Whether a Latency plan places a job's weights wholly in Tier 0, so that its model is PINNED (R271): no weights and no expert bank of it lie
elsewhere. -/
def latencyPinned (s : State) (job : Nat) : Bool :=
  match s.plan with
  | none => false
  | some pl =>
    let own := (planExtents s).filter (fun x => decide (x.2.job = job) && decide (x.2.kind ≤ 1))
    decide (pl.profile = 0) && !own.isEmpty && own.all (fun x => decide (x.2.offset ≥ 0x010000000000))

/-- The completion of a canopy command (R257): STOP_REASON 0 and TOKENS 0. -/
def canopyDone (s : State) (k id status : Nat) : State := postCompletion s k (completion id status 0 false false 0 0 0)

/-- A request that ends without a slot of its own, or whose slot is dealt with elsewhere: its completion, and it is closed (R257). -/
def endRequest (s : State) (k : Nat) (r : Request) (status reason len : Nat) : State :=
  let s1 := updTracker s k (fun x => { x with reqs := x.reqs.filter (fun y => !decide (y = r)) })
  let s2 :=
    match jobModel s r.job with
    | none => s1
    | some (m, _) => updModel s1 m (fun x => { x with usedMs := s.power.slowMs })
  postCompletion s2 r.home (completion r.id status reason r.anomaly r.seedChosen r.written r.seed len)

/-- The requests of a model's jobs that wait end with an error (R272). -/
def failWaiting (s : State) (m code : Nat) : State :=
  foldState (fun u k =>
    foldState (fun v (r : Request) =>
      if r.phase = 0 ∧ (modelJobs s m).contains r.job then endRequest (reqError v k code m) k r code 7 r.base else v) u (tracker u k).reqs)
    s [0, 1]

/-- The running CANOPY_LOAD ends; of one that the firmware ran again no request waits for a completion (R467). -/
def endLoad (s : State) (x : CanopyLoad) (status : Nat) : State :=
  let s1 := updServ s (fun v => { v with loads := v.loads.drop 1 })
  if x.again then s1 else canopyDone s1 x.tracker x.id status

/-- A load fails (R272): the model returns to its former state, and the requests that wait for it end with 0xA043. -/
def failLoad (s : State) (x : CanopyLoad) (status : Nat) : State :=
  let s1 := updModel s x.model (fun y => { y with st := x.former, shards := if x.former = 1 then y.shards else [] })
  endLoad (failWaiting s1 x.model 0xA043) x status

/-- Whether every shard of a model that this module knows of is present. -/
def allPresent (l : List Shard) : Bool := l.all (fun x => decide (x.st = 3))

/-- Whether a transfer of a model is in progress, or interrupted by a module loss (R272). -/
def modelMoving (s : State) (m : Nat) : Bool :=
  s.serv.transfers.any (fun p => match p.2 with
    | some x => (decide (x.kind = 2) || decide (x.kind = 3)) && decide (x.key = m)
    | none => false)
    || s.serv.again.any (fun p => (decide (p.1 = 2) || decide (p.1 = 3)) && decide (p.2 = m))

/-- The digest of a manifest that the firmware loads is kept (R483). -/
def noteManifest (s : State) (b : List Byte) : State := { s with sec := { s.sec with manifests := s.sec.manifests ++ [bytesAt b 0x60 48] } }

/-- A model enters LOADING (R270): its weights come from Tier 2, or its shards are queued. -/
def enterLoading (s : State) (x : CanopyLoad) (p : Nat) : State :=
  let m := x.model
  let s1 := updModel s m (fun y => { y with st := 2, place := p })
  if x.former = 1 then
    let l := pieces true (firstTile (modelOf s1 m).ext) (weightRuns s1 (placedJob s1 m))
    startTransfer s1 3 m l
  else
    let s2 := if x.checked then s1 else noteManifest s1 x.manifest
    feedModel (updModel s2 m (fun y => { y with shards := manifestShards s2 x.manifest x.host x.staged })) m

/-- Work of the CANOPY_LOAD at the head of the queue (R270, R272). Loads run one at a time, in submission order. -/
def advanceLoad (s : State) : State :=
  match s.serv.loads with
  | [] => s
  | x :: r =>
    let st := (modelOf s x.model).st
    match x.chosen with
    | none =>
      if st ≥ 2 ∧ st ≠ 5 then endLoad s x 0
      else if st = 5 then s
      else
        match (if st = 0 ∧ x.checked = false then manifestFault s x.manifest x.sigOk else none) with
        | some f => endLoad (recordError s 0 8 f.1 f.2) x f.1
        | none =>
        match choosePlace s x.model with
        | none => endLoad (reqError s x.tracker 0xA048 x.model) x 0xA048
        | some p =>
          let y := { x with chosen := some p, former := st }
          let s1 := foldState (evictModel x.standby) (updServ s (fun v => { v with loads := y :: r }))
            (conflicts s x.model (nth (modelJobs s x.model) p 0))
          if s1.serv.models.any (fun q => decide (q.2.st = 5)) then s1 else enterLoading s1 y p
    | some p =>
      if st < 2 then
        if s.serv.models.any (fun q => decide (q.2.st = 5)) then s else enterLoading s x p
      else if st = 2 ∧ modelMoving s x.model = false ∧ allPresent (modelOf s x.model).shards = true then
        let job := placedJob s x.model
        let s1 := setSkip s job false
        endLoad (updModel s1 x.model (fun y => { y with st := if latencyPinned s job then 4 else 3, usedMs := s.power.slowMs, ext := [] })) x 0
      else s

/-- Loads advance until the one at the head waits (at most a few steps for each). -/
def advanceLoads (fuel : Nat) (s : State) : State :=
  match fuel with
  | 0 => s
  | f + 1 =>
    let s1 := advanceLoad s
    if s1.serv.loads = s.serv.loads then s1 else advanceLoads f s1

/-- The work of the canopy after an event: idle digest engines take shards, the load engine is fed, and loads advance. -/
def serveCanopy (s : State) : State :=
  let s1 := foldState (fun u (p : Nat × Model) => if p.2.st = 2 then feedModel u p.1 else u) (pumpDigests s) s.serv.models
  advanceLoads (2 * s1.serv.loads.length + 2) s1

/-- The end of a transfer of a model (R270, R272). -/
def endModelMove (s : State) (x : Transfer) : State :=
  let m := x.key
  if x.kind = 2 then
    if x.status ≠ 0 then updModel s m (fun y => { y with st := 0, ext := [], shards := [] }) else updModel s m (fun y => { y with st := 1 })
  else if x.status ≠ 0 then
    match s.serv.loads with
    | l :: _ => if l.model = m then failLoad s l x.status else s
    | [] => s
  else updModel s m (fun y => { y with shards := y.shards.map (fun z => { z with st := 2, attempts := 1 }) })

/-! ## Shards (R379 to R382) -/

/-- An attempt of a shard fails: it is loaded again, or after the third one the load ends with 0x2072 (R382). -/
def shardFails (s : State) (m i : Nat) : State :=
  match (modelOf s m).shards.find? (fun x => decide (x.index = i)) with
  | none => s
  | some x =>
    if x.attempts < 3 then updShard s m i (fun y => { y with st := 0 })
    else
      let s1 := recordError s 0 8 0x2072 i
      match s1.serv.loads with
      | l :: _ => if l.model = m then failLoad s1 l 0x2072 else s1
      | [] => s1

/-- The firmware takes the completions of its own shards (R379): one that landed waits for its digest; of a shard homed elsewhere the home's
firmware runs the digest (log entry 11). -/
def takeLanded (s : State) : State :=
  let own := s.loader.done.filter (fun d => (mapFind s.loader.tags d.1).isSome)
  foldState (fun u d =>
    match mapFind u.loader.tags d.1 with
    | none => u
    | some k =>
      let m := k / 2 ^ 20
      let i := k % 2 ^ 20
      let u1 := updLoader u (fun l => { l with tags := mapErase l.tags d.1 })
      if d.2 ≠ 0 then shardFails u1 m i
      else updShard u1 m i (fun y => { y with st := if y.node = ownNode u1 then 2 else 3 }))
    (updLoader s (fun l => { l with done := l.done.filter (fun d => (mapFind s.loader.tags d.1).isNone) })) own

/-- Whether a job reads a shard that is being rebuilt (R382). -/
def jobRebuilding (s : State) (job : Nat) : Bool :=
  match jobModel s job with
  | none => false
  | some (m, _) => (modelOf s m).shards.any (fun x => x.rebuild)

/-- A shard cannot be restored (R382): 0x2071, the requests of its model's jobs end, and the model is ABSENT. -/
def shardLost (s : State) (m i : Nat) : State :=
  let s1 := recordError s 0 8 0x2071 i
  let s2 := foldState (fun u k =>
    foldState (fun v (r : Request) =>
      if (modelJobs s m).contains r.job then endRequest v k r 0x2071 7 r.base else v) u (tracker u k).reqs) s1 [0, 1]
  updModel (foldState (fun u j => setSkip u j true) s2 (modelJobs s m)) m (fun y => { y with st := 0, ext := [], shards := [] })

/-- The outcome of a shard's digest (R379, R382): `rest` is the XOR of the other members of its parity group, where all of them could be
digested. -/
def shardDigested (s : State) (m i : Nat) (ok : Bool) (rest : Option (List Byte)) : State :=
  match (modelOf s m).shards.find? (fun x => decide (x.index = i)) with
  | none => s
  | some x =>
    if ok then updShard s m i (fun y => { y with st := 3, rebuild := false, seenMs := s.power.slowMs })
    else if x.st = 4 ∧ x.rebuild = false then shardFails s m i
    else
      match rest with
      | some l =>
        if x.pgroup = 0xFFFFFFFF ∨ x.rebuild = true then shardLost s m i
        else updShard (writeTiles s x.off l) m i (fun y => { y with st := 2, rebuild := true })
      | none => shardLost s m i

/-- LOAD_SHARD_COMPLETE (R377, R379): the running shard's bytes as the host or the pool gave them, and the error of the read or of a write. -/
def execLoadShardComplete (t : Time) (data : List Byte) (err : Fin 65536) (s : State) : Host.Outcome State Fault Refusal :=
  let s1 := advance s t
  match s1.loader.queue with
  | [] => .next s1
  | x :: _ => .next (serveCanopy (takeLanded (landShard s1 x data err.val)))

/-- LD_DEADLINE_EXPIRY (R379, R384): every shard whose deadline has passed ends with 0x4060. -/
def execLdDeadlineExpiry (t : Time) (s : State) : Host.Outcome State Fault Refusal :=
  let s1 := advance s t
  let late := s1.loader.queue.filter (fun x => decide (x.due ≤ s1.now))
  let s2 := updLoader s1 (fun l => { l with queue := l.queue.filter (fun x => !decide (x.due ≤ s1.now)) })
  .next (serveCanopy (takeLanded (foldState (fun u x => endShard u x 0x4060) s2 late)))

/-- DIGEST_COMPLETE (R380, R382). -/
def execDigestComplete (t : Time) (stack : Stack) (rest : Option (List Byte)) (s : State) : Host.Outcome State Fault Refusal :=
  let s1 := advance s t
  if digestDue s1 stack.val then
    let owner := (mbcOf s1 stack.val).dgFor
    let r := endDigest s1 stack.val
    match owner with
    | none => .next r.1
    | some (m, i) => .next (serveCanopy (shardDigested r.1 m i r.2 rest))
  else .next s1

/-- PERIODIC_DIGEST (R381, R383): a present shard of this module is digested again, on an idle engine, with TEST_ONLY set; one that is being
rebuilt waits for the rebuild's own digest. -/
def execPeriodicDigest (t : Time) (m : Fin 32) (i : Nat) (s : State) : Host.Outcome State Fault Refusal :=
  let s1 := advance s t
  match (modelOf s1 m.val).shards.find? (fun x => decide (x.index = i)) with
  | none => .next s1
  | some x =>
    if x.st = 3 ∧ x.rebuild = false ∧ x.node = ownNode s1 ∧ tbit (mbcReg s1 (shardStack x.off) 0x410) 0 = false then
      .next (digestShard s1 m.val x true)
    else .next s1

end Sys2Proof.Machine
end

