-- ==== Sys2Proof/Machine/Security.lean ====
section
/-!
DEFINITION. Sys2Proof/Machine/Security.lean: the Heartwood die (R474 to R490): its services, roles, approved mode, zeroisation and the Service
permission.
-/
namespace Sys2Proof.Machine

/-! ## Registers -/

/-- A register of the HWD page. -/
def hwd (s : State) (off : Nat) : Word := reg s 9 8 off

/-- The state with a field of an HWD register replaced. -/
def setHwd (s : State) (off lo n v : Nat) : State := setRegFld s 9 8 off lo n v

/-- The state with the Heartwood die changed. -/
def updSec (s : State) (f : SecSt → SecSt) : State := { s with sec := f s.sec }

/-- An error in the HWD page (R490). -/
def hwdError (s : State) (code info : Nat) : State := recordError s 9 8 code info

/-- Whether a role is held: 0 User, 1 Crypto Officer, 2 Maintenance (R476). -/
def hasRole (s : State) (r : Nat) : Bool := tbit (hwd s 0x048) r

/-- Whether the die is in the error state (R477). -/
def hwdFailed (s : State) : Bool := tbit (hwd s 0x040) 1

/-! ## Zeroisation and the error state (R477, R486) -/

/-- Withdraws the Service permission: the message to every die goes out, each die applies it on arrival (R476, R487). -/
def withdrawPermit (s : State) : State := setHwd s 0x040 5 1 0

/-- Installed shard keys are zeroised. -/
def dropKeys (s : State) : State := { s with loader := { s.loader with keys := [] } }

/-- Full zeroisation (R486): every volatile CSP and installed key; roles end, and the permission is withdrawn. -/
def zeroiseAll (s : State) (trigger : Nat) : State :=
  let s1 := updSec (dropKeys s) (fun x => { x with keks := [], csps := false, challenge := false })
  let s2 := setHwd (setHwd (setHwd s1 0x048 0 3 0) 0x040 6 8 0) 0x040 3 1 1
  count (hwdError (withdrawPermit s2) 0x8055 trigger) 9 8 0xE4 1

/-- The zeroisation of SERVICE_PERMIT (R486): KEKs, shard keys and DRBG state. -/
def zeroisePermit (s : State) : State :=
  let s1 := setHwd (setHwd (updSec (dropKeys s) (fun x => { x with keks := [] })) 0x040 6 8 0) 0x040 3 1 1
  count (hwdError { s1 with fresh := s1.fresh + 1 } 0x8055 2) 9 8 0xE4 1

/-- The die enters the error state with a zeroisation of a trigger (R477, R486). -/
def enterError (s : State) (trigger : Nat) : State := leaveApproved (setHwd (zeroiseAll s trigger) 0x040 1 1 1)

/-! ## Services (R482) -/

/-- The code of a service. -/
def svcCode (r : SvcReq) : Nat :=
  match r with
  | .status => 0x01
  | .authChallenge => 0x02
  | .authRespond _ _ => 0x02
  | .logout => 0x03
  | .verifyFirmware _ => 0x10
  | .verifySignature _ _ => 0x11
  | .unwrapInstall _ _ _ _ _ => 0x12
  | .clearKeys => 0x13
  | .linkSign _ => 0x20
  | .linkVerify _ => 0x20
  | .quote _ => 0x21
  | .random _ => 0x22
  | .importKek _ _ _ _ => 0x30
  | .importAppliance _ _ => 0x30
  | .advanceFloor => 0x31
  | .servicePermit => 0x32
  | .debugUnlock _ => 0x33
  | .zeroise => 0x3F

/-- A microsecond in units of 100 ps. -/
def usec : Nat := 10000

/-- The time a service takes, in units of 100 ps (R482). -/
def svcTime (r : SvcReq) : Nat :=
  match r with
  | .status => usec
  | .authChallenge => 2000 * usec
  | .authRespond _ _ => 2000 * usec
  | .logout => usec
  | .verifyFirmware i => i.len * 3000000000 / 2 ^ 30 + 2000 * usec
  | .verifySignature n _ => n * 2000 * usec
  | .unwrapInstall _ _ _ _ _ => 50 * usec
  | .clearKeys => 10 * usec
  | .linkSign _ => 6000 * usec
  | .linkVerify _ => 9000 * usec
  | .quote _ => 4000 * usec
  | .random _ => 5 * usec
  | .importKek _ _ _ _ => 8000 * usec
  | .importAppliance _ _ => 8000 * usec
  | .advanceFloor => 20000 * usec
  | .servicePermit => 1000 * usec
  | .debugUnlock _ => 1000 * usec
  | .zeroise => 50 * usec

/-- Whether a service is an approved one (R482). -/
def svcApproved (r : SvcReq) : Bool :=
  match svcCode r with
  | 0x02 => true
  | 0x10 => true
  | 0x11 => true
  | 0x12 => true
  | 0x20 => true
  | 0x21 => true
  | 0x22 => true
  | 0x30 => true
  | _ => false

/-- Whether the caller's role permits a service (R482): firmware verification belongs to the boot stage of a start. -/
def svcRole (s : State) (r : SvcReq) : Bool :=
  match r with
  | .status => true
  | .authChallenge => true
  | .authRespond _ _ => true
  | .zeroise => true
  | .logout => hasRole s 0 || hasRole s 1 || hasRole s 2
  | .verifyFirmware _ => tbit (reg s 90 8 0x108) 4
  | .importKek _ _ _ _ => hasRole s 1
  | .importAppliance _ _ => hasRole s 1
  | .advanceFloor => hasRole s 1
  | .servicePermit => hasRole s 2
  | .debugUnlock _ => hasRole s 1
  | _ => hasRole s 0

/-- Whether a frame sequencer runs under a plan of another profile than Service (R487). -/
def runsOther (s : State) : Bool :=
  frsDies.any (fun d => frsRunning s d) && (match s.plan with
    | none => true
    | some p => decide (p.profile ≠ 3))

/-- Whether the die's state permits a service (R476, R477, R482, R487, R488). -/
def svcState (s : State) (r : SvcReq) : Bool :=
  let st := hwd s 0x040
  match r with
  | .status => true
  | .zeroise => tbit st 0 || tbit st 1
  | _ =>
    tbit st 0 && !tbit st 1 && !(tbit st 4 && svcApproved r) && (match r with
      | .authChallenge => decide (s.sec.lockMs ≤ s.power.slowMs)
      | .authRespond _ _ => decide (s.sec.lockMs ≤ s.power.slowMs)
      | .unwrapInstall _ _ _ _ _ => !(s.loader.queue.any (fun x => x.isSealed))
      | .random n => decide (n ≤ 256)
      | .servicePermit => !runsOther s
      | _ => true)

/-- Response bytes in the service window, as words of four bytes. -/
def putWindow (s : State) (off : Nat) (l : List Byte) (fuel : Nat) : State :=
  match fuel with
  | 0 => s
  | k + 1 =>
    match l with
    | [] => s
    | _ => putWindow (setReg s 9 8 off (BitVec.ofNat 32 (ofLE (l.take 4)))) (off + 4) (l.drop 4) k

/-- A response: its bytes in the window, and its length. -/
def respond (s : State) (l : List Byte) : State :=
  putWindow (setReg { s with lastBytes := l } 9 8 0x068 (BitVec.ofNat 32 (l.length % 4096))) 0x800 l 512

/-- The service is complete with a status code (R482, R489); a refused one records 0x8054. -/
def endService (s : State) (r : SvcReq) (code : Nat) : State :=
  let s1 := setReg (updSec s (fun x => { x with service := none })) 9 8 0x064 (BitVec.ofNat 32 (2 + svcCode r * 2 ^ 8 + code % 2 ^ 16 * 2 ^ 16))
  if code = 0x8054 then count (hwdError s1 0x8054 (svcCode r)) 9 8 0xE1 1 else count s1 9 8 0xE0 1

/-- A firmware image is verified (R479, R483): the User role is bound to its measurement. A refusal is 0x8051 and ends approved mode. -/
def verifyImage (s : State) (i : FwImage) : State × Nat :=
  let cause := if !i.chainOk then some 0 else if !i.sigOk then some 1 else if !i.digestOk then some 2 else if i.svn < s.svnFloor then some 3 else none
  match cause with
  | some c => (leaveApproved (hwdError s 0x8051 (c + i.svn % 256 * 256)), 0x8051)
  | none =>
    let s1 := updSec s (fun x => { x with fwDigest := i.digest, fwWord := i.word, csps := true })
    (setReg (setHwd (setHwd s1 0x048 0 1 1) 0x040 14 1 1) 9 8 0x050 (BitVec.ofNat 32 (i.svn % 256)), 0)

/-- An authentication (R476): the eighth failure in a row refuses authentication for 60 s. -/
def authenticate (s : State) (ok extension : Bool) : State × Nat :=
  let s1 := updSec s (fun x => { x with challenge := false })
  if ok && s.sec.challenge then (setHwd (setHwd (setHwd s1 0x048 4 4 0) 0x048 1 1 1) 0x048 2 1 (b2n (extension || hasRole s 2)), 0)
  else
    let n := fld (hwd s 0x048) 4 4 + 1
    let s2 := hwdError (setHwd s1 0x048 4 4 n) 0x8053 n
    (if n ≥ 8 then updSec s2 (fun x => { x with lockMs := s.power.slowMs + 60000 }) else s2, 0x8053)

/-- The quote of the state in force (R483). -/
def quoteBytes (s : State) (nonce : List Byte) : List Byte :=
  let st := hwd s 0x040
  let id := match s.plan with
    | none => 0
    | some p => p.id
  let head := match s.plan with
    | none => List.replicate 48 0#8
    | some _ => bytesAt s.container 0xD0 48
  let flags := b2n (tbit st 2) + b2n (tbit st 4) * 2 + b2n (tbit st 5) * 4 + b2n (tbit (hwd s 0x044) 0) * 8
  (nonce ++ List.replicate 48 0#8).take 48 ++ toLE 48 Config.romDigest.toNat ++ (s.sec.fwDigest ++ List.replicate 48 0#8).take 48
    ++ toLE 16 s.sec.fwWord.toNat ++ toLE 1 (fld (hwd s 0x050) 0 8) ++ toLE 1 s.svnFloor ++ toLE 2 (ownNode s) ++ toLE 8 id ++ head
    ++ toLE 48 (Config.sha384 s.sec.manifests.flatten).toNat ++ toLE 1 flags ++ List.replicate 19 0#8

/-- A quote with its signature by the Alias key. -/
def signedQuote (s : State) (nonce : List Byte) : List Byte :=
  let q := quoteBytes s nonce
  q ++ toLE 96 (Config.sign 0 q).toNat

/-- Unwraps a manifest key under the KEK that its KEY_ID names and installs it in the decryptor of a die (R377, R478). -/
def unwrapKey (s : State) (die keyId : Nat) (key : BitVec 256) (salt : Nat) (ok : Bool) : State × Nat :=
  match mapGet s.sec.keks (keyId % 8) none with
  | none => (recordErrorFree s 1 8 0x8041, 0x8041)
  | some k =>
    if ok && decide (k.id = keyId / 8) then
      ({ s with loader := { s.loader with keys := mapSet s.loader.keys die (some { id := keyId, key := key, salt := salt }) } }, 0)
    else (recordErrorFree s 1 8 0x8041, 0x8041)

/-- What a permitted service does, with its status code. -/
def serve (s : State) (r : SvcReq) : State × Nat :=
  match r with
  | .status => (respond s (toLE 4 (hwd s 0x040).toNat), 0)
  | .authChallenge =>
    (respond (updSec { s with fresh := s.fresh + 1 } (fun x => { x with challenge := true })) (toLE 48 (Config.random s.fresh).toNat), 0)
  | .authRespond ok extension => authenticate s ok extension
  | .logout =>
    (if hasRole s 2 then withdrawPermit (setHwd s 0x048 1 2 0) else setHwd s 0x048 1 2 0, 0)
  | .verifyFirmware i => verifyImage s i
  | .verifySignature n ok => (count s 9 8 0xE2 (if ok then n else 0), if ok then 0 else 0x8040)
  | .unwrapInstall die keyId key salt ok => unwrapKey s die.val keyId key salt ok
  | .clearKeys => (dropKeys s, 0)
  | .linkSign data => (count (respond s (toLE 96 (Config.sign 1 data).toNat)) 9 8 0xE3 1, 0)
  | .linkVerify ok => (count s 9 8 0xE3 1, if ok then 0 else 0x8030)
  | .quote nonce => (respond s (signedQuote s nonce), 0)
  | .random n => (respond { s with fresh := s.fresh + 1 } (toLE n (Config.random s.fresh).toNat), 0)
  | .importKek slot id key ok =>
    if ok then (setHwd (updSec s (fun x => { x with keks := mapSet x.keks slot.val (some { id := id, key := key }) })) 0x040 (6 + slot.val) 1 1, 0)
    else (s, 0x8041)
  | .importAppliance data ok => if ok then (updSec s (fun x => { x with appliance := some data }), 0) else (s, 0x8040)
  | .advanceFloor =>
    let n := max s.svnFloor (fld (hwd s 0x050) 0 8)
    ({ s with svnFloor := n }, 0)
  | .servicePermit => (leaveApproved (setHwd (zeroisePermit s) 0x040 5 1 1), 0)
  | .debugUnlock tokenOk =>
    if tokenOk then (leaveApproved (setHwd (zeroiseAll s 1) 0x040 4 1 1), 0) else (s, 0x8054)
  | .zeroise => (zeroiseAll s 0, 0)

/-- A write of CMD by Trunk cluster `k`: discarded with 0x8054 while a service is in progress (R482). -/
def requestService (s : State) (k : Nat) (r : SvcReq) : State :=
  if !reachable s 9 8 then s
  else if s.sec.service.isSome then hwdError s 0x8054 (svcCode r)
  else
    setReg (updSec s (fun x => { x with service := some { req := r, die := trDie k, due := s.now + svcTime r } })) 9 8 0x064
      (BitVec.ofNat 32 (1 + svcCode r * 2 ^ 8))

/-- SERVICE_COMPLETE (R482): the service in progress is due; in a role or state that does not permit it, it completes with 0x8054. -/
def execServiceComplete (t : Time) (s : State) : Host.Outcome State Fault Refusal :=
  let s1 := advance s t
  match s1.sec.service with
  | none => .next s1
  | some x =>
    if s1.now < x.due then .next s1
    else if svcRole s1 x.req && svcState s1 x.req then
      let r := serve s1 x.req
      .next (endService r.1 x.req r.2)
    else .next (endService s1 x.req 0x8054)

/-- STATUS (R482). -/
def execStatus (t : Time) (k : Fin 2) (s : State) : Host.Outcome State Fault Refusal := .next (requestService (advance s t) k.val .status)

/-- AUTH_CHALLENGE (R476). -/
def execAuthChallenge (t : Time) (k : Fin 2) (s : State) : Host.Outcome State Fault Refusal :=
  .next (requestService (advance s t) k.val .authChallenge)

/-- AUTH_RESPOND (R476). -/
def execAuthRespond (t : Time) (k : Fin 2) (ok extension : Bool) (s : State) : Host.Outcome State Fault Refusal :=
  .next (requestService (advance s t) k.val (.authRespond ok extension))

/-- LOGOUT (R476). -/
def execLogout (t : Time) (k : Fin 2) (s : State) : Host.Outcome State Fault Refusal := .next (requestService (advance s t) k.val .logout)

/-- VERIFY_FIRMWARE (R479). -/
def execVerifyFirmware (t : Time) (k : Fin 2) (img : FwImage) (s : State) : Host.Outcome State Fault Refusal :=
  .next (requestService (advance s t) k.val (.verifyFirmware img))

/-- VERIFY_SIGNATURE (R482). -/
def execVerifySignature (t : Time) (k : Fin 2) (n : Nat) (ok : Bool) (s : State) : Host.Outcome State Fault Refusal :=
  .next (requestService (advance s t) k.val (.verifySignature n ok))

/-- UNWRAP_INSTALL (R377, R478). -/
def execUnwrapInstall (t : Time) (k : Fin 2) (die : Die) (keyId : Nat) (key : BitVec 256) (salt : Nat) (ok : Bool) (s : State) :
    Host.Outcome State Fault Refusal :=
  .next (requestService (advance s t) k.val (.unwrapInstall die keyId key salt ok))

/-- CLEAR_KEYS (R482). -/
def execClearKeys (t : Time) (k : Fin 2) (s : State) : Host.Outcome State Fault Refusal := .next (requestService (advance s t) k.val .clearKeys)

/-- LINK_SIGN (R484). -/
def execLinkSign (t : Time) (k : Fin 2) (data : List Byte) (s : State) : Host.Outcome State Fault Refusal :=
  .next (requestService (advance s t) k.val (.linkSign data))

/-- LINK_VERIFY (R484). -/
def execLinkVerify (t : Time) (k : Fin 2) (ok : Bool) (s : State) : Host.Outcome State Fault Refusal :=
  .next (requestService (advance s t) k.val (.linkVerify ok))

/-- QUOTE (R483). -/
def execQuote (t : Time) (k : Fin 2) (nonce : List Byte) (s : State) : Host.Outcome State Fault Refusal :=
  .next (requestService (advance s t) k.val (.quote nonce))

/-- RANDOM (R482). -/
def execRandom (t : Time) (k : Fin 2) (n : Nat) (s : State) : Host.Outcome State Fault Refusal :=
  .next (requestService (advance s t) k.val (.random n))

/-- IMPORT_KEK (R478). -/
def execImportKek (t : Time) (k : Fin 2) (slot : Fin 8) (id : Nat) (key : BitVec 256) (ok : Bool) (s : State) : Host.Outcome State Fault Refusal :=
  .next (requestService (advance s t) k.val (.importKek slot id key ok))

/-- IMPORT_APPLIANCE (R478). -/
def execImportAppliance (t : Time) (k : Fin 2) (data : List Byte) (ok : Bool) (s : State) : Host.Outcome State Fault Refusal :=
  .next (requestService (advance s t) k.val (.importAppliance data ok))

/-- ADVANCE_FLOOR (R480). -/
def execAdvanceFloor (t : Time) (k : Fin 2) (s : State) : Host.Outcome State Fault Refusal :=
  .next (requestService (advance s t) k.val .advanceFloor)

/-- SERVICE_PERMIT (R487). -/
def execServicePermit (t : Time) (k : Fin 2) (s : State) : Host.Outcome State Fault Refusal :=
  .next (requestService (advance s t) k.val .servicePermit)

/-- DEBUG_UNLOCK (R488). -/
def execDebugUnlock (t : Time) (k : Fin 2) (tokenOk : Bool) (s : State) : Host.Outcome State Fault Refusal :=
  .next (requestService (advance s t) k.val (.debugUnlock tokenOk))

/-- ZEROISE (R486). -/
def execZeroise (t : Time) (k : Fin 2) (s : State) : Host.Outcome State Fault Refusal := .next (requestService (advance s t) k.val .zeroise)

/-- AUTH_LOCKOUT_EXPIRY (R476): 60 s after the eighth failure in a row. -/
def execAuthLockoutExpiry (t : Time) (s : State) : Host.Outcome State Fault Refusal :=
  let s1 := advance s t
  if s1.sec.lockMs ≠ 0 ∧ s1.power.slowMs ≥ s1.sec.lockMs then .next (setHwd (updSec s1 (fun x => { x with lockMs := 0 })) 0x048 4 4 0)
  else .next s1

/-- SERVICE_PERMISSION_ARRIVAL (R487): the grant or withdrawal applies on the die from now; a withdrawal stops its ports' injections (R333). -/
def execServicePermissionArrival (t : Time) (die : Die) (s : State) : Host.Outcome State Fault Refusal :=
  let s1 := advance s t
  let on := tbit (hwd s1 0x040) 5
  let s2 := { s1 with service := mapPut false s1.service die.val on, sec := { s1.sec with arrived := mapSet s1.sec.arrived die.val (meshCyc s1 s1.now) } }
  if on then .next s2 else .next (foldState stopInj s2 ((upFrom 0 42).filter (fun p => decide (portDie p = die.val))))

end Sys2Proof.Machine
end

