-- ==== Sys2Proof/Machine/Sampler.lean ====
section
/-!
DEFINITION. Sys2Proof/Machine/Sampler.lean: what the planned commands of the sampler compute (R261 to R264): the token of a logit row under a slot's
sampling record, and the stop tests. They are the VXE operations of R73 and R74, so a replay or a regeneration of an INDEX draws the same token
(R263).
-/
namespace Sys2Proof.Machine

/-- The first column of each quarter of a row of `n` columns: the first n mod 4 quarters take one column more (R124). -/
def quarterAt (n x : Nat) : Nat := x * (n / 4) + min x (n % 4)

/-- A row's quarters, in slot order (R124). -/
def quarters (l : List Word) : List (List Word) :=
  (upFrom 0 4).map (fun x => (l.drop (quarterAt l.length x)).take (quarterAt l.length (x + 1) - quarterAt l.length x))

/-- The maximum of a row: NaN where it holds one (R541). -/
def rowMax (l : List Word) : Word := (reduceRow f32max 256 (l.map some)).getD 0xFF800000#32

/-- The sum of a row in the order of R74. -/
def rowSum (l : List Word) : Word := (reduceRow f32add 256 (l.map some)).getD 0#32

/-- The sum over the vocabulary of exp(s − ms): each quarter in the order of R74, then the four in slot order (R261). -/
def expSum (s : List Word) (ms : Word) : Word :=
  foldState (fun a q => f32add a (rowSum (q.map (fun v => halfRate 0x50 (f32sub v ms))))) 0#32 (quarters s)

/-- The first maximum of a row, NaN below every number (R74, R261). -/
def firstMax (l : List Word) : Nat := ((topkSort (List.zip (upFrom 0 l.length) l)).headD (0, 0#32)).1

/-- Whether an FP32 number is NaN or infinite. -/
def f32wild (w : Word) : Bool :=
  match f32dec w with
  | .fin _ _ _ => false
  | _ => true

/-- The reciprocal of a temperature, rounded to nearest-even (R261); none for 0. -/
def invTemp (w : Word) : Option Word :=
  match f32dec w with
  | .fin s m e => if m = 0 then none else some (f32ofRat .nearestEven s 1 m (-e))
  | _ => none

/-- The candidate that a draw takes (R261): the first whose running weight exceeds the draw's share, else the last one kept. -/
def drawCand (cand : List Nat) (keep : List Bool) (cw : List Word) (u : Word) : Nat :=
  let t := f32mul u (nth cw (cw.length - 1) 0#32)
  match (upFrom 0 cw.length).find? (fun i => f32lt t (nth cw i 0#32)) with
  | some i => nth cand i 0
  | none => nth cand (foldState (fun a i => if nth keep i false then i else a) 0 (upFrom 0 keep.length)) 0

/-- The words of a running sum. -/
def cumsumWords (l : List Word) : List Word := (cumsumRow none (l.map some)).map (fun o => o.getD 0#32)

/-- The token drawn from a scaled row (R261): `ms` is the scaled maximum and `z` the sum. -/
def drawToken (x : Sampler) (s : List Word) (ms z : Word) : Nat :=
  let top := topkRow 64 (List.zip (upFrom 0 s.length) s)
  let v := top.take 64
  let c := (top.drop 64).map BitVec.toNat
  let p := v.map (fun a => f32mul (halfRate 0x50 (f32sub a ms)) (halfRate 0x51 z))
  let cum := cumsumWords p
  let k := if x.topK = 0 then 64 else x.topK
  let keep := (upFrom 0 64).map (fun i => decide (i < k) && (decide (i = 0) || f32lt (nth cum (i - 1) 0#32) x.topP))
  let w := (upFrom 0 64).map (fun i => if nth keep i false then nth p i 0#32 else 0#32)
  drawCand c keep (cumsumWords w)
    (rngValue (BitVec.ofNat 32 x.seed) (BitVec.ofNat 32 (x.seed / 2 ^ 32)) (BitVec.ofNat 32 x.index) 0)

/-- The token of a logit row under a slot's sampling record, and whether it carries ANOMALY (R261). The sum is formed where the row is sampled
(log entry 123). -/
def sampleToken (x : Sampler) (l : List Word) : Nat × Bool :=
  let m := rowMax l
  match (if x.mode = 0 then none else x.it) with
  | none => (firstMax l, f32wild m)
  | some it =>
    let s := l.map (fun v => f32mul v it)
    let ms := f32mul m it
    let z := expSum s ms
    if f32wild m || f32wild z then (firstMax l, true) else (drawToken x s ms z, false)

/-- The history with a token appended, newest last (R264). -/
def pushToken (h : List Int) (t : Nat) : List Int := h.drop 1 ++ [(t : Int)]

/-- The reason of a token that has been appended to the history, the lowest that holds (R264). -/
def stopReason (x : Sampler) (h : List Int) (t : Nat) : Nat :=
  if x.stops.contains t then 1
  else if x.seqs.any (fun q => decide (h.drop (16 - q.length) = q)) then 2
  else if x.index + 1 = x.maxNew then 3
  else 0

/-- The token record of a step (R260, R264) — TOKEN, INDEX, REASON and ANOMALY — and the sampler after it. -/
def sampleStep (x : Sampler) (l : List Word) : (Nat × Nat × Nat × Bool) × Sampler :=
  let r := sampleToken x l
  let h := pushToken x.history r.1
  let why := stopReason x h r.1
  ((r.1, x.index, why, r.2), { x with history := h, index := x.index + 1, stopped := decide (why ≠ 0) })

end Sys2Proof.Machine
end

