-- ==== Sys2Proof/Machine/Sessions.lean ====
section
/-!
DEFINITION. Sys2Proof/Machine/Sessions.lean: sessions (R215 to R218, R298 to R300), the graft pool (R241 to R245), the admission of requests (R256,
R299), and how a request ends (R265, R266, R298).
-/
namespace Sys2Proof.Machine

/-! ## Slot changes and lengths -/

/-- The firmware submits a change of a job slot (R168). -/
def submitSlot (s : State) (job slot st len : Nat) : State :=
  submitChange (setReg s 0 1 0x0C0 (BitVec.ofNat 32 (slot + job * 2 ^ 12 + st * 2 ^ 20))) (BitVec.ofNat 32 len)

/-- Prompt tokens appended in prefill steps of a slot, by its timeline (R167, R169). -/
def prefillDone (s : State) (job slot prompt : Nat) : Nat :=
  let fr := frsOf s 0
  let chunk := jobChunk s job
  match slotLine fr job slot with
  | [] => prompt
  | p :: r =>
    if p.st = 1 then min prompt ((jobStep fr job - p.step) * chunk)
    else
      match r with
      | [] => prompt
      | q :: _ => if q.st = 1 then min prompt ((p.step - q.step) * chunk) else prompt

/-- LEN of a request's session: positions it held, appended prompt tokens, and one for each token but the newest one that a prefill gave (R257,
R266). -/
def reqLen (s : State) (r : Request) : Nat :=
  if r.phase ≤ 1 then r.base
  else
    let n := r.next - r.at0
    if r.prompt = 0 then r.base + n
    else if n > 0 then r.base + r.prompt + n - 1
    else if (slotPoint s r.job r.slot).st = 0 then r.base
    else r.base + prefillDone s r.job r.slot r.prompt

/-- A request replaced in its tracker. -/
def putRequest (s : State) (k : Nat) (old new : Request) : State :=
  updTracker s k (fun x => { x with reqs := x.reqs.map (fun y => if y = old then new else y) })

/-! ## How a request ends (R265, R266, R298) -/

/-- A session's record. -/
def sessionOf (s : State) (id : Nat) : Option Session := mapGet s.serv.sessions id none

/-- The state with a session's record replaced. -/
def putSession (s : State) (id : Nat) (x : Option Session) : State :=
  updServ s (fun v => { v with sessions := mapPut none v.sessions id x })

/-- The cache format of a job (R195, R219). -/
def slotFormat (s : State) (job : Nat) : Nat :=
  match kvOf s job with
  | none => 0
  | some k => k.format

/-- The session of a request is retained in its slot; its time to live counts from its last committed step (R298). -/
def retain (s : State) (r : Request) (len : Nat) : State :=
  putSession s r.session (some
    { job := r.job, slot := r.slot, len := len, spread := r.spread, ttl := r.ttl, stepMs := r.stepMs, stepNo := r.stepNo,
      due := r.stepMs + r.ttl * 1000, st := 0, evicted := false, toSpread := false, drop := false, ext := [], format := slotFormat s r.job,
      token := r.token })

/-- A request ends with a status and a reason: its slot drains, its session is retained for reasons 1 to 4 and discarded otherwise, and its
completion is written. A request that has no slot leaves its session as it was (log entry 45). -/
def closeRequest (s : State) (k : Nat) (r : Request) (status reason : Nat) : State :=
  let len := reqLen s r
  if r.phase = 0 then endRequest s k r status reason len
  else if r.phase = 1 then
    let s1 := match sessionOf s r.session with
      | some x => putSession s r.session (some { x with drop := decide (reason = 5) })
      | none => s
    endRequest s1 k r status reason len
  else if r.phase = 5 then endRequest s k r status reason len
  else
    let s1 := if r.phase = 2 then submitSlot s r.job r.slot 3 0 else s
    let keep := decide (1 ≤ reason) && decide (reason ≤ 4)
    endRequest (if keep then retain s1 r len else putSession s1 r.session none) k r status reason len

/-! ## Graft pool (R241, R244, R245) -/

/-- POOL_ENTRIES of the plan in force, or 0. -/
def poolEntries (s : State) : Nat :=
  match s.plan with
  | none => 0
  | some pl =>
    match pl.env with
    | none => 0
    | some e => e.pool

/-- The tiles of pool entry `e` on this module, for each target and tile in order (R226, R241). -/
def poolTiles (s : State) (e : Nat) : List (List (Nat × Nat)) :=
  match s.plan with
  | none => []
  | some pl =>
    match pl.env with
    | none => []
    | some x => x.targets.map (fun g =>
        (upFrom 0 g.tiles).map (fun i => (i % 16 * stackSize + g.poolOff + (e * ceilDiv g.tiles 16 + i / 16) * 4096, 1)))

/-- The moves of a graft into an entry: from its Tier 2 tiles for each target. -/
def graftPieces (s : State) (e : Nat) (places : List Nat) : List Piece :=
  ((List.zip (poolTiles s e) places).map (fun p => pieces true p.2 p.1)).flatten

/-- The pool entry that holds the version of a graft that lies at the given Tier 2 tiles, with whether its tiles are in place (R245). -/
def graftEntry (s : State) (g : Nat) (places : List Nat) (l : Map (Option PoolEnt)) : Option (Nat × PoolEnt) :=
  match l with
  | [] => none
  | (e, some x) :: r => if x.graft = g ∧ x.places = places then some (e, x) else graftEntry s g places r
  | (_, none) :: r => graftEntry s g places r

/-- The lowest pool entry that is free; entry 0 is the null graft. -/
def freeEntry (s : State) : Option Nat :=
  (upFrom 1 (poolEntries s - 1)).find? (fun e => (mapGet s.serv.pool e none).isNone)

/-- The entries that can be evicted, with the millisecond at which their last reference ended. -/
def idleEntries (s : State) : List (Nat × Nat) :=
  (s.serv.pool.map (fun p => match p.2 with
    | some x => if x.refs = 0 ∧ x.ready = true then [(p.1, x.idleMs)] else []
    | none => [])).flatten

/-- A pool entry replaced. -/
def putEntry (s : State) (e : Nat) (x : Option PoolEnt) : State := updServ s (fun v => { v with pool := mapPut none v.pool e x })

/-- The tiles of pool entry `e` on this module that a parity group covers (R375): the node and offset of the parity extent's tile at the same
entry position, and the tile. -/
def parityTiles (s : State) (e : Nat) : List (Nat × Nat × Nat) :=
  let es := planExtents s
  ((poolTiles s e).flatten.map (fun a =>
    match es.find? (fun x => decide (x.1 = ownNode s) && decide (x.2.kind = 2) && decide (x.2.pgroup ≠ 0xFFFFFFFF) && decide (x.2.offset ≤ a.1)
        && decide (a.1 < x.2.offset + x.2.tiles * 4096)) with
    | none => []
    | some x =>
      match es.find? (fun y => decide (y.2.kind = 3) && decide (y.2.pgroup = x.2.pgroup)) with
      | none => []
      | some y => [(y.1, y.2.offset + (a.1 - x.2.offset), a.1)])).flatten

/-- The firmware's write of a tile of a pool entry to its parity extent (R375): an XOR-write there, of this module or over the fabric. -/
def xorTile (e : Nat) (s : State) (p : Nat × Nat × Nat) : State :=
  let d := t1Copy s p.2.2 4096
  if p.1 = ownNode s then (t1Write s p.2.1 d.1 d.2).1
  else
    let k := s.serv.xorNext % 512
    let m : FabMsg := { dest := p.1, src := ownNode s, offset := p.2.1, op := 2, cls := 3, len := 4096, job := 0, hops := 0, tag := k, expiry := 0,
                        status := 0, data := d.1, poison := d.2 }
    match sendPort s 0 m with
    | none => s
    | some q =>
      updServ (queueOut { s with lastSent := some m, lastPort := some q } q m) (fun v => { v with xorNext := v.xorNext + 1, xorOut := mapSet v.xorOut k (some e) })

/-- The XOR-writes of all tiles of a pool entry. -/
def xorEntry (s : State) (e : Nat) : State := foldState (xorTile e) s (parityTiles s e)

/-- Whether an XOR-write of a pool entry is outstanding. -/
def xorWaits (s : State) (e : Nat) : Bool := s.serv.xorOut.any (fun p => decide (p.2 = some e))

/-- The parity extents of graft pools on this module are created zero-filled, each under a parity region (R375). -/
def graftParity (s : State) : State :=
  let es := planExtents s
  foldState (fun u (x : Nat × Extent) =>
    let y := x.2
    if x.1 = ownNode s ∧ y.kind = 3 ∧ y.offset < t1Size ∧ es.any (fun z => decide (z.2.kind = 2) && decide (z.2.pgroup = y.pgroup)) = true then
      (coverRange (zeroT1 u y.offset (y.offset + y.tiles * 4096)) y.offset y.tiles).1
    else u) s es

/-- The firmware moves a graft into a free entry, or evicts the entry idle longest to make one (R244). -/
def fetchGraft (s : State) (g : Nat) (places : List Nat) : State :=
  match freeEntry s with
  | some e =>
    let l := graftPieces s e places
    startTransfer (putEntry s e (some { graft := g, refs := 0, idleMs := s.power.slowMs, ready := false, ext := l, places := places })) 4 e l
  | none =>
    match bestPlace (idleEntries s) with
    | none => s
    | some e =>
      match mapGet s.serv.pool e none with
      | none => s
      | some x =>
        startTransfer (putEntry (xorEntry s e) e (some { x with ready := false })) 5 e (x.ext.map (fun p => { p with inward := false }))

/-- The null graft (R241): α 0 and zero elements in entry 0 of every target. -/
def nullGraft (s : State) : State :=
  foldState (fun u (p : Nat × Nat) => zeroT1 u p.1 (p.1 + p.2 * 4096)) s (poolTiles s 0).flatten

/-- Both copies of a slot's GRAFT word (R242). -/
def putGraftWord (s : State) (key entry : Nat) : State :=
  let w := limitWord entry
  updServ s (fun v => { v with graftCopy := mapPut 0#32 (mapPut 0#32 v.graftCopy (2 * key) w) (2 * key + 1) w })

/-- A request's reference to a pool entry is raised for its slot (R244). -/
def raiseGraft (s : State) (job slot entry : Nat) : State :=
  if entry = 0 then s
  else
    match mapGet s.serv.pool entry none with
    | none => s
    | some x =>
      updServ (putEntry s entry (some { x with refs := x.refs + 1 })) (fun v => { v with grafted := mapSet v.grafted (slotKey job slot) entry })

/-- The reference that a slot holds to a pool entry ends (R244). -/
def dropGraft (s : State) (key : Nat) : State :=
  match mapFind s.serv.grafted key with
  | none => s
  | some e =>
    let s1 := updServ s (fun v => { v with grafted := mapErase v.grafted key })
    match mapGet s1.serv.pool e none with
    | none => s1
    | some x => putEntry s1 e (some { x with refs := x.refs - 1, idleMs := if x.refs = 1 then s.power.slowMs else x.idleMs })

/-- Whether every entry of the pool has references (R245). -/
def poolBusy (s : State) : Bool :=
  (freeEntry s).isNone && s.serv.pool.all (fun p => match p.2 with
    | some x => decide (x.refs > 0)
    | none => true)

/-! ## Parks and unparks (R215, R217, R299) -/

/-- The pages of a session in a slot on this module, with their tile runs. -/
def sessionRuns (s : State) (job slot len : Nat) : List (Nat × Nat × Nat) :=
  match kvOf s job with
  | none => []
  | some k => slotPages s k slot (ceilDiv len 256) ++ slotParity s k slot (ceilDiv len 256)

/-- The tracker of a session's request that waits for its park, and the request. -/
def parkWaiter (s : State) (id : Nat) : Option (Nat × Request) :=
  match (tracker s 0).reqs.find? (fun r => decide (r.phase = 5) && decide (r.session = id)) with
  | some r => some (0, r)
  | none =>
    match (tracker s 1).reqs.find? (fun r => decide (r.phase = 5) && decide (r.session = id)) with
    | some r => some (1, r)
    | none => none

/-- The park of a session fails (R300): the session is discarded with 0xA050, and a request that asked for it ends. -/
def parkFails (s : State) (id : Nat) (x : Session) : State :=
  let k := x.job % 2
  let s1 := reqError (putSession s id none) k 0xA050 (x.slot + x.job * 2 ^ 12)
  match parkWaiter s1 id with
  | some (j, r) => endRequest s1 j r 0xA050 7 x.len
  | none => s1

/-- Parks a session by steps 2 to 4 of R215: its last pages are sealed, and its pages move to Tier 2. -/
def startPark (s : State) (id : Nat) (x : Session) : State :=
  let s1 :=
    match kvOf s x.job with
    | none => s
    | some k => sealLast s k x.slot x.len
  let runs := sessionRuns s1 x.job x.slot x.len
  let tiles := runs.map (fun p => p.2)
  match findTiles s1 (tilesOf tiles) with
  | some a =>
    let l := pieces false a tiles
    startTransfer (putSession s1 id (some { x with st := 2, ext := l, keys := runs.map (fun p => p.1) })) 0 id l
  | none =>
    if runs.isEmpty then startTransfer (putSession s1 id (some { x with st := 2, ext := [], keys := [] })) 0 id []
    else parkFails s1 id x

/-- The moves that bring a parked session's pages into a slot: those of its pages whose new place is on this module and that were parked here; the
others come from the modules that hold them (R192, R217, log entry 89). -/
def unparkPieces (s : State) (x : Session) (job slot : Nat) : List Piece :=
  let held := List.zip x.keys x.ext
  ((sessionRuns s job slot x.len).map (fun p =>
    match held.find? (fun h => decide (h.1 = p.1) && decide (h.2.tiles = p.2.2)) with
    | none => []
    | some h => [({ t1 := p.2.1, t2 := h.2.t2, tiles := h.2.tiles, inward := true } : Piece)])).flatten

/-- The end of a park (R215 steps 5 and 6, R216, R192). -/
def endPark (s : State) (id status : Nat) : State :=
  match sessionOf s id with
  | none => s
  | some x =>
    if status ≠ 0 then parkFails s id x
    else
      let s1 :=
        match kvOf s x.job with
        | none => s
        | some k => zeroSlot s k x.slot x.len
      let due := if x.evicted then x.due else s.power.slowMs + x.ttl * 1000
      let s2 := putSession s1 id (some { x with st := 1, due := due, evicted := false })
      match parkWaiter s2 id with
      | none => s2
      | some (k, r) =>
        if x.toSpread then putRequest s2 k r { r with phase := 0, resume := true, spread := true, base := x.len, prompt := 0, at0 := r.next }
        else endRequest s2 k r 0 6 x.len

/-- The SEALED_LIMIT words of a slot's layers and groups (R198, R217). -/
def setSealed (s : State) (job slot limit : Nat) : State :=
  match kvOf s job with
  | none => s
  | some k =>
    let layerWords (m : Map Nat) (layer : Nat) : Map Nat :=
      foldState (fun n g => mapPut 0 n (sealKey job slot layer g) limit) m (upFrom 0 k.groups)
    copyLimits (updServ s (fun v => { v with sealedTo := foldState layerWords v.sealedTo (upFrom 0 k.layers) }))

/-- The request that an unpark serves. -/
def unparkWaiter (s : State) (id : Nat) : Option (Nat × Request) :=
  match (tracker s 0).reqs.find? (fun r => decide (r.phase = 1) && decide (r.session = id)) with
  | some r => some (0, r)
  | none =>
    match (tracker s 1).reqs.find? (fun r => decide (r.phase = 1) && decide (r.session = id)) with
    | some r => some (1, r)
    | none => none

/-- The sampling record and stop data of a parameter block, with a seed and the next INDEX (R255, R256, R264). -/
def newSampler (p : List Byte) (seed index : Nat) : Sampler :=
  let w (o : Nat) : Nat := leAt p o 4
  { mode := leAt p 0x14 1, topK := leAt p 0x15 1, topP := BitVec.ofNat 32 (w 0x1C), it := invTemp (BitVec.ofNat 32 (w 0x18)), seed := seed,
    maxNew := w 0x00C, stops := ((upFrom 0 16).map (fun i => w (0x40 + 4 * i))).filter (fun t => decide (t < 2 ^ 24)),
    seqs := (upFrom 0 4).map (fun j =>
      let n := leAt p (0x38 + j) 1
      if n = 0 then [-2] else (upFrom 0 n).map (fun i => ((w (0x80 + 64 * j + 4 * i) : Nat) : Int))),
    history := List.replicate 16 (-1), index := index, stopped := false }

/-- A request enters its slot (R217, R242, R256): its prompt is in the job's prompt buffer, its sampling record, stop data and GRAFT word are written,
and the change to prefill or decode is submitted. A resumed session's last token is its first decode input (R266). -/
def enterSlot (s : State) (k : Nat) (r : Request) (slot base entry token : Nat) : State :=
  let key := slotKey r.job slot
  let q := { r with phase := 2, slot := slot, base := base, poolEnt := entry, at0 := r.next, token := token, stepMs := s.power.slowMs, stepNo := s.serv.commits }
  let s1 := putGraftWord (putRequest s k r q) key entry
  let s2 := updServ s1 (fun v => { v with
    samplers := mapSet v.samplers key (some (newSampler r.param r.seed r.next)), prompts := mapSet v.prompts key (leAt r.param 0 8, r.prompt) })
  if r.prompt = 0 then submitSlot s2 r.job slot 2 0 else submitSlot s2 r.job slot 1 r.prompt

/-- The end of an unpark (R217): the extents are released when the change is applied. -/
def endUnpark (s : State) (id status : Nat) : State :=
  match sessionOf s id with
  | none => s
  | some x =>
    match unparkWaiter s id with
    | none => putSession (dropGraft s (slotKey x.job x.slot)) id (if x.drop then none else some { x with st := 1 })
    | some (k, r) =>
      if status ≠ 0 then
        let s1 := dropGraft (putSession s id (some { x with st := 1 })) (slotKey x.job x.slot)
        endRequest (reqError s1 k 0xA022 (x.slot + x.job * 2 ^ 12)) k r 0xA022 7 x.len
      else
        let s1 :=
          match kvOf s x.job with
          | none => s
          | some kv => restoreRing s kv x.slot x.len
        let s2 := setSealed s1 x.job x.slot (x.len / 256 * 256)
        enterSlot (putSession s2 id (some { x with st := 5 })) k r x.slot x.len r.poolEnt x.token

/-- The extents of sessions whose unpark's change has been applied are released (R217). -/
def releaseUnparked (s : State) : State :=
  foldState (fun u (p : Nat × Option Session) => match p.2 with
    | some x => if x.st = 5 ∧ (slotPoint s x.job x.slot).st ≠ 0 then putSession u p.1 none else u
    | none => u) s s.serv.sessions

/-! ## Admission (R256, R299) -/

/-- Whether a slot counts as occupied for admission (R256, R298): in use, in a pending change, chosen by a request, or held by a session. -/
def occupied (s : State) (job slot : Nat) : Bool :=
  let fr := frsOf s 0
  decide ((slotPoint s job slot).st ≠ 0)
    || fr.chgQueue.any (fun c => decide (c.job = job) && decide (c.slot = slot))
    || fr.chgWait.any (fun c => decide (c.1.job = job) && decide (c.1.slot = slot))
    || (allReqs s).any (fun r => decide (r.phase ≥ 1) && decide (r.job = job) && decide (r.slot = slot))
    || s.serv.sessions.any (fun p => match p.2 with
      | some x => decide (x.st ≠ 1) && decide (x.st ≠ 4) && decide (x.job = job) && decide (x.slot = slot)
      | none => false)

/-- The lowest-numbered free slot of a class. -/
def freeJobSlot (s : State) (job : Nat) (spread : Bool) : Option Nat :=
  (upFrom 0 (jobSlots s job)).find? (fun n => slotSpread s job n == spread && !occupied s job n)

/-- Whether an eviction is in progress (R299). -/
def evicting (s : State) : Bool :=
  s.serv.sessions.any (fun p => match p.2 with
    | some x => decide (x.st = 2) && x.evicted
    | none => false)

/-- The retained sessions of a class of a job whose slot has drained: session, last committed step, slot. -/
def victims (s : State) (job : Nat) (spread : Bool) : List (Nat × Nat × Nat) :=
  (s.serv.sessions.map (fun p => match p.2 with
    | some x =>
      if x.st = 0 ∧ x.job = job ∧ slotSpread s job x.slot = spread ∧ (slotPoint s job x.slot).st = 0 then [(p.1, x.stepNo, x.slot)] else []
    | none => [])).flatten

/-- The session to evict: the oldest last step, the lowest slot among equally old ones (R299). -/
def victim (l : List (Nat × Nat × Nat)) : Option Nat :=
  match l with
  | [] => none
  | v :: r =>
    some (foldState (fun (b : Nat × Nat × Nat) x =>
      if x.2.1 < b.2.1 ∨ (x.2.1 = b.2.1 ∧ x.2.2 < b.2.2) then x else b) v r).1

/-- Room is made for an admission: the oldest retained session of the class is parked (R299). One whose time to live has elapsed is discarded, and its
slot is free at once (R300). -/
def evictFor (s : State) (job : Nat) (spread : Bool) : State × Option Nat :=
  match victim (victims s job spread) with
  | none => (s, none)
  | some id =>
    match sessionOf s id with
    | none => (s, none)
    | some x => if x.due ≤ s.power.slowMs then (putSession s id none, some x.slot) else (startPark s id { x with evicted := true }, none)

/-- A free job slot of a class, the lowest-numbered one, or one made free (R256, R299, R300). -/
def takeSlot (s : State) (job : Nat) (spread : Bool) : State × Option Nat :=
  match freeJobSlot s job spread with
  | some n => (s, some n)
  | none => evictFor s job spread

/-- Tries to admit a waiting request, its graft in place as `entry` (R256, R298, R299). -/
def admitTo (s : State) (k : Nat) (r : Request) (entry : Nat) : State :=
  let unknown : State := endRequest (reqError s k 0xA04A r.job) k r 0xA04A 7 r.base
  if r.resume then
    match sessionOf s r.session with
    | none => unknown
    | some x =>
      if x.st = 4 then unknown
      else if x.st = 0 then
        if (slotPoint s x.job x.slot).st ≠ 0 then s
        else if x.job ≠ r.job then startPark s r.session { x with evicted := true }
        else enterSlot (raiseGraft (putSession s r.session none) r.job x.slot entry) k r x.slot x.len entry x.token
      else if x.st ≠ 1 then s
      else
        match takeSlot s r.job r.spread with
        | (s1, none) => s1
        | (s1, some n) =>
          let s2 := raiseGraft (putSession s1 r.session (some { x with job := r.job, slot := n, st := 3 })) r.job n entry
          startTransfer (putRequest s2 k r { r with phase := 1, slot := n, base := x.len, poolEnt := entry }) 1 r.session (unparkPieces s2 x r.job n)
  else
    match takeSlot s r.job r.spread with
    | (s1, none) => s1
    | (s1, some n) => enterSlot (raiseGraft (setSealed s1 r.job n 0) r.job n entry) k r n 0 entry r.token

/-- Whether a request's model is resident here (R256, R269): off the origin module JOB_SKIP shows it (log entry 44). -/
def modelReady (s : State) (job : Nat) : Bool := if isOrigin s then jobResident s job else !jobSkipped s job

/-- Tries to admit a waiting request (R244, R256). -/
def admitOne (s : State) (k : Nat) (r : Request) : State :=
  if !modelReady s r.job || evicting s || decide ((frsOf s 0).chgQueue.length ≥ 64) then s
  else
    match r.graft with
    | none => admitTo s k r 0
    | some g =>
      match graftEntry s g r.graftAt s.serv.pool with
      | some (e, x) => if x.ready then admitTo s k r e else s
      | none => fetchGraft s g r.graftAt

/-- The waiting requests of a tracker are tried in submission order; one that waits holds back those of its job and class behind it. -/
def admitAll (s : State) (k : Nat) : State :=
  (foldState (fun (a : State × List (Nat × Bool)) (r : Request) =>
    if r.phase ≠ 0 ∨ a.2.contains (r.job, r.spread) = true then a
    else
      let u := admitOne a.1 k r
      (u, if (tracker u k).reqs.contains r then (r.job, r.spread) :: a.2 else a.2)) (s, []) (tracker s k).reqs).1

/-! ## The ends of transfers -/

/-- A graft's move into an entry fails: the requests that wait for it end with 0xA032 (R245). -/
def graftFails (s : State) (e : Nat) (p : PoolEnt) : State :=
  foldState (fun u k =>
    foldState (fun v (r : Request) =>
      if r.phase = 0 ∧ r.graft = some p.graft ∧ r.graftAt = p.places then endRequest (reqError v k 0xA032 p.graft) k r 0xA032 7 r.base else v) u (tracker u k).reqs)
    (putEntry s e none) [0, 1]

/-- The end of a graft's move (R244, R245): one that came in is XOR-written to its parity, and is ready once those writes have completed (R375). -/
def endGraftMove (s : State) (x : Transfer) : State :=
  match mapGet s.serv.pool x.key none with
  | none => s
  | some p =>
    if x.kind = 5 then (if x.status = 0 then putEntry s x.key none else putEntry s x.key (some { p with ready := true }))
    else if x.status = 0 then
      let s1 := xorEntry s x.key
      putEntry s1 x.key (some { p with ready := !xorWaits s1 x.key })
    else graftFails s x.key p

/-- An XOR-write of a pool entry has completed at its parity extent (R375): with the last one the entry is ready. -/
def xorDone (s : State) (k err : Nat) : State :=
  match mapGet s.serv.xorOut k none with
  | none => s
  | some e =>
    let s1 := updServ s (fun v => { v with xorOut := mapErase v.xorOut k })
    let moving := s1.serv.transfers.any (fun q => q.2.any (fun x => decide (x.key = e) && (decide (x.kind = 4) || decide (x.kind = 5))))
    match mapGet s1.serv.pool e none with
    | none => s1
    | some p =>
      if moving ∨ p.ready = true then s1
      else if err ≠ 0 then graftFails s1 e p
      else if xorWaits s1 e then s1
      else putEntry s1 e (some { p with ready := true })

/-- The end of a transfer, by its kind. -/
def endTransfer (s : State) (x : Transfer) : State :=
  match x.kind with
  | 0 => endPark s x.key x.status
  | 1 => endUnpark s x.key x.status
  | 2 => endModelMove s x
  | 3 => endModelMove s x
  | _ => endGraftMove s x

/-- Ended transfers are taken in order, and those that their ends start and that end at once. -/
def endTransfers (fuel : Nat) (s : State) : State :=
  match fuel with
  | 0 => s
  | f + 1 =>
    match endedTransfers s with
    | [] => s
    | l => endTransfers f (foldState (fun u p => endTransfer u p.2) (dropEnded s l) l)

/-- A transfer that a module loss interrupted starts again under the plan in force, from where its data are (R218, R272, R300). -/
def restartMove (s : State) (p : Nat × Nat) : State :=
  let key := p.2
  match p.1 with
  | 0 =>
    match sessionOf s key with
    | some x => if x.st = 2 then startPark (putSession s key (some { x with ext := [], keys := [] })) key { x with ext := [], keys := [] } else s
    | none => s
  | 1 =>
    match sessionOf s key with
    | some x => if x.st = 3 then startTransfer s 1 key (unparkPieces s x x.job x.slot) else s
    | none => s
  | 2 => if (modelOf s key).st = 5 then moveOut (updModel s key (fun y => { y with ext := [], leaving := some true })) key else s
  | 3 =>
    let y := modelOf s key
    if y.st = 2 then startTransfer s 3 key (pieces true (firstTile y.ext) (weightRuns s (placedJob s key))) else s
  | kind =>
    match mapGet s.serv.pool key none with
    | none => s
    | some x =>
      let l := (List.zip (poolTiles s key) x.places).map (fun p => pieces (decide (kind = 4)) p.2 p.1)
      startTransfer (putEntry s key (some { x with ext := l.flatten })) kind key l.flatten

/-- The transfers that a module loss interrupted start again. -/
def restartMoves (s : State) : State := foldState restartMove (updServ s (fun v => { v with again := [] })) s.serv.again

/-- What the serving firmware does after an event: it takes completions of its moves and shards, ends transfers, advances the canopy, admits
requests, and queues further moves. -/
def serveAll (s : State) : State :=
  if fwRuns s then
    let s1 := serveCanopy (endTransfers 8 (takeLanded (takeDones s)))
    pumpTransfers (endTransfers 8 (admitAll (admitAll s1 0) 1))
  else s

/-- A row of the tier mover with what the serving firmware makes of its completions. -/
def thenServe (o : Host.Outcome State Fault Refusal) : Host.Outcome State Fault Refusal :=
  match o with
  | .next s => .next (serveAll s)
  | x => x

end Sys2Proof.Machine
end

