-- ==== Sys2Proof/Machine/Serving.lean ====
section
/-!
DEFINITION. Sys2Proof/Machine/Serving.lean: submissions (R254 to R256, R266, R270, R271), the release of tokens (R258 to R267), deadlines, expiries,
sealing as the firmware does it (R196, R197), and the rows of the tier mover with what the firmware makes of them.
-/
namespace Sys2Proof.Machine

/-! ## Submissions (R253, R254) -/

/-- Whether a tracker takes a submission now: ACCEPT is 1, the ring is not empty, fewer than 4,096 completions are held, and it acts in this
control slot (R253, R259). -/
def takesSubmission (s : State) (k : Nat) : Bool :=
  trackerActs s k && tbit (rq s k 0x040) 0 && decide (ringHolds s k 0x054 0x058 > 0) && decide ((tracker s k).holdC.length < 4096)

/-- Whether a submission entry is malformed (R254). -/
def malformed (e : List Byte) : Bool :=
  let op := leAt e 0 1
  let canopyOp := decide (op ≥ 0x10)
  !([1, 2, 3, 0x10, 0x11, 0x12].contains op) || decide (e.length ≠ 64) || !zeroAt e 3 5 || !zeroAt e 28 36
    || (canopyOp && !zeroAt e 1 1) || (decide (op ≠ 1) && !zeroAt e 2 1) || decide (leAt e 2 1 > 15)
    || decide (leAt e 24 4 ≠ (if op = 1 then 384 else if op = 0x10 then 64 else 0))

/-- A submission completed with an error (R254): STOP_REASON 7, or 0 for a canopy command (R257). -/
def rejectSub (s : State) (k : Nat) (e : List Byte) (code info : Nat) : State :=
  postCompletion (reqError s k code info) k (completion (leAt e 8 8) code (if leAt e 0 1 ≥ 0x10 then 0 else 7) false false 0 0 0)

/-- Whether a plan of the Service profile runs: it accepts no serving requests (R6). -/
def inService (s : State) : Bool :=
  match s.plan with
  | none => false
  | some pl => decide (pl.profile = 3)

/-- Whether a tracker serves a job: TRACKED0–7 (R252), and none in the Service profile (R6, log entry 124). -/
def tracks (s : State) (k job : Nat) : Bool := tbit (rq s k (0x300 + 4 * (job / 32))) (job % 32) && !inService s

/-- Whether a tracker serves canopy commands: die 0's of the origin module, or the one that took over (R252, R456). -/
def servesCanopy (s : State) (k : Nat) : Bool := isOrigin s && (decide (k = 0) || (tracker s 0).lost)

/-- The open request of a tracker with a REQUEST_ID, for a job. -/
def findReq (s : State) (k id job : Nat) : Option Request :=
  (tracker s k).reqs.find? (fun r => decide (r.id = id) && decide (r.job = job))

/-- The first field of a parameter block that is outside its range, by its offset (R255). -/
def paramFault (p : List Byte) : Option Nat :=
  let w (o : Nat) : Nat := leAt p o 4
  let temp := BitVec.ofNat 32 (w 0x18)
  let topp := BitVec.ofNat 32 (w 0x1C)
  let zero (x : Word) : Bool := x == 0#32 || x == 0x80000000#32
  let tok (v : Nat) : Bool := decide (v < 2 ^ 24)
  let bad : List (Bool × Nat) := [
    (decide (w 0x008 > 4194304), 0x008),
    (decide (w 0x00C < 1) || decide (w 0x008 + w 0x00C > 4194304), 0x00C),
    (decide (leAt p 0x14 1 > 1), 0x14),
    (decide (leAt p 0x15 1 > 64), 0x15),
    (decide (leAt p 0x16 1 > 7), 0x16),
    (!zeroAt p 0x17 1, 0x17),
    (f32isNaN temp || !(zero temp || (!f32lt temp 0x3C23D70A#32 && !f32lt 0x447A0000#32 temp)), 0x18),
    (f32isNaN topp || !(f32lt 0#32 topp && !f32lt 0x3F800000#32 topp), 0x1C),
    (decide (w 0x28 > 65535) && decide (w 0x28 ≠ 0xFFFFFFFF), 0x28),
    (decide (w 0x2C > 86400), 0x2C),
    (zeroAt p 0x30 8, 0x30),
    ((upFrom 0 4).any (fun j => decide (leAt p (0x38 + j) 1 > 16)), 0x38),
    (!zeroAt p 0x3C 4, 0x3C),
    ((upFrom 0 16).any (fun i => !tok (w (0x40 + 4 * i)) && decide (w (0x40 + 4 * i) ≠ 0xFFFFFFFF)), 0x40),
    ((upFrom 0 4).any (fun j => (upFrom 0 16).any (fun i => !tok (w (0x80 + 64 * j + 4 * i)))), 0x80)]
  match bad.find? (fun x => x.1) with
  | some x => some x.2
  | none => none

/-- Positions that the session of a resuming request holds, where it is known and of the job's model (R191, R255, R271). -/
def heldLen (s : State) (job id : Nat) : Option Nat :=
  match sessionOf s id with
  | none => none
  | some x =>
    if x.st = 4 ∨ x.st = 5 then none
    else if x.job = job then some x.len
    else
      match jobModel s x.job, jobModel s job with
      | some a, some b => if a.1 = b.1 then some x.len else none
      | _, _ => none

/-- The request that a GENERATE opens (R255, R262). -/
def newRequest (s : State) (k : Nat) (e p : List Byte) (graft : Option (List Nat)) (base : Nat) : Request :=
  let valid := decide (leAt p 0x16 1 / 2 % 2 = 1)
  let d := leAt p 0x10 4
  let ttl := leAt p 0x2C 4
  { id := leAt e 8 8, job := leAt e 1 1, ring := leAt e 2 1, home := k, prompt := leAt p 0x08 4, maxNew := leAt p 0x0C 4,
    due := if d = 0 then none else some (s.power.slowMs + d), inclStop := decide (leAt p 0x16 1 % 2 = 1),
    seed := if valid then leAt p 0x20 8 else (Config.random s.fresh).toNat % 2 ^ 64, seedChosen := !valid,
    graft := if leAt p 0x28 4 = 0xFFFFFFFF then none else some (leAt p 0x28 4),
    graftAt := (match graft with
      | some l => l
      | none => []),
    ttl := if ttl = 0 then 900 else ttl, session := leAt p 0x30 8, resume := decide (leAt p 0x16 1 / 4 % 2 = 1),
    spread := isSpread (leAt p 0x08 4 + leAt p 0x0C 4 + base), base := base, phase := 0, slot := 0, poolEnt := 0, anomaly := false,
    written := 0, next := 0, at0 := 0, token := 0, param := p }

/-- A GENERATE (R254 to R256): its checks in order, and the request it opens. -/
def generate (s : State) (k : Nat) (e p : List Byte) (graft : Option (List Nat)) : State :=
  let job := leAt e 1 1
  let resume := decide (leAt p 0x16 1 / 4 % 2 = 1)
  let held := if resume then heldLen s job (leAt p 0x30 8) else some 0
  if !tracks s k job then rejectSub s k e 0xA041 job
  else if (tracker s k).reqs.any (fun r => decide (r.id % 2 ^ 32 = leAt e 8 4)) then rejectSub s k e 0xA042 job
  else
    match paramFault p with
    | some o => rejectSub s k e 0xA045 o
    | none =>
      if leAt p 0x08 4 = 0 ∧ resume = false then rejectSub s k e 0xA040 1
      else if resume && !hasFeature s 4 then rejectSub s k e 0xA04B (4 + 256)
      else
        match held with
        | none => rejectSub s k e 0xA04A job
        | some base =>
          if leAt p 0x28 4 ≠ 0xFFFFFFFF ∧ (graft.isNone ∨ poolEntries s = 0) then rejectSub s k e 0xA030 (leAt p 0x28 4)
          else if leAt p 0x08 4 + leAt p 0x0C 4 + base > 4194304 then rejectSub s k e 0xA020 job
          else if !(if isOrigin s then jobResident s job || jobLoading s job else !jobSkipped s job) then
            rejectSub s k e 0xA043 (match jobModel s job with
              | some m => m.1
              | none => 0)
          else
            let r := newRequest s k e p graft base
            let s1 := reqCount (updTracker { s with fresh := s.fresh + 1 } k (fun x => { x with reqs := x.reqs ++ [r] })) k 0x50 1
            serveAll s1

/-- A CANCEL (R266, R298): an open request ends with reason 5. -/
def cancel (s : State) (k : Nat) (e : List Byte) : State :=
  let job := leAt e 1 1
  if !tracks s k job then rejectSub s k e 0xA041 job
  else
    match findReq s k (leAt e 8 8) job with
    | none => rejectSub s k e 0xA047 job
    | some r => serveAll (closeRequest s k r 0 5)

/-- The record of a session that a request parks (R192, R215, R266). -/
def parkSession (s : State) (r : Request) : Session :=
  { job := r.job, slot := r.slot, len := reqLen s r, spread := r.spread && decide (r.phase = 3), ttl := r.ttl, stepMs := r.stepMs, stepNo := r.stepNo,
    due := 0, st := 2, evicted := false, toSpread := decide (r.phase = 4), drop := false, ext := [], format := slotFormat s r.job, token := r.token }

/-- A PARK (R215, R266): a request in its slot drains, or goes on draining, to be parked; one that has none ends with reason 6. A request that is to
be admitted again after its slot has drained is parked with the positions it has, like one still in prefill; one that waits for its restart is
parked once the resume unit is in force (R218). -/
def park (s : State) (k : Nat) (e : List Byte) : State :=
  let job := leAt e 1 1
  if !tracks s k job then rejectSub s k e 0xA041 job
  else if !hasFeature s 4 then rejectSub s k e 0xA04B (4 + 3 * 256)
  else
    match findReq s k (leAt e 8 8) job with
    | none => rejectSub s k e 0xA047 job
    | some r =>
      if r.phase = 2 then putRequest (submitSlot s job r.slot 3 0) k r { r with phase := 3 }
      else if r.phase = 4 then putRequest s k r { r with phase := 3 }
      else if r.phase = 6 then putRequest s k r { r with phase := 3, prompt := 0, at0 := r.next }
      else if r.phase = 7 then
        updServ (putSession (putRequest s k r { r with phase := 5 }) r.session (some { parkSession s r with len := r.base }))
          (fun v => { v with again := v.again ++ [(0, r.session)] })
      else if r.phase ≤ 1 then serveAll (closeRequest s k r 0 6)
      else s

/-- A CANOPY_LOAD (R270, R272, R372, R495). -/
def canopyLoad (s : State) (k : Nat) (e p manifest : List Byte) (sigOk staged : Bool) : State :=
  let m := leAt p 0 1
  let isSealed := decide (leAt manifest 9 1 % 2 = 1)
  let st := (modelOf s m).st
  if !servesCanopy s k then rejectSub s k e 0xA041 0
  else if decide (m > 31) || decide (leAt p 1 1 > 1) || !zeroAt p 2 6 || !zeroAt p 20 44 then rejectSub s k e 0xA040 0x10
  else if st = 2 ∨ st = 3 ∨ st = 4 then canopyDone s k (leAt e 8 8) 0
  else if st = 0 ∧ isSealed = true ∧ staged = true ∧ hasFeature s 5 = false then rejectSub s k e 0xA04B (5 + 0x1000)
  else if st = 0 ∧ isSealed = false ∧ hasFeature s 6 = false then rejectSub s k e 0xA04B (6 + 0x1000)
  else
    match (if st = 0 then manifestFault s manifest sigOk else none) with
    | some x => canopyDone (recordError s 0 8 x.1 x.2) k (leAt e 8 8) x.1
    | none =>
      let x : CanopyLoad :=
        { id := leAt e 8 8, tracker := k, model := m, standby := decide (leAt p 1 1 = 1) && hasFeature s 4, manifest := manifest,
          host := leAt p 8 8 + leAt p 16 4, staged := staged, chosen := none, former := st, again := false,
          sigOk := sigOk, checked := decide (st = 0) }
      let s1 := if st = 0 then noteManifest s manifest else s
      serveAll (updServ s1 (fun v => { v with loads := v.loads ++ [x], lastLoad := mapSet v.lastLoad m (some x) }))

/-- A CANOPY_PIN or CANOPY_UNPIN of a model (R271). -/
def canopyPin (s : State) (k : Nat) (e : List Byte) (m : Nat) (pin : Bool) : State :=
  let st := (modelOf s m).st
  if !servesCanopy s k then rejectSub s k e 0xA041 0
  else if st ≠ 3 ∧ st ≠ 4 then rejectSub s k e 0xA043 m
  else if !pin && latencyPinned s (placedJob s m) then rejectSub s k e 0xA049 m
  else canopyDone (updModel s m (fun x => { x with st := if pin then 4 else 3 })) k (leAt e 8 8) 0

/-- What a submission brings beside its entry: the parameter block, a graft's Tier 2 tiles where it is registered, the model's manifest with the
verdict on its signature and whether its shards are staged in the pool, and the model that a pin names. -/
structure SubExtra where
  param : List Byte
  graft : Option (List Nat)
  manifest : List Byte
  sigOk : Bool
  staged : Bool
  model : Nat

/-- A submission is read in index order and acted on by its OPCODE (R253, R254). -/
def submission (s : State) (k : Nat) (e : List Byte) (x : SubExtra) : State :=
  if takesSubmission s k then
    let s1 := setRq s k 0x058 (rq s k 0x058 + 1#32)
    if malformed e then rejectSub s1 k e 0xA040 (leAt e 0 1)
    else
      match leAt e 0 1 with
      | 0x01 => generate s1 k e x.param x.graft
      | 0x02 => cancel s1 k e
      | 0x03 => park s1 k e
      | 0x10 => canopyLoad s1 k e x.param x.manifest x.sigOk x.staged
      | 0x11 => canopyPin s1 k e x.model true
      | _ => canopyPin s1 k e x.model false
  else s

/-- A submission that brings a parameter block and, of a graft, its Tier 2 tiles. -/
def plainExtra (p : List Byte) (graft : Option (List Nat)) : SubExtra :=
  { param := p, graft := graft, manifest := [], sigOk := false, staged := false, model := 0 }

/-- GENERATE (R254 to R256). -/
def execGenerate (t : Time) (k : Fin 2) (entry param : List Byte) (graft : Option (List Nat)) (s : State) : Host.Outcome State Fault Refusal :=
  .next (submission (advance s t) k.val entry (plainExtra param graft))

/-- CANCEL (R266). -/
def execCancel (t : Time) (k : Fin 2) (entry : List Byte) (s : State) : Host.Outcome State Fault Refusal :=
  .next (submission (advance s t) k.val entry (plainExtra [] none))

/-- PARK (R215, R266). -/
def execPark (t : Time) (k : Fin 2) (entry : List Byte) (s : State) : Host.Outcome State Fault Refusal :=
  .next (submission (advance s t) k.val entry (plainExtra [] none))

/-- CANOPY_LOAD (R270). -/
def execCanopyLoad (t : Time) (k : Fin 2) (entry param manifest : List Byte) (sigOk staged : Bool) (s : State) :
    Host.Outcome State Fault Refusal :=
  .next (submission (advance s t) k.val entry
    { param := param, graft := none, manifest := manifest, sigOk := sigOk, staged := staged, model := 0 })

/-- CANOPY_PIN (R271): the rule does not say where the entry names the model (log entry 46). -/
def execCanopyPin (t : Time) (k : Fin 2) (entry : List Byte) (m : Fin 32) (s : State) : Host.Outcome State Fault Refusal :=
  .next (submission (advance s t) k.val entry { plainExtra [] none with model := m.val })

/-- CANOPY_UNPIN (R271). -/
def execCanopyUnpin (t : Time) (k : Fin 2) (entry : List Byte) (m : Fin 32) (s : State) : Host.Outcome State Fault Refusal :=
  .next (submission (advance s t) k.val entry { plainExtra [] none with model := m.val })

/-- REQUEST_ADMIT (R256, R299). -/
def execRequestAdmit (t : Time) (k : Fin 2) (s : State) : Host.Outcome State Fault Refusal :=
  let s1 := advance s t
  .next (if trackerActs s1 k.val then serveAll (admitAll s1 k.val) else s1)

/-! ## Deadlines and expiries (R216, R245, R256, R266, R298) -/

/-- A request whose deadline has elapsed ends (R245, R256, R266). -/
def expireRequest (k : Nat) (s : State) (r : Request) : State :=
  match r.due with
  | none => s
  | some d =>
    if s.power.slowMs < d then s
    else if r.phase = 0 then
      let fromPool :=
        match r.graft with
        | some g => (graftEntry s g r.graftAt s.serv.pool).isNone && poolBusy s
        | none => false
      if fromPool then endRequest (reqError s k 0xA031 (r.slot + r.job * 2 ^ 12)) k r 0xA031 7 r.base
      else endRequest (reqError s k 0xA046 r.job) k r 0xA046 7 r.base
    else if r.phase = 5 then s
    else closeRequest s k r 0 4

/-- The deadlines of a tracker are checked (R260). -/
def checkDeadlines (s : State) (k : Nat) : State := foldState (expireRequest k) s (tracker s k).reqs

/-- REQUEST_DEADLINE (R266). -/
def execRequestDeadline (t : Time) (k : Fin 2) (s : State) : Host.Outcome State Fault Refusal :=
  let s1 := advance s t
  .next (if trackerActs s1 k.val then serveAll (checkDeadlines s1 k.val) else s1)

/-- Whether a request that resumes a session waits: it was received before the session's expiry (R216). -/
def resumeWaits (s : State) (id : Nat) : Bool := (allReqs s).any (fun r => r.resume && decide (r.phase ≤ 1) && decide (r.session = id))

/-- Retained sessions whose time to live has elapsed are discarded (R298). -/
def expireRetained (s : State) : State :=
  foldState (fun u p => match p.2 with
    | some x => if x.st = 0 ∧ x.due ≤ s.power.slowMs then putSession u p.1 none else u
    | none => u) s s.serv.sessions

/-- The Tier 2 extents of parked sessions whose time to live has elapsed are freed, and their park records hold the expiry (R216). An unpark request
received in the millisecond at which it elapses comes before the expiry, which therefore falls in the next one. -/
def expireParked (s : State) : State :=
  foldState (fun u p => match p.2 with
    | some x => if x.st = 1 ∧ x.due < s.power.slowMs ∧ resumeWaits s p.1 = false then putSession u p.1 (some { x with st := 4, ext := [], keys := [] }) else u
    | none => u) s s.serv.sessions

/-- PARK_TTL_EXPIRY (R216): the Tier 2 extents of parked sessions whose time has elapsed are freed. -/
def execParkTtlExpiry (t : Time) (s : State) : Host.Outcome State Fault Refusal :=
  let s1 := advance s t
  .next (if fwRuns s1 then expireParked s1 else s1)

/-- RETAINED_SESSION_EXPIRY (R298, R300). -/
def execRetainedSessionExpiry (t : Time) (s : State) : Host.Outcome State Fault Refusal :=
  let s1 := advance s t
  .next (if fwRuns s1 then serveAll (expireRetained s1) else s1)

/-! ## Token release (R258 to R265) -/

/-- Whether a jump report makes the token of a step an anomaly (R260): no recomputation was asked, or the jump came in the recomputation. -/
def isAnomaly (s : State) (k job frame : Nat) : Bool :=
  (tracker s k).jumps.any (fun j => decide (j.job.val = job) && decide (j.frame = frame) && (!j.recompute || j.inRecompute))

/-- Whether the records of a job's step are discarded for a recomputation (R115, R260): the frame after it is a replay frame for the job, or a jump
report asked for one. -/
def discarded (s : State) (k job frame : Nat) : Bool :=
  tbit (frsOf s 0).replay job
    || (tracker s k).jumps.any (fun j => decide (j.job.val = job) && decide (j.frame = frame) && j.recompute && !j.inRecompute)

/-- PIPE_LAG of the stage group that samples for a job: the largest of the job's groups (R124, R157, log entry 123). -/
def samplerLag (s : State) (job : Nat) : Nat :=
  foldState (fun a die => foldState (fun m (g : SGroup) => if g.tag = job then max m g.lag else m) a (progBank s die).groups) 0 frsDies

/-- Whether a slot produces a token in the last committed step (R261): it is in decode there, or in prefill and its chunk holds the last prompt
token. -/
def producesToken (s : State) (job slot : Nat) : Bool :=
  let fr := frsOf s 0
  let lag := samplerLag s job
  let step := jobStep fr job - 1
  if jobStep fr job < mapGet fr.planSteps job 0 + lag + 1 then false
  else
    let p := pointAt (slotLine fr job slot) (step - lag)
    let n := (step - lag - p.step) * jobChunk s job
    decide (p.st = 2) || (decide (p.st = 1) && decide (n < p.len) && decide (p.len ≤ n + jobChunk s job))

/-- What the tracker does after it has released the records of a control slot: a request, and the status and reason that end it. -/
abbrev Stops := List (Request × Nat × Nat)

/-- A released token of a request (R258, R259, R265): the token, INDEX, REASON and ANOMALY of its record. -/
def releaseFor (s : State) (k : Nat) (r : Request) (x : Nat × Nat × Nat × Bool) (frame : Nat) : State × Stops :=
  let again := mapGet (tracker s k).replayed r.job false
  let odd := x.2.2.2 || isAnomaly s k r.job frame || jobRebuilding s r.job
  let reason := x.2.2.1
  let streams := decide (reason = 0) || decide (reason = 3) || r.inclStop
  let r1 := { r with next := x.2.1 + 1, token := x.1, anomaly := r.anomaly || odd }
  if x.2.1 < r.next then (s, [])
  else if streams then
    if streamFull s r.home r.ring then (reqError s k 0xA044 (r.ring + r.job * 16), [(r, 0xA044, 7)])
    else
      let e := streamEntry (r.id % 2 ^ 32) x.1 x.2.1 odd (decide (reason ≠ 0)) again
      let r2 := { r1 with written := r1.written + 1 }
      (putRequest (postStream s r.home r.ring e) k r r2, if reason = 0 then [] else [(r2, 0, reason)])
  else (putRequest s k r r1, [(r1, 0, reason)])

/-- LEN of a session at the start of a frame, as the tracker kept it (R466), or its LEN now. -/
def lenAt (s : State) (k frame : Nat) (r : Request) : Nat :=
  match (tracker s k).lens.find? (fun x => decide (x.1 = frame) && decide (x.2.1 = r.session)) with
  | some x => x.2.2
  | none => reqLen s r

/-- A poisoned record (R443): the session is admitted again from its restart length once its slot has drained. -/
def readmit (s : State) (k : Nat) (r : Request) : State :=
  let stop := frameNum s 0
  let rs := lenAt s k (stop - (progBank s 0).agreeLag - 1) r
  let len := reqLen s r
  putRequest (submitSlot s r.job r.slot 3 0) k r { r with phase := 6, base := rs, prompt := len - rs, at0 := r.next }

/-- The slot's sampler after a step. -/
def putSampler (s : State) (key : Nat) (x : Sampler) : State := updServ s (fun v => { v with samplers := mapSet v.samplers key (some x) })

/-- One record of the frame that ended (R260, R443): VALID is 0 where the slot produced no token or is STOPPED (R261, R264). -/
def releaseRec (k frame : Nat) (a : State × Stops) (x : TokenRec) : State × Stops :=
  let s := a.1
  let key := slotKey x.job.val x.slot.val
  match mapGet s.serv.samplers key none with
  | none => a
  | some y =>
    if y.stopped || !producesToken s x.job.val x.slot.val then a
    else if discarded s k x.job.val frame then (reqCount s k 0x53 1, a.2)
    else
      match (tracker s k).reqs.find? (fun r => decide (r.job = x.job.val) && decide (r.slot = x.slot.val) && decide (2 ≤ r.phase)
          && decide (r.phase ≤ 4)) with
      | none => a
      | some r =>
        if x.poison then (if r.phase = 2 then readmit s k r else s, a.2)
        else
          let z := sampleStep y x.logits
          let b := releaseFor (putSampler s key z.2) k r z.1 frame
          (b.1, a.2 ++ b.2)

/-- A record with a stop reason, or one that found its stream full, closes its request (R259, R265). -/
def stopRequest (k : Nat) (s : State) (x : Request × Nat × Nat) : State := closeRequest s k x.1 x.2.1 x.2.2

/-- Inserts a record by ascending job slot. -/
def insertRec (x : TokenRec) (l : List TokenRec) : List TokenRec :=
  match l with
  | [] => [x]
  | y :: r => if x.job.val * 4096 + x.slot.val ≤ y.job.val * 4096 + y.slot.val then x :: y :: r else y :: insertRec x r

/-- The jobs of the plan in force. -/
def planJobs (s : State) : List FJob :=
  match s.plan with
  | none => []
  | some pl => pl.jobs

/-- Whether a job slot of the plan in force is in a state. -/
def anySlot (s : State) (st : Nat) : Bool :=
  (planJobs s).any (fun j => (upFrom 0 j.slots).any (fun n => decide ((slotPoint s j.tag n).st = st)))

/-- Whether prefill work of the Balanced profile is queued (R170): an unlocked command of a job on a core that owns no stage. -/
def prefillQueued (s : State) : Bool :=
  match s.plan with
  | none => false
  | some pl =>
    decide (pl.profile = 1) && (upFrom 0 1152).any (fun c =>
      let x := core s c
      (!x.q0.entries.isEmpty || !x.q1.entries.isEmpty || !x.q2.entries.isEmpty || !x.q3.entries.isEmpty) && !ownsStage s c)

/-- The phase of the module (R267). -/
def modulePhase (s : State) : Nat :=
  if anySlot s 2 then 0
  else if anySlot s 1 || prefillQueued s then 1
  else if !s.loader.queue.isEmpty || s.serv.models.any (fun p => decide (p.2.st = 2) || decide (p.2.st = 5))
      || s.serv.transfers.any (fun p => match p.2 with
        | some x => decide (x.kind = 2) || decide (x.kind = 3)
        | none => false) then 2
  else if s.serv.transfers.any (fun p => match p.2 with
      | some x => decide (x.kind ≤ 1)
      | none => false) then 3
  else 4

/-- PHASE_SELECT (R267, R402): decode, prefill, load, park, idle are phases 0 to 4. -/
def selectPhase (s : State) : State := if reachable s 90 9 then setReg s 90 9 0x064 (BitVec.ofNat 32 (modulePhase s)) else s

/-- The tracker of this module that serves the jobs of a parity: even jobs die 0, odd ones die 99, or the one that took over (R252, R456). -/
def trackerOf (s : State) (job : Nat) : Nat := if (tracker s (job % 2)).lost then 1 - job % 2 else job % 2

/-- The routing statistics of a layer's step are accumulated for its job and layer; NaN rows are an error in the REQ page of the job's tracker
(R251). -/
def readRouting (s : State) (x : RouteStat) : State :=
  let key := x.job.val * 1024 + x.layer.val
  let y := mapGet s.serv.routing key { overflows := 0, drops := 0, nanRows := 0, lanes := 0 }
  let s1 := updServ s (fun v => { v with
    routing := mapSet v.routing key { overflows := y.overflows + x.overflows, drops := y.drops + x.drops, nanRows := y.nanRows + x.nanRows,
                                      lanes := y.lanes + x.lanes } })
  if x.nanRows = 0 then s1 else reqError s1 (trackerOf s x.job.val) 0x2050 (x.job.val + x.layer.val * 256)

/-- Reports that asked for no recomputation, of a frame whose records are discarded, count for the same step in the next frame (R260); older ones are
done with. -/
def keepJumps (s : State) (k frame : Nat) (l : List JumpRep) : List JumpRep :=
  (l.filter (fun j => decide (j.frame > frame) || (decide (j.frame = frame) && !j.recompute && discarded s k j.job.val frame))).map (fun j =>
    if j.frame = frame then { j with frame := frame + 1 } else j)

/-- TOKEN_RELEASE (R260): the records of the frame that ended, in ascending job slot; then stop reasons; then deadlines; then the phase. -/
def releaseAll (s : State) (k : Nat) (recs : List TokenRec) (routing : List RouteStat) : State :=
  let frame := frameNum s 0 - 1
  let sorted := foldState (fun l x => insertRec x l) [] recs
  let a := foldState (releaseRec k frame) (s, []) sorted
  let s1 := foldState (stopRequest k) a.1 a.2
  let held := (recs.filter (fun x => discarded s k x.job.val frame)).map (fun x => x.job.val)
  let s2 := updTracker s1 k (fun x => { x with
    replayed := foldState (fun m j => mapSet m j true) [] held, jumps := keepJumps s k frame x.jumps })
  let s3 := foldState readRouting (checkDeadlines s2 k) routing
  serveAll (selectPhase s3)

/-- TOKEN_RELEASE (R260). -/
def execTokenRelease (t : Time) (k : Fin 2) (recs : List TokenRec) (routing : List RouteStat) (s : State) :
    Host.Outcome State Fault Refusal :=
  let s1 := advance s t
  .next (if trackerActs s1 k.val then releaseAll s1 k.val recs routing else s1)

/-! ## Sealing (R192, R196, R197) -/

/-- The request in a job slot, with its tracker. -/
def slotRequest (s : State) (job slot : Nat) : Option (Nat × Request) :=
  let here (r : Request) : Bool := decide (r.job = job) && decide (r.slot = slot) && decide (r.phase ≥ 2) && decide (r.phase ≠ 5)
  match (tracker s 0).reqs.find? here with
  | some r => some (0, r)
  | none =>
    match (tracker s 1).reqs.find? here with
    | some r => some (1, r)
    | none => none

/-- Whether the firmware may seal now: in a control slot of the writer's die, or of die 0 where the writer is on another module (R154, R196). -/
def sealsNow (s : State) (k : KvLayout) (slot layer group : Nat) : Bool :=
  match ringRec s k layer group slot with
  | none => inCtl s 0
  | some (_, c) => inCtl s (coreDie c)

/-- SEAL_PAGE (R196, R197): where the firmware cannot seal in time, the request ends with 0xA021. -/
def execSealPage (t : Time) (job : Fin 256) (slot : Fin 4096) (layer : Fin 1024) (group : Fin 64) (page : Fin 16384) (inTime : Bool) (s : State) :
    Host.Outcome State Fault Refusal :=
  let s1 := advance s t
  if inTime then
    match kvOf s1 job.val with
    | none => .next s1
    | some k => .next (if sealsNow s1 k slot.val layer.val group.val then sealPage s1 k slot.val layer.val group.val page.val else s1)
  else
    match slotRequest s1 job.val slot.val with
    | none => .next s1
    | some (k, r) => .next (closeRequest (reqError s1 k 0xA021 (slot.val + job.val * 2 ^ 12)) k r 0xA021 7)

/-- LOCAL_SEQUENCE_NOT_EXTENDED (R192): a local sequence one step short of position 262,144 drains, to be parked and unparked into the spread
class. -/
def execLocalSequenceNotExtended (t : Time) (job : Fin 256) (slot : Fin 4096) (s : State) : Host.Outcome State Fault Refusal :=
  let s1 := advance s t
  match slotRequest s1 job.val slot.val with
  | none => .next s1
  | some (k, r) =>
    if r.phase = 2 ∧ slotSpread s1 job.val slot.val = false ∧ reqLen s1 r ≥ 262143 then
      .next (putRequest (submitSlot s1 job.val slot.val 3 0) k r { r with phase := 4 })
    else .next s1

/-! ## Grafts in training (R247) -/

/-- A graft's record of training. -/
def trainingOf (s : State) (g : Nat) : Training :=
  mapGet s.serv.training g { mean := 0#32, seen := 0, jumps := 0, stopped := false, factor := 0#32 }

/-- Whether a gradient sample is NaN, infinite or negative. -/
def sampleBad (v : Word) : Bool :=
  match f32dec v with
  | .nan => true
  | .inf _ => true
  | .fin neg m _ => neg && decide (m ≠ 0)

/-- The job that trains a graft: that of a slot which holds it. -/
def graftJob (s : State) (g : Nat) : Nat :=
  match s.serv.grafted.find? (fun p => match mapGet s.serv.pool p.2 none with
    | some x => decide (x.graft = g)
    | none => false) with
  | some p => p.1 / 4096
  | none => 0

/-- The verdict on a gradient sample of a graft (R247): `factor` is the job's step factor where its write completes before the update command issues;
without one the factor word holds +0. -/
def graftVerdict (s : State) (g : Nat) (e : Envelope) (v : Word) (factor : Option Word) : State :=
  let x := trainingOf s g
  if x.stopped then s
  else
    let warm := decide (x.seen < e.warmup)
    let jump := sampleBad v || (!warm && f32lt (f32mul (BitVec.ofNat 32 e.thresh) x.mean) v)
    let step := f32ofRat .nearestEven false 1 (2 ^ e.alpha) 0
    let mean := if x.seen = 0 then v else f32add x.mean (f32mul step (f32sub v x.mean))
    let n := x.jumps + 1
    if jump then
      let y : Training := { x with seen := x.seen + 1, jumps := n, stopped := decide (n ≥ e.stop), factor := 0#32 }
      let s1 := updServ s (fun q => { q with training := mapSet q.training g y })
      if n ≥ e.stop then reqError s1 (trackerOf s1 (graftJob s1 g)) 0xA033 g else s1
    else
      let y : Training := { x with mean := mean, seen := x.seen + 1, jumps := 0, factor := factor.getD 0#32 }
      updServ s (fun q => { q with training := mapSet q.training g y })

/-- GRAFT_VERDICT (R247): a graft in training, its sample word, and the job's step factor; none where its write does not complete before the update
command issues. -/
def execGraftVerdict (t : Time) (g : Fin 65536) (sample : Word) (factor : Option Word) (s : State) : Host.Outcome State Fault Refusal :=
  let s1 := advance s t
  match s1.plan with
  | none => .next s1
  | some pl =>
    match pl.env with
    | none => .next s1
    | some e => if fwRuns s1 && inCtl s1 0 then .next (graftVerdict s1 g.val e sample factor) else .next s1

/-! ## What a frame boundary of die 0 brings to serving -/

/-- The slot of a request that drains is free: its park starts, or it is admitted again (R215, R192, R443). -/
def slotEnds (k : Nat) (s : State) (r : Request) : State :=
  match r.phase with
  | 6 => submitSlot (raiseGraft (putRequest s k r { r with phase := 2 }) r.job r.slot r.poolEnt) r.job r.slot 1 r.prompt
  | 3 => startPark (putRequest s k r { r with phase := 5, base := reqLen s r }) r.session (parkSession s r)
  | 4 => startPark (putRequest s k r { r with phase := 5, base := reqLen s r }) r.session (parkSession s r)
  | _ => s

/-- A module loss stops the frames: every slot is free, and the park of a request that drained starts once the slot's cache is rebuilt (R218). -/
def parkLater (k : Nat) (s : State) (r : Request) : State :=
  updServ (putSession (putRequest s k r { r with phase := 5, base := reqLen s r }) r.session (some (parkSession s r)))
    (fun v => { v with again := v.again ++ [(0, r.session)] })

/-- What follows where a slot's draining-to-free transition took place since an older state. -/
def slotFreed (old : State) (k : Nat) (s : State) (r : Request) : State :=
  if (slotPoint old r.job r.slot).st = 3 ∧ (slotPoint s r.job r.slot).st = 0 then slotEnds k s r else s

/-- The reference of a pool entry ends with its slot's draining-to-free transition (R244). -/
def graftFreed (old : State) (s : State) (p : Nat × Nat) : State :=
  let job := p.1 / 4096
  let slot := p.1 % 4096
  if (slotPoint old job slot).st = 3 ∧ (slotPoint s job slot).st = 0 then dropGraft s p.1 else s

/-- A boundary at which a step was committed: the time and count of the last committed step of every request whose slot appended in it (R298,
R299). -/
def noteCommits (old s : State) : State :=
  if outOfStep s 0 then s
  else
    let s1 := updServ s (fun v => { v with commits := v.commits + 1 })
    let mark (r : Request) : Request :=
      let st := (slotPoint old r.job r.slot).st
      if 2 ≤ r.phase ∧ (st = 1 ∨ st = 2) ∧ jobStep (frsOf s 0) r.job > jobStep (frsOf old 0) r.job then
        { r with stepMs := s.power.slowMs, stepNo := s1.serv.commits }
      else r
    foldState (fun u k => updTracker u k (fun x => { x with reqs := x.reqs.map mark })) s1 [0, 1]

/-- The LEN of every open session at the start of a frame is kept for AGREE_LAG + 2 frames (R466); frames out of step commit nothing. -/
def keepLens (s : State) (k : Nat) : State :=
  if outOfStep s 0 then s else
  let f := frameNum s 0
  let lag := (progBank s 0).agreeLag
  updTracker s k (fun x => { x with
    lens := x.lens.filter (fun p => decide (p.1 + lag + 1 ≥ f)) ++ ((x.reqs.filter (fun r => decide (r.phase ≥ 2))).map (fun r => (f, r.session, reqLen s r))) })

/-- Models that wait to move out do so once every job slot of their job is free (R269, R270). -/
def skipEvicting (s : State) : State := foldState (fun u (p : Nat × Model) => if p.2.st = 5 then moveOut u p.1 else u) s s.serv.models

/-- Serving after a frame boundary of die 0: `old` is the state before it. -/
def servBoundary (old s : State) : State :=
  let s0 := copyLimits (dueParities (noteCommits old s))
  let s1 := foldState (graftFreed old) s0 s0.serv.grafted
  let s2 := foldState (fun u k => foldState (slotFreed old k) u (tracker u k).reqs) s1 [0, 1]
  serveAll (skipEvicting (releaseUnparked (keepLens (keepLens s2 0) 1)))

/-- The tracking module of a job (R252): slot 0 of the tray that owns its last layer. -/
def trackingNode (pl : PlanInfo) (job : Nat) : Option Nat :=
  let own := pl.stages.filter (fun g => decide (g.job = job))
  let last := foldState (fun a (g : Stage) => max a g.layer) 0 own
  match own.find? (fun g => decide (g.layer = last)) with
  | none => none
  | some g => some (g.node - nodeX g.node)

/-- The module that tracks a job: of a lost tracking module its X1 peer (R252, R466). -/
def trackerNow (s : State) (pl : PlanInfo) (job : Nat) : Option Nat :=
  match trackingNode pl job with
  | none => none
  | some n => if s.fo.lost.contains n then some (nodeOf (Nat.xor (nodeX n) 1) (nodeY n) (nodeZ n)) else some n

/-- TRACKED0–7 of both trackers under a plan (R252). -/
def showTracked (s : State) (pl : PlanInfo) : State :=
  foldState (fun u k =>
    foldState (fun v i =>
      setRq v k (0x300 + 4 * i) (BitVec.ofNat 32 (foldState (fun a j =>
        let job := 32 * i + j
        if trackerOf v job = k ∧ jobSlots v job > 0 ∧ trackerNow v pl job = some (ownNode v) then a + 2 ^ j else a) 0 (upFrom 0 32)))) u (upFrom 0 8))
    s [0, 1]

/-- What a plan switch brings to serving (R252, R268, R269): a new plan's models are ABSENT, with JOB_SKIP set for their jobs; a fallback unit
keeps them, and its jobs are tracked as unit 0 of the container has them tracked, but for lost modules (R466). -/
def servePlan (s : State) : State :=
  match s.plan with
  | none => s
  | some pl =>
    let s1 := showTracked s (if pl.unit = 0 then pl else planInfo s s.container 0)
    if pl.unit ≠ 0 then s1
    else
      let parked (p : Nat × Option Session) : Bool := match p.2 with
        | some x => decide (x.st = 1) || decide (x.st = 4)
        | none => false
      let s2 := updServ s1 (fun v => { v with
        models := [], sessions := v.sessions.filter parked, sealedTo := [], sealedCopy := [], parityWait := [], samplers := [], prompts := [],
        graftCopy := [], grafted := [], pool := [], xorOut := [], training := [], routing := [], again := [] })
      graftParity <| nullGraft (foldState (fun u j => setSkip u j true) s2 ((pl.canopy.map (fun p => p.2)).flatten))

/-! ## Rows of the tier mover (R303 to R305) with what the firmware makes of their completions -/

/-- TIER_MOVE_QUEUE (R303). -/
def execTierMoveQueue (t : Time) (v : Word) (s : State) : Host.Outcome State Fault Refusal := moverQueue t v s

/-- TIER_MOVE_TILE (R303, R305). -/
def execTierMoveTile (t : Time) (out : CxlOut) (ecc : LineEcc) (s : State) : Host.Outcome State Fault Refusal := thenServe (moverTile t out ecc s)

/-- TIER_MOVE_COMPLETE (R304, R305). -/
def execTierMoveComplete (t : Time) (s : State) : Host.Outcome State Fault Refusal := thenServe (moverComplete t s)

/-- TIER_MOVE_DEADLINE (R304). -/
def execTierMoveDeadline (t : Time) (s : State) : Host.Outcome State Fault Refusal := thenServe (moverDeadline t s)

/-- HOST_LINK_DOWN (R501). -/
def execHostLinkDown (t : Time) (hl : Fin 2) (s : State) : Host.Outcome State Fault Refusal := thenServe (hostLinkDown t hl s)

end Sys2Proof.Machine
end

