-- ==== Sys2Proof/Machine/Start.lean ====
section
/-!
DEFINITION. Sys2Proof/Machine/Start.lean: starting, resetting and shutting down the module (R390, R391, R412, R414, R424 to R441), and what a
failed self-test makes of the repair state (R448, R449).
-/
namespace Sys2Proof.Machine

/-! ## Registers -/

/-- A register of the TPR page. -/
def tpr (s : State) (off : Nat) : Word := reg s 90 8 off

/-- The state with a field of a TPR register replaced. -/
def setTpr (s : State) (off lo n v : Nat) : State := setRegFld s 90 8 off lo n v

/-- An error in the TPR page (R441). -/
def tprError (s : State) (code info : Nat) : State := recordError s 90 8 code info

/-- The state with the start and shutdown sequencer changed. -/
def updStart (s : State) (f : StartSt → StartSt) : State := { s with start := f s.start }

/-- START_STATUS.RUNNING. -/
def starting (s : State) : Bool := tbit (tpr s 0x108) 4

/-- START_STATUS.STEP. -/
def startStep (s : State) : Nat := fld (tpr s 0x108) 0 4

/-- START_STATUS kind: 1 cold, 2 warm. -/
def startKind (s : State) : Nat := fld (tpr s 0x108) 6 2

/-- SHUT_STATUS.PENDING. -/
def shutPending (s : State) : Bool := tbit (tpr s 0x110) 0

/-- SHUT_STATUS.COMMITTED: until the shutdown is complete (R437). -/
def shutCommitted (s : State) : Bool := tbit (tpr s 0x110) 1 && decide (s.now < s.start.downAt)

/-! ## Resets (R391, R434, R435, R536) -/

/-- The entries of a map whose keys are outside a set. -/
def keepOut {α : Type} (p : Nat → Bool) (m : Map α) : Map α := m.filter (fun x => !p x.1)

/-- Pages return to their reset values (R536): `q` names die and page. -/
def dropPages (s : State) (q : Nat → Nat → Bool) : State :=
  let byOff (k : Nat) : Bool := q (k / 0x100000) (k / 0x1000 % 256)
  let byPage (k : Nat) : Bool := q (k / 256) (k % 256)
  { s with regs := keepOut byOff s.regs, armT := keepOut byOff s.armT, shadow := keepOut byOff s.shadow,
           cnt := keepOut (fun k => byPage (k / 2)) s.cnt, cntLatch := keepOut (fun k => byPage (k / 2)) s.cntLatch,
           trans := keepOut byPage s.trans, softWait := keepOut byPage s.softWait, marks := keepOut byPage s.marks }

/-- The cores of dies after a die reset: their scratchpads keep their bytes (R434). -/
def resetCores (p : Nat → Bool) (m : Map CoreSt) : Map CoreSt :=
  foldState (fun u x =>
    if p (coreDie x.1) then
      let y := mapGet u x.1 CoreSt.reset
      mapPut CoreSt.reset u x.1 { CoreSt.reset with spm := y.spm, poison := y.poison }
    else u) m m

/-- A reset of dies (R434): every page to its reset values, and the state of their blocks. -/
def dropDies (s : State) (p : Nat → Bool) : State :=
  let s1 := dropPages s (fun d _ => p d)
  { s1 with
    cores := resetCores p s.cores, routers := keepOut p s.routers, frs := keepOut p s.frs, homeQ := keepOut p s.homeQ,
    bst := keepOut p s.bst, trc := keepOut p s.trc, mbc := keepOut (fun k => p (mmDie k)) s.mbc,
    ports := keepOut (fun k => p (portDie k)) s.ports, memUnits := keepOut (fun k => p (mmDie (k / 2))) s.memUnits,
    droop := keepOut (fun k => p (cpDie k)) s.droop, mover := if p 98 then Mover.reset else s.mover,
    loader := if p 1 then Loader.reset else s.loader, trackers := keepOut (fun k => p (trDie k)) s.trackers,
    gop := if p 0 then GopSt.reset else s.gop, plan := if p 0 then none else s.plan, planNext := if p 0 then none else s.planNext }

/-- ROUTER_STATUS of dies with the edges that were up (R32, R434): an edge marked down stays down. -/
def keepEdges (old s : State) (die : Nat) : State := setRegFld s die 0 0x044 0 4 (fld (reg old die 0 0x044) 0 4)

/-- LNK_STATE of a port in FAILED is kept by a die reset (R434). -/
def keepFailed (old s : State) (p : Nat) : State :=
  if portState old p = 7 then setReg s (portDie p) (portPage p) 0x044 (lnk old p 0x044) else s

/-- The CORE rails go off (R391): scratchpads, contexts and queues are lost; the per-core pages and the BST pages of compute dies are reset. -/
def coresOff (s : State) : State :=
  let s1 := dropPages s (fun d pg => decide (dieType d = .compute) && (decide (pg ≥ 0x10) || decide (pg = 3)))
  { s1 with cores := [], bst := keepOut (fun d => decide (dieType d = .compute)) s.bst, droop := [],
            rails := keepOut (fun k => decide (k ≥ 4)) s.rails }

/-- Every die but the Taproot die loses its power (R391): the contents of Tier 0 and Tier 1, the Trunk dies' memory and the volatile CSPs. -/
def unpowered (s : State) : State :=
  let s1 := coresOff (dropDies s (fun d => decide (d ≠ 90)))
  { s1 with
    rails := keepOut (fun k => decide (k ≥ 1)) s1.rails, t1 := [], t1line := [], t1clean := [], serv := ServSt.reset, fo := FoSt.reset,
    sec := { SecSt.reset with unapproved := s.sec.unapproved, planSeen := s.sec.planSeen },
    service := keepOut (fun d => decide (d ≠ 90)) s.service, plan := none, planNext := none, nwKept := [], container := [],
    slice := { running := false, origin := 0, x := 0, y := 0, z := 0 }, dieReset := [], departing := false,
    host := { HostSt.reset with mem := s.host.mem, perst := s.host.perst }, fresh := s.fresh + 1 }

/-- The Taproot die reads the slot from the slot identification lands (R36, R38). -/
def readLands (s : State) : State := setTpr s 0x044 0 2 s.start.lands

/-- The module enters STANDBY (R36, R390). -/
def enterStandby (s : State) : State :=
  updStart (setPwr (readLands (unpowered s)) 0x040 0 3 1) (fun x => { x with standbyAt := s.now })

/-- A warm reset (R429, R434): all dies but the Taproot die; Tier 1, retained memory and the host links' training are kept, and so are the roles
of the Heartwood die (R476) and its open debug lines (R488). -/
def warmReset (s : State) : State :=
  let roles := fld (hwd s 0x048) 1 2
  let fails := fld (hwd s 0x048) 4 4
  let dbg := fld (hwd s 0x040) 4 2
  let s1 := dropDies s (fun d => decide (d ≠ 90))
  let s2 := foldState (fun u d => setReg u d 8 0x044 (reg s d 8 0x044)) s1 [1, 98]
  let s3 := setHwd (setHwd (setHwd s2 0x048 1 2 roles) 0x048 4 4 fails) 0x040 4 2 dbg
  { s3 with
    serv := { s.serv with loads := [], transfers := [], tags := [], wideAll := [], wideLayer := [], normalLayer := [] }, fo := FoSt.reset,
    sec := { SecSt.reset with unapproved := s.sec.unapproved, planSeen := s.sec.planSeen, lockMs := s.sec.lockMs, arrived := s.sec.arrived },
    nwKept := [], slice := { running := false, origin := 0, x := 0, y := 0, z := 0 }, dieReset := [], departing := false,
    upAt := foldState (fun m d => if d = 90 then m else mapPut 0 m (100 + d) s.now) s.upAt (upFrom 0 100),
    host := { s.host with log := [], logN := [0, 0], mirrorN := [0, 0], failSlot := [] } }

/-! ## The repair state (R448, R449) -/

/-- The firmware records an action of the repair state in the BST page of the die (R448, R473). -/
def recordRepair (s : State) (die kind unit : Nat) : State := recordError s die 3 0x3070 (kind + unit % 32 * 16)

/-- A physical core is marked UNUSABLE in its speed-map entry (R398, R448). -/
def markCore (s : State) (c : Nat) : State := { s with smap := mapPut 0x4848#32 s.smap c (setBit (smEntry s c) 23 true) }

/-- RETAIN_VALID of a region of retained memory: 0 DRAM training, 1 link retention, 2 speed map, 3 fault record, 4 repair state (R431, R440). -/
def markRegion (s : State) (i : Nat) : State := setTpr s 0x11C i 1 1

/-- Whether a region is valid. -/
def regionValid (s : State) (i : Nat) : Bool := tbit (tpr s 0x11C) i

/-- A failing scratchpad row (R448): one of the 4 spare rows of its bank, or else the core is unusable. -/
def padRow (s : State) (c line : Nat) : State :=
  let k := c * 32 + line % 32
  let n := mapGet s.start.padRows k 0
  if n < 4 then updStart s (fun x => { x with padRows := mapSet x.padRows k (n + 1) }) else markCore s c

/-- A failing DRAM row (R297, R448): repaired while its bank has a spare row, otherwise recorded unusable. The row holds never-written poison. -/
def dramRow (s : State) (st row : Nat) : State :=
  let k := bankKey st row
  let n := mapGet s.rowsUsed k 0
  if n < 2 then foldState neverLine { s with rowsUsed := mapSet s.rowsUsed k (n + 1) } (rowLines st row)
  else { s with badRows := mapPut false s.badRows (st * 2 ^ 26 + row % 2 ^ 26) true }

/-- What the firmware makes of a failure (R448). -/
def repair (s : State) (f : TestFail) : State :=
  let die := f.die.val
  let c := dieOrd die * 18 + f.unit.val
  let kind := f.kind.val
  let s1 := markRegion (recordRepair s die kind f.unit.val) 4
  match dieType die with
  | .compute => if kind = 2 then padRow s1 c f.addr else if kind = 6 then s1 else markRegion (markCore s1 c) 2
  | .memory => if kind = 5 then dramRow s1 (dieOrd die) f.addr else { s1 with badDies := mapPut false s1.badDies die true }
  | .hostLink => { s1 with badDies := mapPut false s1.badDies die true }
  | .trunk => if die = 99 then { s1 with badDies := mapPut false s1.badDies die true } else s1
  | _ => s1

/-- The logical core that the repair state maps a physical core to; on an unrepaired die cores 0 to 15 carry themselves (R449). -/
def mappedTo (s : State) (c : Nat) : Nat := mapGet s.start.mapping c (if coreOnDie c < 16 then coreOnDie c else 0x1F)

/-- The usable core of a list with the highest MAP; ties go to the higher number (R449). -/
def bestSpare (s : State) (l : List Nat) : Option Nat :=
  foldState (fun b c => match b with
    | none => some c
    | some d => if fld (smEntry s c) 8 7 ≥ fld (smEntry s d) 8 7 then some c else some d) none l

/-- Numbers the cores of a list with logical cores from `n`. -/
def numberCores (l : List Nat) (n : Nat) : List (Nat × Nat) :=
  match l with
  | [] => []
  | c :: r => (c, n) :: numberCores r (n + 1)

/-- The mapping of a compute die (R449): two spares, the other usable cores in ascending order, and no logical core for the rest. -/
def chooseMapping (s : State) (die : Nat) : List (Nat × Nat) :=
  let ok := (dieCores die).filter (fun c => !smUnusable s c)
  let a := bestSpare s ok
  let b := bestSpare s (ok.filter (fun c => decide (some c ≠ a)))
  let rest := ok.filter (fun c => decide (some c ≠ a) && decide (some c ≠ b))
  (dieCores die).map (fun c =>
    match (numberCores rest 0).find? (fun x => decide (x.1 = c)) with
    | some x => (c, min x.2 0x1F)
    | none => (c, 0x1F))

/-- CORE_MAP of a die as the repair state has it (R435, R449). -/
def showMapping (s : State) (die : Nat) : State :=
  foldState (fun u c => setReg u die (corePage c 0) 0x040 (BitVec.ofNat 32 (mappedTo s c))) s (dieCores die)

/-- The mapping of a die is chosen and recorded (R449). -/
def fixMapping (s : State) (die : Nat) : State :=
  showMapping (foldState (fun u x => updStart u (fun y => { y with mapping := mapSet y.mapping x.1 x.2 })) s (chooseMapping s die)) die

/-! ## The speed map (R399, R432) -/

/-- MAP of a delivered map's entry for a core. -/
def copyMap (l : Option (List Word)) (c : Nat) : Nat :=
  match l with
  | none => 127
  | some w => fld (nth w c 0#32) 8 7

/-- A remeasurement of a core (R399): MEASURED, MAP and COUNT; a MAP below 40 makes the core unusable. -/
def remeasure (s : State) (c measured : Nat) : State :=
  let e := smEntry s c
  let guard := fld (reg s (coreDie c) 2 0x04C) 0 7
  let m := min (fld e 8 7) (min (fld e 0 7) (measured - guard))
  let e1 := setFld (setFld (setFld e 8 7 m) 16 7 measured) 24 8 (min 255 (fld e 24 8 + 1))
  { s with smap := mapPut 0x4848#32 s.smap c (if m < 40 then setBit e1 23 true else e1) }

/-- Step 8a lowers every MAP to that of the installation copies delivered (R432, R433). -/
def lowerMap (s : State) (c : Nat) : State :=
  let e := smEntry s c
  let m := min (fld e 8 7) (min (copyMap s.start.copyBmc c) (copyMap s.start.copyDrv c))
  let e1 := setFld e 8 7 m
  { s with smap := mapPut 0x4848#32 s.smap c (if m < 40 then setBit e1 23 true else e1) }

/-- The speed map at step 8a (R432): the copies are used up; the first cold start after OFF without a valid one records 0x9053. -/
def takeMaps (s : State) : State :=
  let have_ := s.start.copyBmc.isSome || s.start.copyDrv.isSome
  let s1 := if have_ || regionValid s 2 || s.start.mapBad then s else tprError s 0x9053 0
  let s2 := if have_ then foldState lowerMap s1 (upFrom 0 1152) else s1
  updStart s2 (fun x => { x with copyBmc := none, copyDrv := none, mapBad := false })

/-! ## Shutdown (R436 to R438) -/

/-- Queued work of the tier mover and the load engine ends (R436). -/
def endQueued (s : State) : State :=
  let moves := (match s.mover.cur with
    | some m => [m]
    | none => []) ++ s.mover.queue
  let s1 := foldState (fun u m => failMove u m 0x3061) (putMover s { s.mover with cur := none, queue := [] }) moves
  let l := s1.loader.queue
  foldState (fun u x => endShard u x 0x4060) (updLoader s1 (fun q => { q with queue := [] })) l

/-- A port requests LPI (R321, R436). -/
def requestLpi (s : State) (p : Nat) : State := if portState s p = 5 then setLnk s p 0x040 2 1 1 else s

/-- What follows the commit point (R436, R437): the frame sequencers stop at once, steps 1 to 4, and for STANDBY the other rails. -/
def goDown (s : State) : State :=
  let standby := tbit (tpr s 0x110) 2
  let s1 := foldState (fun u d => if frsRunning u d then setRegFld (stopFrames u d) d 1 0x040 24 1 0 else u) s frsDies
  let s2 := endQueued s1
  if standby then enterStandby s2
  else
    let s3 := foldState (fun u st => if reachable u (mmDie st) 8 then setMbcFld u st 0x044 2 1 1 else u) s2 (upFrom 0 16)
    setPwr (coresOff (foldState requestLpi s3 (upFrom 0 42))) 0x040 0 3 2

/-- The commit point of a shutdown (R437): a module whose frames stop leaves its slice and floods DEPART (R461). -/
def commitShutdown (s : State) : State :=
  let standby := tbit (tpr s 0x110) 2
  let running := frsRunning s 0
  let s1 := setIrq (setTpr (setTpr s 0x110 0 1 0) 0x110 1 1 1) 90 8 17
  let s2 := count (updStart s1 (fun x => { x with downAt := s.now + (if standby then 39 else 33) * ms })) 90 8 0xC2 1
  let s3 := goDown s2
  if running then { s3 with departing := true } else s3

/-- A shutdown begins (R437, R438): one that is pending already takes the deeper target and the earlier commit point. -/
def beginShutdown (s : State) (cause : Nat) (standby : Bool) (window : Nat) : State :=
  let at_ := s.now + window
  if shutPending s then
    updStart (if standby then setTpr s 0x110 2 1 1 else s) (fun x => { x with commitAt := min x.commitAt at_ })
  else
    let s1 := setTpr (setTpr (setTpr (setTpr s 0x110 0 1 1) 0x110 1 1 0) 0x110 2 1 (b2n standby)) 0x110 3 2 cause
    let s2 := updStart (markRegion s1 3) (fun x => { x with commitAt := at_, lastCause := cause })
    tprError (setIrq s2 90 8 16) 0x6050 cause

/-- A pending shutdown is abandoned (R438). -/
def abandon (s : State) : State :=
  let cause := fld (tpr s 0x110) 3 2
  let n := fld (tpr s 0x110) 8 8
  tprError (count (setTpr (setTpr s 0x110 0 1 0) 0x110 8 8 (min 255 (n + 1))) 90 8 0xC3 1) 0x6051 cause

/-- A start has ended without success (R428, R440). -/
def endStart (s : State) : State :=
  count (setIrq (setTpr (setTpr (setTpr s 0x108 0 4 0) 0x108 4 1 0) 0x108 5 1 1) 90 8 19) 90 8 0xC4 1

/-- A start fails (R428): back to STANDBY through the sequence that follows a commit point. -/
def failStart (s : State) : State :=
  let s1 := endStart s
  let s2 := setTpr (setTpr s1 0x110 2 1 1) 0x110 3 2 2
  commitShutdown (updStart (markRegion s2 3) (fun x => { x with lastCause := 2 }))

/-- SHUTDOWN_COMMIT (R437): the pre-commit window has ended; a start in progress ends (R439). -/
def execShutdownCommit (t : Time) (s : State) : Host.Outcome State Fault Refusal :=
  let s1 := advance s t
  if shutPending s1 && decide (s1.now ≥ s1.start.commitAt) then
    .next (commitShutdown (if starting s1 then endStart s1 else s1))
  else .next s1

/-! ## Start commands (R425, R426, R438) -/

/-- Whether a writer of START_CMD reaches it: the tray BMC always, the driver while the host link of die 1 is up (R425). -/
def reachesStart (s : State) (bmc : Bool) : Bool := railOn s .aux && (bmc || tbit (reg s 1 8 0x044) 9)

/-- A start is accepted (R427, R429, R434). A cabling record delivered since the last one takes effect with it (R36). -/
def beginStart (s0 : State) (kind : Nat) : State :=
  let s := { s0 with cab := s0.cabNext.or s0.cab, cabNext := none }
  let s1 := if kind = 2 then warmReset s else s
  let s2 := if kind = 1 then { s1 with departing := false, service := [], sec := { s1.sec with unapproved := false, planSeen := false } } else s1
  let s3 := setReg s2 90 8 0x108 (BitVec.ofNat 32 (1 + 16 + kind * 64))
  updStart (setReg s3 90 8 0x110 (setFld (tpr s3 0x110) 0 5 0)) (fun x => { x with t0 := s.now, t0Ms := s.power.slowMs, since := s.now })

/-- A write of START_CMD (R425, R437, R438, R440); a reserved code is a refused write (DEDUCED). -/
def startCommand (s : State) (bmc : Bool) (v : Word) : State :=
  let c := fld v 0 3
  let p := powerStateNow s
  let refuse := tprError s 0x9050 (c + p * 16)
  if !reachesStart s bmc then s
  else
    match c with
    | 1 => if p = 1 ∧ !starting s ∧ !shutPending s ∧ !shutCommitted s then beginStart s 1 else refuse
    | 2 => if p = 2 ∧ !starting s ∧ !shutPending s ∧ !shutCommitted s then beginStart s 2 else refuse
    | 3 =>
      if p = 3 ∧ !starting s ∧ !shutCommitted s ∧ !(shutPending s && decide (s.now ≥ s.start.commitAt)) then
        beginShutdown s 0 false (fld (tpr s 0x114) 0 16 * ms)
      else refuse
    | 4 =>
      if (p = 3 ∨ p = 2) ∧ !starting s ∧ !shutCommitted s ∧ !(shutPending s && decide (s.now ≥ s.start.commitAt)) then
        beginShutdown s 0 true (fld (tpr s 0x114) 0 16 * ms)
      else refuse
    | 5 => if shutPending s && decide (fld (tpr s 0x110) 3 2 = 0) && decide (s.now < s.start.commitAt) then abandon s else refuse
    | _ => tprError s 0x10D0 0x100

/-- SHUTDOWN_TO_PARKED (R436). -/
def execShutdownToParked (t : Time) (bmc : Bool) (s : State) : Host.Outcome State Fault Refusal := .next (startCommand (advance s t) bmc 3#32)

/-- SHUTDOWN_TO_STANDBY (R437). -/
def execShutdownToStandby (t : Time) (bmc : Bool) (s : State) : Host.Outcome State Fault Refusal := .next (startCommand (advance s t) bmc 4#32)

/-- ABANDON_SHUTDOWN (R438). -/
def execAbandonShutdown (t : Time) (bmc : Bool) (s : State) : Host.Outcome State Fault Refusal := .next (startCommand (advance s t) bmc 5#32)

/-- Whether the 48 V input as last measured is between 40.0 V and 60.0 V. -/
def inputOk (s : State) : Bool :=
  let v := fld (pwr s 0x048) 0 16
  decide (4000 ≤ v) && decide (v ≤ 6000)

/-- AUTO_COLD_START (R426): 100 ms after entry into STANDBY, under START_POLICY. -/
def execAutoColdStart (t : Time) (s : State) : Host.Outcome State Fault Refusal :=
  let s1 := advance s t
  let p := fld (tpr s1 0x104) 0 2
  if railOn s1 .aux && decide (powerStateNow s1 = 1) && !starting s1 && !shutPending s1 && !shutCommitted s1 && inputOk s1
      && decide (s1.now ≥ max s1.start.standbyAt s1.start.downAt + 100 * ms) && (decide (p = 1) || (decide (p = 2) && decide (s1.start.lastCause = 1))) then
    .next (beginStart s1 1)
  else .next s1

/-! ## The steps of a start (R427 to R430) -/

/-- Whether the steps of a start may go on (R428): not while a shutdown is pending, the input is below 40.0 V, or, from step 2 on, the reference
is absent. -/
def stepGoes (s : State) : Bool :=
  starting s && !shutPending s && !s.power.excursion && (decide (startStep s = 1) || !tbit (reg s 90 2 0x040) 2)

/-- The next step of a start begins; trace group 0. -/
def toStep (s : State) (n : Nat) : State := tracePoint (updStart (setTpr s 0x108 0 4 n) (fun x => { x with since := s.now })) 0 0 90 0xFF

/-- The node number of a record and a slot (R37). -/
def nodeFrom (c : Cabling) (slot : Nat) : Nat := nodeOf slot c.tray c.rack

/-- Step 1 (R36, R427): the node number is taken once the cabling record is there. -/
def takeNode (s : State) (c : Cabling) : State :=
  let n := nodeFrom c (fld (tpr s 0x044) 0 2)
  setReg { s with cab := some c, ny := c.ny, nz := c.nz } 90 8 0x040 (BitVec.ofNat 32 (n % 2 ^ 16 + 2 ^ 16))

/-- Rails come on (R391): the pages on a rail that was off become reachable (R536). -/
def railsOn (s : State) (l : List Nat) : State :=
  { s with
    rails := foldState (fun r k => mapPut false r k true) s.rails l,
    upAt := foldState (fun m k => if mapGet s.rails k false then m else mapPut 0 m k s.now) s.upAt l }

/-- Step 2: CTL, MEM and LINK on in order; clocks lock to the reference and the mesh edges train (DEDUCED). -/
def powerMesh (s : State) : State :=
  let s1 := railsOn s [1, 2, 3]
  let s2 := foldState (fun u d => setRegFld u d 0 0x044 0 4 (fld (reg u d 0 0x044) 4 4)) s1 (upFrom 0 100)
  foldState (fun u d => setRegFld u d 2 0x040 0 2 3) s2 (upFrom 0 100)

/-- Step 3 (R30, R477): the boot stage sets DYN_EN on every die; the power-up self-tests passed, or the die enters the error state and the start
fails. -/
def boot (s : State) (ok : Bool) : State :=
  let s1 := foldState (fun u d => setRegFld u d 0 0x040 1 1 1) s (upFrom 0 100)
  if ok then
    toStep (setReg (showApproved (setHwd (updSec s1 (fun x => { x with csps := true })) 0x040 0 1 1)) 9 8 0x054 Config.deviceIdHash) 4
  else failStart (recordErrorFree (enterError s1 4) 9 8 0x8050)

/-- Step 4 (R501, R502, R518): the pool that die 98 found. -/
def findPool (s : State) (pool devices ways : Nat) : State :=
  if cxlUp s ∧ 0 < pool ∧ pool ≤ 4096 then
    setReg (setReg s 98 8 0x050 (BitVec.ofNat 32 (pool + 2 ^ 16))) 98 8 0x054 (BitVec.ofNat 32 (devices % 16 + ways % 16 * 256))
  else
    let s1 := setReg (setReg s 98 8 0x050 0#32) 98 8 0x054 0#32
    if pool > 4096 then logEvent s1 0 2 0 0 98 0xFF else s1

/-- Step 7 (R391, R430): the CORE rails come on, and steps 8a to 8c begin; a warm start without valid training or repair data goes on as a cold
one. -/
def powerCores (s : State) : State :=
  let s1 := toStep (setTpr (railsOn s (upFrom 4 8)) 0x108 8 3 0) 8
  let bad := (31 - fld (tpr s 0x11C) 0 5) % 32
  if startKind s = 2 ∧ (!regionValid s 0 ∨ !regionValid s 4) then setTpr (tprError s1 0x9052 bad) 0x108 6 2 1 else s1

/-- Moves on to step 9 once steps 8a, 8b and 8c have ended (R427). -/
def endEight (s : State) (i : Nat) : State :=
  let s1 := setTpr s 0x108 (8 + i) 1 1
  if fld (tpr s1 0x108) 8 3 = 7 then toStep s1 9 else s1

/-- Step 8a ends (R399, R427, R429, R432, R448). A failure of Trunk die 0 fails the start. -/
def endTests (s : State) (measured : List (PhysCore × Nat)) (edges : List (Die × Fin 4)) (fails : List TestFail) : State :=
  let s1 := if startKind s = 1 then foldState (fun u (m : PhysCore × Nat) => remeasure u m.1.val m.2) (takeMaps s) measured else s
  let s2 := foldState (fun u (e : Die × Fin 4) => recordRepair (edgeDown u e.1.val e.2.val) e.1.val 6 e.2.val) s1 edges
  let s3 := foldState repair s2 fails
  if fails.any (fun f => decide (f.die.val = 0)) then failStart s3 else endEight s3 0

/-- Whether every Tier 1 shard of this module has been digested since the start began (R429). -/
def shardsChecked (s : State) : Bool :=
  s.serv.models.all (fun m => m.2.shards.all (fun x =>
    !(decide (x.st = 3) && decide (x.node = ownNode s) && decide (x.off < t1Size)) || decide (x.seenMs ≥ s.start.t0Ms)))

/-- Step 8b (R293, R427, R429, R430): a cold start initialises every stack; a warm one leaves self-refresh. -/
def endDram (s : State) (fails : List TestFail) : State :=
  let ready (u : State) (st : Nat) : State := setMbcFld (setMbcFld u st 0x044 2 1 0) st 0x044 0 1 1
  if startKind s = 1 then
    let s1 := foldState (fun u st => ready (fillStack u st false) st) (foldState repair s fails) (upFrom 0 16)
    endEight (markRegion s1 0) 1
  else if fld (mbcReg s 0 0x044) 0 1 = 0 then foldState ready s (upFrom 0 16)
  else if shardsChecked s then endEight s 1
  else s

/-- Step 9 (R427, R429, R449): mappings chosen, or those of the repair state restored. -/
def fixRepair (s : State) : State :=
  let dies := (upFrom 0 64).map cpDie
  if startKind s = 1 then markRegion (markRegion (foldState fixMapping s dies) 2) 4 else foldState showMapping s dies

/-- Step 11 ends: the module is in READY (R427, R440). -/
def ready (s : State) : State :=
  let kind := startKind s
  let s1 := setPwr (setReg s 90 8 0x108 (BitVec.ofNat 32 (kind * 64 + 7 * 256))) 0x040 0 3 3
  let s2 := setReg s1 90 8 0x10C (BitVec.ofNat 32 ((s.now - s.start.t0) / ms))
  let s3 := updStart s2 (fun x => if kind = 1 then { x with colds := x.colds + 1 } else { x with warms := x.warms + 1 })
  count (setIrq s3 90 8 18) 90 8 (if kind = 1 then 0xC0 else 0xC1) 1

/-- Whether the ramp of a step's rails completes (R419): not in single-blade operation with P_1MS above LIMIT_SINGLE, where the rails return to the
state before it. -/
def rampHolds (s : State) : Bool := !tbit (pwr s 0x040) 8 || decide (s.power.pPrev ≤ fld (pwr s 0x054) 0 16)

/-- The end of a step without results of its own: step 5 needs the firmware running, step 6 is followed by the allocation of the ports (R315). -/
def endStep (s : State) : State :=
  match startStep s with
  | 1 =>
    if !inputOk s then s
    else
      match s.cab with
      | some c => toStep (takeNode s c) 2
      | none => s
  | 2 => if rampHolds s then toStep (powerMesh s) 3 else s
  | 5 => if fwRuns s then toStep s 6 else s
  | 6 =>
    match s.cab with
    | some c => toStep (allocatePorts s c) 7
    | none => s
  | 7 => if rampHolds s then powerCores s else s
  | 9 => toStep (fixRepair s) 10
  | 10 => toStep s 11
  | 11 => ready s
  | _ => s

/-- An event of a start of a kind (R427, R429). -/
def startEvent (s : State) (kind : Nat) (e : StartEv) : State :=
  match e with
  | .command bmc => startCommand s bmc (BitVec.ofNat 32 kind)
  | .stepEnds => if stepGoes s && decide (startKind s = kind) then endStep s else s
  | .bootEnds ok => if stepGoes s && decide (startKind s = kind) && decide (startStep s = 3) then boot s ok else s
  | .linksEnd pool devices ways =>
    if stepGoes s && decide (startKind s = kind) && decide (startStep s = 4) && tbit (reg s 1 8 0x044) 9 then
      toStep (findPool s pool devices ways) 5
    else s
  | .testsEnd measured edges fails =>
    if stepGoes s && decide (startKind s = kind) && decide (startStep s = 8) && !tbit (tpr s 0x108) 8 then endTests s measured edges fails else s
  | .dramEnds fails =>
    if stepGoes s && decide (startKind s = kind) && decide (startStep s = 8) && !tbit (tpr s 0x108) 9 then endDram s fails else s
  | .portsEnd =>
    if stepGoes s && decide (startKind s = kind) && decide (startStep s = 8) && !tbit (tpr s 0x108) 10 then endEight s 2 else s

/-- COLD_START (R427). -/
def execColdStart (t : Time) (e : StartEv) (s : State) : Host.Outcome State Fault Refusal := .next (startEvent (advance s t) 1 e)

/-- WARM_START (R429). -/
def execWarmStart (t : Time) (e : StartEv) (s : State) : Host.Outcome State Fault Refusal := .next (startEvent (advance s t) 2 e)

/-- The limit of a step in milliseconds: three times its duration, and at least 1 s (R428). `i` is 0 for 8a and 1 for 8b; none for exempt steps. -/
def stepLimit (kind step i : Nat) : Option Nat :=
  match step with
  | 1 => none
  | 2 => some 1000
  | 3 => some 1260
  | 4 => some (if kind = 1 then 1500 else 1000)
  | 5 => some 3000
  | 6 => some 1500
  | 7 => some 1000
  | 8 => if i = 0 then some (if kind = 1 then 262500 else 4500) else some (if kind = 1 then 60300 else 6300)
  | 9 => some (if kind = 1 then 7200 else 1000)
  | 11 => some 3000
  | _ => none

/-- Whether a step has passed its limit. -/
def pastLimit (s : State) (i : Nat) : Bool :=
  match stepLimit (startKind s) (startStep s) i with
  | none => false
  | some l => decide (s.now > s.start.since + l * ms) && (decide (startStep s ≠ 8) || !tbit (tpr s 0x108) (8 + i))

/-- START_STEP_TIMEOUT (R428). -/
def execStartStepTimeout (t : Time) (s : State) : Host.Outcome State Fault Refusal :=
  let s1 := advance s t
  if !starting s1 then .next s1
  else if pastLimit s1 0 then .next (failStart (tprError s1 0x9051 (startStep s1)))
  else if pastLimit s1 1 then .next (failStart (tprError s1 0x9051 (startStep s1 + 16)))
  else .next s1

/-! ## Input faults, trips and the auxiliary rail (R412, R414, R419, R424, R439) -/

/-- INPUT_FAULT (R414, R437, R439): below 38.0 V for 2 ms, or above 60.0 V for 1 ms. Where the input is gone after a commit point the remaining rails
go off at once, and the module is in STANDBY (R437). -/
def execInputFault (t : Time) (above : Bool) (s : State) : Host.Outcome State Fault Refusal :=
  let s1 := advance s t
  if !railOn s1 .aux then .next s1
  else
    let s2 := updStart (markRegion (recordError s1 90 9 0x6011 (b2n above)) 3) (fun x => { x with goodMs := 0, faults := (0x6011, b2n above) :: x.faults })
    if shutCommitted s2 then .next (if above then s2 else updStart (enterStandby s2) (fun x => { x with downAt := s1.now }))
    else if powerStateNow s2 = 1 ∧ !starting s2 then .next s2
    else .next (beginShutdown s2 1 true (10 * ms))

/-- THERMAL_TRIP (R412): a reading of 110 °C or more, in units of 0.0625 °C. -/
def execThermalTrip (t : Time) (die : Die) (reading : Int) (s : State) : Host.Outcome State Fault Refusal :=
  let s1 := advance s t
  if reading < 1760 ∨ !railOn s1 .aux then .next s1
  else
    let s2 := setReg s1 90 0x0A 0x050 (BitVec.ofNat 32 (unsign 16 reading + die.val * 2 ^ 16 + 2 ^ 31))
    let s3 := updStart (markRegion (recordError s2 90 0x0A 0x7011 die.val) 3) (fun x => { x with faults := (0x7011, die.val) :: x.faults })
    let s4 := if starting s3 then endStart s3 else s3
    .next (enterStandby (setReg s4 90 8 0x110 (setFld (tpr s4 0x110) 0 2 0)))

/-- The module without its auxiliary rail (R390, R419, R424): fuses, DRAM repairs, host memory and the pool's devices stay as they are. -/
def off (s : State) : State :=
  { State.reset with
    now := s.now, pending := s.pending, fresh := s.fresh, lastRead := s.lastRead, lastBytes := s.lastBytes, lastResp := s.lastResp,
    lastSent := s.lastSent, lastNote := s.lastNote, rails := [], bench := s.bench, t2 := s.t2, t2bad := s.t2bad, rowsUsed := s.rowsUsed,
    svnFloor := s.svnFloor, host := { HostSt.reset with mem := s.host.mem, perst := s.host.perst } }

/-- AUX_RAIL_LOSS (R419). -/
def execAuxRailLoss (t : Time) (s : State) : Host.Outcome State Fault Refusal := .next (off (advance s t))

/-- AUX_POWER_ON (R36, R424): the Taproot die comes out of power-on reset, reads the slot lands and enters STANDBY. -/
def execAuxPowerOn (t : Time) (slot : Fin 4) (s : State) : Host.Outcome State Fault Refusal :=
  let s1 := advance s t
  if railOn s1 .aux then .next s1
  else
    .next (readLands (updStart (railsOn (off s1) [0]) (fun x => { x with standbyAt := s1.now, lands := slot.val })))

/-! ## Die resets (R434, R435) -/

/-- Whether a die reset is refused (R435). -/
def dieResetBad (s : State) (d : Nat) : Bool :=
  decide (d = 9) || decide (d = 90) || decide (d ≥ 100) || frsRunning s 0
    || (decide (dieType d = .memory) && ((mbcOf s (dieOrd d)).dgAt.isSome || (match s.mover.cur with
      | none => false
      | some m => decide (m.t1 / stackSize = dieOrd d))))

/-- The reset of one die (R434, R435): Tier 1 is kept, in self-refresh meanwhile, and so are edges marked down and ports in FAILED. -/
def resetDie (s : State) (d : Nat) : State :=
  let s1 := dropDies s (fun x => decide (x = d))
  let s2 := keepEdges s s1 d
  let s3 := foldState (keepFailed s) s2 ((upFrom 0 42).filter (fun p => decide (portDie p = d)))
  let s4 := if dieType d = .memory then setMbcFld s3 (dieOrd d) 0x044 0 3 (fld (mbcReg s (dieOrd d) 0x044) 0 1 + 4) else s3
  { s4 with dieReset := mapSet s4.dieReset d (s.now + ms) }

/-- A write of TPR.DIE_RESET (R435). -/
def writeDieReset (s : State) (v : Word) : State :=
  let d := fld v 0 7
  if !tbit v 8 then s else if dieResetBad s d then tprError s 0x10D0 0x118 else resetDie s d

/-- DIE_RESET (R435). -/
def execDieReset (t : Time) (v : Word) (s : State) : Host.Outcome State Fault Refusal :=
  .next (pageWrite (advance s t) 90 8 0x118 false (fun u => writeDieReset u v))

/-- DIE_RESET_END (R435): after 1 ms the die's pages are reachable; its clocks are locked, a memory die leaves self-refresh, and the firmware
restores a compute die's mapping. -/
def execDieResetEnd (t : Time) (die : Die) (s : State) : Host.Outcome State Fault Refusal :=
  let s1 := advance s t
  match mapFind s1.dieReset die.val with
  | none => .next s1
  | some e =>
    if s1.now < e then .next s1
    else
      let s2 := setRegFld { s1 with dieReset := mapErase s1.dieReset die.val, upAt := mapPut 0 s1.upAt (100 + die.val) s1.now } die.val 2 0x040 0 2 3
      match dieType die.val with
      | .memory => .next (setMbcFld s2 (dieOrd die.val) 0x044 2 1 0)
      | .compute => .next (showMapping s2 die.val)
      | _ => .next s2

/-! ## The millisecond (R438) and register writes of the TPR page (R440) -/

/-- The input of a millisecond as the shutdown sequencer sees it (R437, R438): a return abandons a pending shutdown for an input fault; a vanished
input after the commit point completes the shutdown. -/
def msShutdown (s : State) (volts : Nat) : State :=
  let good := decide (4000 ≤ volts) && decide (volts ≤ 6000)
  let s1 := updStart s (fun x => { x with goodMs := if good then x.goodMs + 1 else 0 })
  let s2 := if shutCommitted s1 && tbit (tpr s1 0x110) 2 && decide (volts = 0) then updStart s1 (fun x => { x with downAt := s1.now }) else s1
  if shutPending s2 && decide (fld (tpr s2 0x110) 3 2 = 1) && decide (s2.start.goodMs ≥ 2) && decide (s2.now < s2.start.commitAt) then abandon s2
  else s2

/-- CONTROLLER_MILLISECOND (R403 to R415, R438). -/
def execControllerMillisecond (t : Time) (m : MsIn) (s : State) : Host.Outcome State Fault Refusal :=
  let s1 := advance s t
  if railOn s1 .aux then .next (msShutdown (controllerMs s1 m) m.volts) else .next s1

/-- A write of a register of the TPR page by a writer of BAR0 (R440). -/
def writeTpr (s : State) (off_ : Nat) (v : Word) : State :=
  match off_ with
  | 0x100 => startCommand s false v
  | 0x104 => markRegion (setReg s 90 8 0x104 (v &&& 3#32)) 3
  | 0x114 =>
    if shutPending s ∨ fld v 0 16 = 0 ∨ fld v 0 16 > 60000 then tprError s 0x10D0 0x114 else setReg s 90 8 0x114 (v &&& 0xFFFF#32)
  | 0x118 => writeDieReset s v
  | _ => s

/-! ## Failures of the Heartwood die (R475, R477) -/

/-- The Heartwood die's error state ends a start in progress (R477). -/
def hwdEnds (s : State) : State := if starting s then failStart s else s

/-- ENVIRONMENTAL_FAILURE (R475, R486). -/
def execEnvironmentalFailure (t : Time) (temperature : Bool) (s : State) : Host.Outcome State Fault Refusal :=
  let s1 := advance s t
  if !railOn s1 .ctl then .next s1 else .next (hwdEnds (enterError (hwdError s1 0x8056 (b2n temperature)) 3))

/-- CONTINUOUS_HEALTH_TEST_FAILURE (R477). -/
def execContinuousHealthTestFailure (t : Time) (s : State) : Host.Outcome State Fault Refusal :=
  let s1 := advance s t
  if !railOn s1 .ctl || hwdFailed s1 then .next s1 else .next (hwdEnds (enterError (recordErrorFree s1 9 8 0x8050) 4))

end Sys2Proof.Machine
end

