-- ==== Sys2Proof/Machine/SelfTest.lean ====
section
/-!
DEFINITION. Sys2Proof/Machine/SelfTest.lean: self-test slices, failure reports and the coppice rotation (R444 to R455), handovers (R452 to R454)
and mapping changes (R45, R128, R129).
-/
namespace Sys2Proof.Machine

/-! ## Slices (R444, R446) -/

/-- A register of a die's BST page. -/
def bstReg (s : State) (die off : Nat) : Word := reg s die 3 off

/-- A die's self-test block. -/
def bstOf (s : State) (die : Nat) : BstSt := mapGet s.bst die BstSt.reset

/-- The state with a die's self-test block replaced. -/
def putBst (s : State) (die : Nat) (x : BstSt) : State := { s with bst := mapPut BstSt.reset s.bst die x }

/-- KIND of a SLICE_ID. -/
def sliceKind (id : Nat) : Nat := id / 4096

/-- A millisecond's 800th part: 1.25 µs in units of 100 ps, of which every slice time is a multiple. -/
def sliceUnit : Nat := 12500

/-- The test time of a slice in units of 100 ps (R444); kind 3 takes 20 ms for each step from FUSED down to the first that passes. -/
def sliceTime (s : State) (c id measured : Nat) : Nat :=
  match sliceKind id with
  | 1 => 15000 * sliceUnit
  | 2 => 7500 * sliceUnit
  | 3 => (fld (smEntry s c) 0 7 + 1 - max measured 40) * 20 * ms
  | 4 => 85 * ms
  | 5 => 500 * ms
  | _ => 2 * sec

/-- BST_STATUS as the block stands (R470). -/
def showBst (s : State) (die : Nat) (unit : Nat) (x : SliceRun) (suspended : Bool) : State :=
  let o := fld (bstReg s die 0x044) 26 1
  setReg s die 3 0x044 (BitVec.ofNat 32 (x.id % 65536 + unit % 32 * 2 ^ 16 + (if suspended then 2 ^ 25 else 2 ^ 24) + o * 2 ^ 26
    + min 31 (bstOf s die).reports.length * 2 ^ 27))

/-- The running slice of a die is suspended, with its state kept (R446). The time it ran ends with its test slot at `stop`. -/
def suspendSlice (s : State) (die stop : Nat) : State :=
  let b := bstOf s die
  match b.running with
  | none => s
  | some u =>
    match mapGet b.slices u none with
    | none => putBst s die { b with running := none }
    | some x =>
      let y : SliceRun := { x with ran := x.ran + (min s.now stop - x.since) }
      showBst (putBst s die { b with running := none, slices := mapSet b.slices u (some y) }) die u y true

/-- The end of the present slot of a die, as a moment. -/
def slotStop (s : State) (die : Nat) : Nat := (frsOf s die).began + 64 * (frsOf s die).slotEnd

/-- A slice whose test slot has ended is suspended as of the slot's end (R164, R446): in the extension too. -/
def settleSlice (s : State) (die : Nat) : State :=
  if frsRunning s die ∧ slotStop s die ≤ s.now then suspendSlice s die (slotStop s die) else s

/-- A slice starts, or resumes where the unit's suspended slice is the same one (R446). -/
def startSlice (s : State) (die id unit : Nat) : State :=
  let s1 := suspendSlice s die s.now
  let b := bstOf s1 die
  let x : SliceRun :=
    match mapGet b.slices unit none with
    | some r => if r.id = id then { r with since := s.now } else { id := id, ran := 0, since := s.now }
    | none => { id := id, ran := 0, since := s.now }
  showBst (putBst s1 die { b with running := some unit, slices := mapSet b.slices unit (some x) }) die unit x false

/-- Whether the dies of a type run slices of a kind (R444). -/
def kindRuns (die kind : Nat) : Bool :=
  let t := dieType die
  match kind with
  | 1 => decide (t = .compute)
  | 2 => decide (t = .compute)
  | 3 => decide (t = .compute)
  | 4 => decide (t = .compute) || decide (t = .trunk) || decide (t = .hostLink) || decide (t = .bough)
  | 5 => decide (t = .memory)
  | 6 => decide (die ≠ 9) && decide (die ≠ 90)
  | _ => false

/-- Whether a slice may run on a unit of a die: kinds 1 to 3 only on a physical core that carries no logical core (R445). -/
def sliceMay (s : State) (die id unit : Nat) : Bool :=
  let kind := sliceKind id
  kindRuns die kind
    && (decide (kind ≥ 4) || (decide (unit < 18) && decide (logicalOf s (dieOrd die * 18 + unit) ≥ 16)))

/-! ## The coppice cursor (R445, R446, R451) -/

/-- The next slice of the coppice set; none once the set has passed. CURSOR reads 0 before the first slice. -/
def cursorId (s : State) (die : Nat) : Option Nat :=
  let c := bstReg s die 0x050
  if fld c 16 8 ≥ 97 then none else some (if fld c 0 16 = 0 then 0x1000 else fld c 0 16)

/-- The slice that follows in the coppice set (R444). -/
def nextSlice (id : Nat) : Nat :=
  if id = 0x103F then 0x2000 else if id = 0x201F then 0x3000 else if id = 0x3000 then 0x3000 else id + 1

/-- The cursor returns to the first slice (R446). -/
def resetCursor (s : State) (die : Nat) : State := setReg s die 3 0x050 0x1000#32

/-- A write of BST_CTRL (R446, R470). -/
def writeBstCtrl (s : State) (die : Nat) (v : Word) : State :=
  let s1 := setReg s die 3 0x040 (v &&& 1#32)
  if tbit v 1 then resetCursor s1 die else s1

/-- CURSOR_RST (R446). -/
def execCursorRst (t : Time) (die : Die) (v : Word) (s : State) : Host.Outcome State Fault Refusal :=
  .next (if pageBlock die.val 3 = some .bst then pageWrite (advance s t) die.val 3 0x040 true (fun u => writeBstCtrl u die.val v) else advance s t)

/-- The refusal of a write of the BST page (R470). -/
def bstRefuse (s : State) (die off : Nat) : State := recordError s die 3 0x10E0 off

/-- A write of ROT_CORE: refused for a core that carries a logical core; a change returns the cursor to the first slice (R446, R470). -/
def writeRotCore (s : State) (die : Nat) (v : Word) : State :=
  let p := fld v 0 5
  if dieType die = .compute ∧ p < 18 ∧ logicalOf s (dieOrd die * 18 + p) < 16 then bstRefuse s die 0x04C
  else
    let s1 := setReg s die 3 0x04C (BitVec.ofNat 32 p)
    if p ≠ fld (bstReg s die 0x04C) 0 5 then resetCursor s1 die else s1

/-- A TEST entry (R445): without effect, it is counted. The clock of a core under test, gated outside test slots, is started (R126, DEDUCED). -/
def testEntry (s : State) (die : Nat) (e : BitVec 128) : State :=
  if !tbit (bstReg s die 0x040) 0 || !reachable s die 3 then s
  else
    let rot := fld (bstReg s die 0x04C) 0 5
    let unit := if fld e 48 16 = 0xFFFF then rot else fld e 48 16
    let id := if fld e 32 16 = 0xFFFF then cursorId s die else some (fld e 32 16)
    match id with
    | none => count s die 3 0xD2 1
    | some i =>
      if sliceMay s die i unit then
        let s1 := startSlice s die i unit
        if sliceKind i ≤ 3 then wakeUnit s1 (dieOrd die * 18 + unit) else s1
      else count s die 3 0xD2 1

/-- A write of BST_RUN (R445, R470). -/
def writeBstRun (s : State) (die : Nat) (v : Word) : State :=
  let id := fld v 0 16
  let kind := sliceKind id
  if frsRunning s die ∨ kind = 0 ∨ kind > 6 then bstRefuse s die 0x048
  else if sliceMay s die id (fld v 16 16) then startSlice s die id (fld v 16 16)
  else s

/-- BST_RUN (R445). -/
def execBstRun (t : Time) (die : Die) (v : Word) (s : State) : Host.Outcome State Fault Refusal :=
  .next (if pageBlock die.val 3 = some .bst then pageWrite (advance s t) die.val 3 0x048 false (fun u => writeBstRun u die.val v) else advance s t)

/-! ## Failures and results (R447, R448, R455) -/

/-- A failure report enters the queue of 16, or is discarded and counted with OVF set (R447). -/
def putReport (s : State) (die : Nat) (r : FailRep) : State :=
  let b := bstOf s die
  if b.reports.length ≥ 16 then count (setRegFld s die 3 0x044 26 1 1) die 3 0xD3 1
  else
    let s1 := putBst s die { b with reports := b.reports ++ [r] }
    setRegFld s1 die 3 0x044 27 5 (b.reports.length + 1)

/-- A read of FAIL_HEAD pops one report and latches its address and bit (R447, R470). -/
def popFail (s : State) (d : Nat) : State × Word :=
  match (bstOf s d).reports with
  | [] => (s, 0#32)
  | r :: rest =>
    let s2 := setReg (setReg (putBst s d { bstOf s d with reports := rest }) d 3 0x064 (BitVec.ofNat 32 (r.addr % 2 ^ 32))) d 3 0x068
      (BitVec.ofNat 32 (r.bit % 2 ^ 16))
    (setRegFld s2 d 3 0x044 27 5 rest.length, BitVec.ofNat 32 (r.kind + r.unit % 32 * 16 + 2 ^ 31))

/-- FAIL_HEAD_READ (R470). -/
def execFailHeadRead (t : Time) (die : Die) (s : State) : Host.Outcome State Fault Refusal :=
  let s1 := advance s t
  if pageBlock die.val 3 ≠ some .bst ∨ !reachable s1 die.val 3 then .next { s1 with lastRead := 0xFFFFFFFF#32 }
  else
    let r := popFail s1 die.val
    .next { r.1 with lastRead := r.2 }

/-- A core whose speed-map entry is below its planned frequency the firmware handles as lost, while a plan runs: the module departs from its
slice; and no core runs on above its entry (R129). -/
def checkLowered (s : State) (c : Nat) : State :=
  let s1 := capClock s c
  match s1.plan with
  | none => s1
  | some pl =>
    let l := logicalOf s1 c
    if planOn s1 c && stageOn s1 s1.plan (coreDie c) l && decide (smMhz s1 c < plannedMhz s1 pl (coreDie c) l) then { s1 with departing := true }
    else s1

/-- What the firmware makes of a failed slice (R448, R455): on the rotated-out core the core becomes unusable. -/
def sliceFailed (s : State) (die id unit : Nat) (addr bit : Nat) : State :=
  let kind := sliceKind id
  let s1 := count (putReport s die { kind := kind, unit := unit, addr := addr, bit := bit }) die 3 0xD1 1
  if dieType die = .compute ∧ kind ≤ 3 ∧ unit = fld (bstReg s die 0x04C) 0 5 then
    recordError (recordRepair (markRegion (markRegion (markCore s1 (dieOrd die * 18 + unit)) 2) 4) die kind unit) die 3 0x3071 id
  else if h : die < 100 ∧ unit < 32 ∧ kind < 16 then
    repair s1 { die := ⟨die, h.1⟩, kind := ⟨kind, h.2.2⟩, unit := ⟨unit, h.2.1⟩, addr := addr, bit := bit }
  else s1

/-- A passed slice (R399, R446, R455): counted; the cursor moves past its slice; a remeasurement writes the speed map. -/
def slicePassed (s : State) (die id unit measured : Nat) : State :=
  let s1 := count s die 3 0xD0 1
  let onRot := dieType die = .compute ∧ unit = fld (bstReg s die 0x04C) 0 5 ∧ cursorId s die = some id
  let s2 :=
    if onRot then
      setReg s1 die 3 0x050 (BitVec.ofNat 32 (nextSlice id + (fld (bstReg s die 0x050) 16 8 + 1) * 2 ^ 16))
    else s1
  if sliceKind id = 3 then
    let c := dieOrd die * 18 + unit
    checkLowered (markRegion (markRegion (remeasure s2 c measured) 2) 4) c
  else s2

/-- SELF_TEST_SLICE_DONE (R446, R447, R455): the running slice has run its test time; it failed at an address and bit, or passed. -/
def execSelfTestSliceDone (t : Time) (die : Die) (fail : Option (Nat × Nat)) (measured : Nat) (s : State) : Host.Outcome State Fault Refusal :=
  let d := die.val
  let s1 := settleSlice (advance s t) d
  let b := bstOf s1 d
  match b.running with
  | none => .next s1
  | some u =>
    match mapGet b.slices u none with
    | none => .next s1
    | some x =>
      if x.ran + (s1.now - x.since) < sliceTime s1 (dieOrd d * 18 + u) x.id measured then .next s1
      else
        let s2 := setRegFld (putBst s1 d { b with running := none, slices := mapErase b.slices u }) d 3 0x044 24 2 0
        match fail with
        | some (addr, bit) => .next (sliceFailed s2 d x.id u addr bit)
        | none => .next (slicePassed s2 d x.id u measured)

/-! ## Handovers (R452 to R454, R471) -/

/-- A CORE register of a physical core. -/
def coreReg (s : State) (c off : Nat) : Word := reg s (coreDie c) (corePage c 0) off

/-- The state with a field of a CORE register replaced. -/
def setCoreReg (s : State) (c off lo n v : Nat) : State := setRegFld s (coreDie c) (corePage c 0) off lo n v

/-- HANDOVER_STATUS.MIRROR_ACTIVE of a core. -/
def mirrorActive (s : State) (c : Nat) : Bool := tbit (coreReg s c 0x058) 0

/-- Lines of a scratchpad. -/
def padLines : Nat := 393216

/-- Mirroring to a core ends. -/
def endMirror (s : State) (t : Nat) : State :=
  let src := dieOrd (coreDie t) * 18 + fld (coreReg s t 0x054) 0 5
  let s1 := updCore s src (fun x => if x.mirrorTo = some t then { x with mirrorTo := none, notifyTo := none } else x)
  setCoreReg (setCoreReg s1 t 0x058 0 2 0) t 0x054 8 1 0

/-- A write of HANDOVER_CTRL of a core (R452, R453, R471). -/
def writeHandover (s : State) (t : Nat) (v : Word) : State :=
  let src := fld v 0 5
  let c := dieOrd (coreDie t) * 18 + src
  let was := mirrorActive s t
  let clash := decide (logicalOf s t < 16) || decide (src ≥ 18) || decide (c = t) || decide ((core s c).clk.mhz ≠ (core s t).clk.mhz)
    || (dieCores (coreDie t)).any (fun x => mirrorActive s x)
  if tbit v 8 && !was then
    if clash then coreError s t 0x10E3 src
    else
      let s1 := setCoreReg (setCoreReg s t 0x054 0 9 (src + 256)) t 0x058 0 3 1
      let s2 := updCore s1 c (fun x => { x with mirrorTo := some t })
      if tbit v 9 then setCoreReg (setCoreReg s2 t 0x058 1 1 1) t 0x058 4 19 padLines else s2
  else if !tbit v 8 && was then endMirror s t
  else if was && tbit v 9 then setCoreReg (setCoreReg s t 0x058 1 2 1) t 0x058 4 19 padLines
  else if was then s
  else setCoreReg s t 0x054 0 5 src

/-- A write of HANDOVER_CTRL through the register page. -/
def handoverAccess (s : State) (c : Nat) (v : Word) : State :=
  pageWrite s (coreDie c) (corePage c 0) 0x054 true (fun u => writeHandover u c v)

/-- MIRROR_EN (R452): the spare `c`. -/
def execMirrorEn (t : Time) (c : PhysCore) (v : Word) (s : State) : Host.Outcome State Fault Refusal := .next (handoverAccess (advance s t) c.val v)

/-- COPY_START (R453). -/
def execCopyStart (t : Time) (c : PhysCore) (v : Word) (s : State) : Host.Outcome State Fault Refusal := .next (handoverAccess (advance s t) c.val v)

/-- COPY_DONE (R453): the last line has been written; the spare's scratchpad equals the source's. -/
def execCopyDone (t : Time) (c : PhysCore) (s : State) : Host.Outcome State Fault Refusal :=
  let s1 := advance s t
  if !tbit (coreReg s1 c.val 0x058) 1 then .next s1
  else
    let src := dieOrd (coreDie c.val) * 18 + fld (coreReg s1 c.val 0x054) 0 5
    let x := core (settle s1 src) src
    let s2 := updCore (settle s1 src) c.val (fun y => { y with spm := x.spm, poison := x.poison, mirrored := [] })
    .next (setCoreReg (setCoreReg s2 c.val 0x058 1 2 2) c.val 0x058 4 19 0)

/-- MIRROR_END (R454): the mapping has changed, and the source has no command in execution and no request outstanding. -/
def execMirrorEnd (t : Time) (c : PhysCore) (s : State) : Host.Outcome State Fault Refusal :=
  let s1 := advance s t
  let src := dieOrd (coreDie c.val) * 18 + fld (coreReg s1 c.val 0x054) 0 5
  let x := core s1 src
  if mirrorActive s1 c.val && decide (logicalOf s1 c.val < 16) && decide (logicalOf s1 src ≥ 16) && !coreExecutes x && x.reqs.isEmpty then
    .next (endMirror s1 c.val)
  else .next s1

/-! ## Mapping changes (R45, R128, R454) -/

/-- CORE_MAP.PENDING of a core. -/
def mapPending (s : State) (c : Nat) : Bool := tbit (coreReg s c 0x040) 8

/-- The planned frequency at which a physical core runs once it carries a logical core: that of the stage it takes over, or none (R128). -/
def takeMhz (s : State) (c logical : Nat) : Option Nat :=
  match s.plan with
  | none => none
  | some pl => if stageOn s s.plan (coreDie c) logical then some (plannedMhz s pl (coreDie c) logical) else none

/-- Whether the speed map of a physical core allows it to take a logical core over (R128). -/
def takeOk (s : State) (c logical : Nat) : Bool :=
  match takeMhz s c logical with
  | none => true
  | some f => decide (f ≤ smMhz s c)

/-- A core that is about to take a stage over has its other synthesiser at the stage's planned frequency, and the switch armed (R128, R397, log
entry 35). -/
def armTaker (s : State) (c logical : Nat) : State :=
  match takeMhz s c logical with
  | none => s
  | some f =>
    if (core s c).clk.mhz = f then s
    else updCore s c (fun x => { x with clk := { x.clk with nextMhz := f, lockAt := 0, armed := true, armT := s.now } })

/-- A write of MAP_NEXT (R45, R128): discarded while a change is pending; the firmware's refusal is recorded like that of a plan. -/
def writeMapNext (s : State) (c : Nat) (v : Word) : State :=
  if mapPending s c then s
  else
    let l := fld v 0 5
    if tbit v 8 && !takeOk s c l then recordErrorFree s 0 1 0x1015
    else
      let s1 := setCoreReg s c 0x044 0 5 l
      if tbit v 8 then armTaker (noteArm (setCoreReg s1 c 0x040 8 1 1) (barOff (coreDie c) (corePage c 0) 0x044)) c l else s1

/-- MAP_NEXT_ARM (R45). -/
def execMapNextArm (t : Time) (c : PhysCore) (v : Word) (s : State) : Host.Outcome State Fault Refusal :=
  .next (pageWrite (advance s t) (coreDie c.val) (corePage c.val 0) 0x044 true (fun u => writeMapNext u c.val v))

/-- The armed changes of a die that take effect at this boundary: not one armed in the boundary's own core cycle (R45). -/
def armedChanges (s : State) (die : Nat) : List Nat :=
  (dieCores die).filter (fun c => mapPending s c && armedBefore s (barOff die (corePage c 0) 0x044) s.now)

/-- The logical core of a core after the armed changes. -/
def nextLogical (s : State) (l : List Nat) (c : Nat) : Nat := if l.contains c then fld (coreReg s c 0x044) 0 5 else logicalOf s c

/-- The lowest-numbered core of a change that maps its logical core to two cores (R45). -/
def doubleMapped (s : State) (die : Nat) (l : List Nat) : Option Nat :=
  (dieCores die).find? (fun c =>
    decide (nextLogical s l c < 16) && (dieCores die).any (fun d => decide (d ≠ c) && decide (nextLogical s l d = nextLogical s l c)
      && (l.contains c || l.contains d)))

/-- Clears PENDING of the changes of a die. -/
def dropChanges (s : State) (l : List Nat) : State := foldState (fun u c => setCoreReg u c 0x040 8 1 0) s l

/-- Whether a core's queues are empty. -/
def queuesEmpty (x : CoreSt) : Bool := x.q0.entries.isEmpty && x.q1.entries.isEmpty && x.q2.entries.isEmpty && x.q3.entries.isEmpty

/-- The handovers among the changes of a die: target and source (R454). -/
def handovers (s : State) (die : Nat) (l : List Nat) : List (Nat × Nat) :=
  (l.filter (fun t => mirrorActive s t && decide (nextLogical s l t < 16))).map
    (fun t => (t, dieOrd die * 18 + fld (coreReg s t 0x054) 0 5))

/-- The flags and counters of the source go to the target; later retirements on the source count there (R454). -/
def handFlags (s : State) (p : Nat × Nat) : State :=
  let regs := (upFrom 0x080 128).filter (fun o => o % 4 = 0)
  let s1 := foldState (fun u o => setReg u (coreDie p.1) (corePage p.1 0) o (coreReg s p.2 o)) s regs
  updCore s1 p.2 (fun x => { x with notifyTo := some p.1 })

/-- Whether the stages of a die meet R128 under the mapping that a change brings: each within the entry of the core that then carries it, and of the
faster of the cores that are then spare. -/
def changeOk (s : State) (die : Nat) (l : List Nat) : Bool :=
  match s.plan with
  | none => true
  | some pl =>
    let spares := (dieCores die).filter (fun c => decide (nextLogical s l c ≥ 16) && !smUnusable s c)
    (dieCores die).all (fun c =>
      let k := nextLogical s l c
      decide (k ≥ 16) || !stageOn s s.plan die k
        || (decide (plannedMhz s pl die k ≤ smMhz s c)
            && (spares.isEmpty || spares.any (fun x => decide (plannedMhz s pl die k ≤ smMhz s x)))))

/-- The mapping change of a die at a boundary (R45, R128, R454): refused with 0x1015 where a stage would stand above the speed map. A source with a command in a queue stops it; the event is counted in the FRS page under
the code of late entries' page counters that the manual names none for, so it is not counted (log entry 48). -/
def changeMapping (s : State) (die : Nat) : State :=
  let l := armedChanges s die
  if l.isEmpty then s
  else
    match doubleMapped s die l with
    | some c => recordError (dropChanges s l) die (corePage c 0) 0x1024 (nextLogical s l c)
    | none =>
      let h := handovers s die l
      if !changeOk s die l then recordErrorFree (dropChanges s l) 0 1 0x1015
      else if h.any (fun p => !queuesEmpty (core s p.2)) then dropChanges s l
      else
        let s1 := foldState handFlags s h
        let s2 := foldState (fun u c => setCoreReg u c 0x040 0 9 (fld (coreReg s c 0x044) 0 5)) s1 l
        let s3 := foldState (fun u c => updStart u (fun x => { x with mapping := mapSet x.mapping c (logicalOf u c) })) s2 l
        foldState checkLowered s3 l

end Sys2Proof.Machine
end

