-- ==== Sys2Proof/Machine/Header.lean ====
section
/-!
DEFINITION. Sys2Proof/Machine/Header.lean: the header registers of every page (R12 to R20): SOFT_RESET with what it resets of each block
(R538), block power (R14), PAGE_LOCK (R15), interrupts (R18, R19) and the event counters' selection and clearing (R17).
-/
namespace Sys2Proof.Machine

/-! ## What a soft reset resets (R538) -/

/-- A block-specific register that a soft reset keeps: its reset value is no constant (R535, R538). -/
def keptReg (b : Block) (off : Nat) : Bool :=
  match b with
  | .clk => decide (0x100 ≤ off) && decide (off < 0x148)
  | .req => decide (0x300 ≤ off) && decide (off < 0x320)
  | .hwd => decide (off = 0x04C)
  | .tpr => decide (off = 0x104)
  | .thm => decide (off = 0x050)
  | _ => false

/-- The block-specific registers of a page return to their reset values but those that stay. -/
def clearRegs (s : State) (die page : Nat) (keep : Nat → Bool) : State :=
  let lo := barOff die page 0x040
  let hi := barOff die page 0x1000
  { s with regs := s.regs.filter (fun r => decide (r.1 < lo) || decide (hi ≤ r.1) || keep (r.1 - barOff die page 0)) }

/-- A soft reset of the header (R13, R14): interrupts, the error and the counters are cleared, FAULT too. R14 names neither CNTn_HI latch among
what is cleared nor among what is kept: the model keeps both (DESIGN CHOICE, log entry 47). -/
def clearHeader (s : State) (die page : Nat) : State :=
  let s1 := setReg (setReg (setReg s die page 0x010 0#32) die page 0x020 0#32) die page 0x024 0#32
  let s2 := setRegFld s1 die page 0x00C 2 1 0
  let k := pageKey die page * 2
  { s2 with cnt := mapErase (mapErase s2.cnt k) (k + 1), marks := mapErase s2.marks (pageKey die page) }

/-- A queue emptied by a soft reset of its CORE page; what executes runs on (R538). -/
def dropQueue (q : Queue) : Queue :=
  { q with entries := [], enq := 0, iss := 0, waits := 0#32, exec := q.exec.map (fun e => { e with orphan := true }) }

/-- A soft reset of a CORE page (R538). -/
def resetCore (s : State) (c : Nat) : State :=
  let s1 := endMirror s c
  let s2 := clearRegs s1 (coreDie c) (corePage c 0) (fun o => decide (o = 0x040) || decide (o = 0x044) || decide (o = 0x058))
  updCore s2 c (fun x => { x with
    q0 := dropQueue x.q0, q1 := dropQueue x.q1, q2 := dropQueue x.q2, q3 := dropQueue x.q3, sb := [], sbHigh := 0,
    jfPrev := 0#256, jfSet := 0#256, jsPrev := 0#256 })

/-- The commands of a queue no longer counted in REFS (R538). -/
def uncount (q : Queue) : Queue :=
  { q with entries := q.entries.map (fun e => { e with counted := false }), exec := q.exec.map (fun e => { e with counted := false }) }

/-- A soft reset of an SPM page (R538): every context invalid, running fills stopped where they are. -/
def resetSpm (s : State) (c : Nat) : State :=
  let s1 := foldState (fun u n => setCtx u c n 0xC 0 1 0) (settle s c) (upFrom 0 16)
  updCore (setReg s1 (coreDie c) (corePage c 4) 0x044 0#32) c (fun x => { x with
    fills := [], q0 := uncount x.q0, q1 := uncount x.q1, q2 := uncount x.q2, q3 := uncount x.q3 })

/-- A soft reset of an MXE or VXE page waits until the engine's commands in execution have retired (R538). -/
def resetEngine (s : State) (c q : Nat) : State :=
  finishSoftWait { s with softWait := mapSet s.softWait (pageKey (coreDie c) (corePage c (q + 1))) true } c q

/-- A soft reset of a DMR page (R538): schedule banks, protection banks and their controls. -/
def resetRouter (s : State) (die : Nat) : State :=
  updRouter (clearRegs s die 0 (fun o => decide (o = 0x044))) die (fun r => { r with
    bankA := { cycles := 0, runs := [] }, bankB := { cycles := 0, runs := [] },
    protA := { entries := [], routes := [] }, protB := { entries := [], routes := [] } })

/-- A soft reset of an FRS page (R538): the sequencer stops; the program banks, which no register shows, stay. -/
def resetFrs (s : State) (die : Nat) : State :=
  updFrs (clearRegs s die 1 (fun _ => false)) die (fun f => { Frs.reset with bankA := f.bankA, bankB := f.bankB })

/-- A soft reset of a LNK page (R538): a port that was ACTIVE has left it (R326). -/
def resetPort (s : State) (p : Nat) : State :=
  let s1 := if portState s p = 5 then portLost s p else s
  putPort (clearRegs s1 (portDie p) (portPage p) (fun _ => false)) p { PortSt.reset with noCable := (portOf s1 p).noCable }

/-- What a soft reset discards of a block's queued work beside its registers (R538). -/
def dropWork (s : State) (b : Block) (die : Nat) : State :=
  match b with
  | .clk =>
    let s1 := foldState (fun u c => updCore u c (fun x => { x with clk := { x.clk with nextMhz := 0, lockAt := 0, armed := false } })) s (dieCores die)
    if die = 90 then updPower s1 (fun p => { p with slowMs := 0 }) else s1
  | .pwr => updPower s (fun p => { p with energy := 0 })
  | .bst => putBst s die { bstOf s die with reports := [] }
  | .trc => { s with trc := mapPut TrcSt.reset s.trc die { TrcSt.reset with buf := (trcOf s die).buf, coming := (trcOf s die).coming } }
  | .mbc =>
    let st := dieOrd die
    putHomeQ (putMbc s st { mbcOf s st with scrubLine := 0, grant := none }) die { homeQ s die with q := [], held := [] }
  | .hlk =>
    if die = 98 then putHomeQ (putMover s { s.mover with queue := [], done := [], grant := false }) 98 { homeQ s 98 with q := [], held := [] }
    else updLoader s (fun l => { l with queue := l.queue.take 1, done := [] })
  | .tcc => if die = 0 then { s with gop := { s.gop with queue := [] } } else s
  | .req => updTracker s (dieOrd die) (fun x => { x with reqs := x.reqs.filter (fun r => decide (r.phase ≠ 0)) })
  | _ => s

/-- The counters of a page take the events of earlier cycles that the model counts by the span: empty planned cycles (R34), cycles in which a
descriptor is held at a full queue (R190), busy cycles of the engines (R89), waits at crossbar ports (R135), and positions of a port (R322, R337). -/
def settleCnt (s : State) (die page : Nat) : State :=
  if page = 0 then (if frsRunning s (frsDieOf die) then settleEmpty s die (plannedIndex (frameCyc s die)) else s)
  else if page = 1 then foldState (fun u c => settleHeld u die c) s (dieCores die)
  else if page ≥ 0x10 ∧ dieType die = .compute then
    let c := dieOrd die * 18 + (page - 0x10) / 8
    settleAccruals (if (page - 0x10) % 8 = 3 then servePorts s c else s) die page (coreCycle s c)
  else if dieType die = .bough ∧ 9 ≤ page ∧ page < 12 then
    let p := 3 * dieOrd die + (page - 9)
    if transmits s p then serveLink s p else s
  else s

/-- SOFT_RESET of a page (R538). -/
def softResetPage (s0 : State) (die page : Nat) : State :=
  let s := settleCnt s0 die page
  let c := dieOrd die * 18 + (page - 0x10) / 8
  let p := 3 * dieOrd die + (page - 9)
  let s1 :=
    match pageBlock die page with
    | none => s
    | some b =>
      match b with
      | .core => resetCore s c
      | .spm => resetSpm s c
      | .mxe => resetEngine s c 0
      | .vxe => resetEngine s c 1
      | .mve => updCore (setReg s die page 0x04C 0#32) c (fun x => { x with mveHigh := 0 })
      | .dmr => resetRouter s die
      | .frs => resetFrs s die
      | .lnk => resetPort s p
      | b => dropWork (clearRegs s die page (keptReg b)) b die
  clearHeader s1 die page

/-! ## PAGE_CTRL (R13 to R15, R538) -/

/-- A write of PAGE_CTRL: a reset first, then ENABLE and POWER_REQ; under PAGE_LOCK only POWER_REQ is stored (R15). No rule orders the two errors
that one write of a locked page can cause, 0x1003 and 0x1002: the model records 0x1003 first (DESIGN CHOICE, log entry 109). -/
def writePageCtrl (s : State) (die page : Nat) (v : Word) : State :=
  if pageLocked s die page then
    let differs := decide (fld v 0 1 ≠ fld (reg s die page 0x008) 0 1) || tbit v 1
    writePowerReq (if differs then lockedWrite s die page 0x008 else s) die page (fld v 4 4)
  else
    let s1 := if tbit v 1 then softResetPage s die page else s
    writePowerReq (setRegFld s1 die page 0x008 0 1 (fld v 0 1)) die page (fld v 4 4)

/-! ## Interrupts and errors (R18 to R20) -/

/-- The implemented bits of IRQ_STATUS of a page (R12). -/
def irqMask (die page : Nat) : Word :=
  match pageBlock die page with
  | none => 0#32
  | some b => BitVec.ofNat 32 (7 + (2 ^ fld (blockCaps b die) 16 8 - 1) * 2 ^ 16)

/-- The errors of the present cycle after ERR was cleared: the first one is captured anew (R20). -/
def recapture (s : State) (die page : Nat) (l : List (Nat × Nat)) : State :=
  let s1 := setReg (setReg s die page 0x020 0#32) die page 0x024 0#32
  match l with
  | [] => s1
  | e :: r =>
    setReg (setReg s1 die page 0x020 (BitVec.ofNat 32 e.1)) die page 0x024 (BitVec.ofNat 32 (e.2 + min r.length 255 * 2 ^ 24))

/-- LAST_FABRIC_ERR holds the first code since ERR was cleared, of the CORE page that records 0x4030 or of its own page (R79, R88): a failure in the cycle
of the clear is the first one after it (R20). -/
def clearFabricErr (s : State) (die page : Nat) : State :=
  let c := dieOrd die * 18 + (page - 0x10) / 8
  let v : Word := match (core s c).failed with
    | some (cyc, code) => if cyc = coreCycle s c ∧ (core s c).clk.mode = .run then BitVec.ofNat 32 code else 0#32
    | none => 0#32
  match pageBlock die page with
  | some .mve => setReg s die page 0x04C v
  | some .core => setReg s die (page + 3) 0x04C v
  | _ => s

/-- A W1C write of IRQ_STATUS (R18, R20): a bit that an event of the same cycle set stays set, and an error of that cycle is the new first one. -/
def writeIrqStatus (s : State) (die page : Nat) (v : Word) : State :=
  let m := pageMark s die page
  let now := decide (m.irqCyc = some (pageCycle s die page))
  let keep : Word := if now then m.irq else 0#32
  let s1 := setReg s die page 0x010 (reg s die page 0x010 &&& ~~~(v &&& ~~~keep))
  if tbit v 0 then clearFabricErr (recapture s1 die page (if now then m.errs else [])) die page else s1

/-- A write of IRQ_FORCE (R19): the named bits are set under the Service permission. -/
def writeIrqForce (s : State) (die page : Nat) (v : Word) : State :=
  let w := v &&& irqMask die page
  if w = 0#32 then s
  else if !hasService s die then recordErrorFree s die page 0x8001
  else foldState (fun u i => if tbit w i then setIrq u die page i else u) s (upFrom 0 32)

/-! ## Counters (R16, R17) -/

/-- Keeps what CNT_SEL and CNT_CTRL held before the present cycle (R17). -/
def markConfig (s : State) (die page : Nat) : State :=
  let m := pageMark s die page
  let cyc := pageCycle s die page
  if m.cfgCyc = some cyc then s
  else putMark s die page { m with cfgCyc := some cyc, sel := reg s die page 0x028, ctrl := reg s die page 0x02C }

/-- A write of CNT_SEL (R17). -/
def writeCntSel (s : State) (die page : Nat) (v : Word) : State :=
  setReg (markConfig (settleCnt s die page) die page) die page 0x028 (v &&& 0xFFFF#32)

/-- A write of CNT_CTRL (R17). -/
def writeCntCtrl (s : State) (die page : Nat) (v : Word) : State :=
  let s1 := setReg (markConfig (settleCnt s die page) die page) die page 0x02C (v &&& 3#32)
  let s2 := if tbit v 4 then clearCounter s1 die page 0 else s1
  if tbit v 5 then clearCounter s2 die page 1 else s2

/-- A write of a header register (R12 to R19); read-only ones ignore it. -/
def writeHeader (s : State) (die page off : Nat) (v : Word) : State :=
  match off with
  | 0x008 => writePageCtrl s die page v
  | 0x010 => writeIrqStatus s die page v
  | 0x014 => setReg s die page 0x014 (v &&& irqMask die page)
  | 0x018 => writeIrqForce s die page v
  | 0x01C => if tbit v 0 then setReg s die page 0x01C 1#32 else s
  | 0x028 => writeCntSel s die page v
  | 0x02C => writeCntCtrl s die page v
  | _ => s

/-- Whether a page of the Heartwood die discards every write (R537). -/
def sealedPage (die page : Nat) : Bool := decide (die = 9) && (decide (page = 2) || decide (page = 4))

/-- A header write that reaches its page (R536, R537). -/
def headerAccess (s : State) (die page off : Nat) (v : Word) : State :=
  if !reachable s die page then s
  else if sealedPage die page then recordError s 9 8 0x8054 (off * 2 ^ 8 + page * 2 ^ 20)
  else writeHeader (traceRec s die 5 0) die page off v

/-- SOFT_RESET (R538). -/
def execSoftReset (t : Time) (die : Die) (page : Fin 256) (v : Word) (s : State) : Host.Outcome State Fault Refusal :=
  .next (headerAccess (advance s t) die.val page.val 0x008 v)

/-- POWER_REQ_WRITE (R14). -/
def execPowerReqWrite (t : Time) (die : Die) (page : Fin 256) (v : Word) (s : State) : Host.Outcome State Fault Refusal :=
  .next (headerAccess (advance s t) die.val page.val 0x008 v)

/-- POWER_TRANSITION_COMPLETE (R14). -/
def execPowerTransitionComplete (t : Time) (die : Die) (page : Fin 256) (s : State) : Host.Outcome State Fault Refusal :=
  let s1 := advance s t
  .next (if reachable s1 die.val page.val then endTransition s1 die.val page.val else s1)

/-- PAGE_LOCK (R15). -/
def execPageLock (t : Time) (die : Die) (page : Fin 256) (v : Word) (s : State) : Host.Outcome State Fault Refusal :=
  .next (headerAccess (advance s t) die.val page.val 0x01C v)

/-- IRQ_STATUS_CLEAR (R18). -/
def execIrqStatusClear (t : Time) (die : Die) (page : Fin 256) (v : Word) (s : State) : Host.Outcome State Fault Refusal :=
  .next (headerAccess (advance s t) die.val page.val 0x010 v)

/-- IRQ_FORCE (R19). -/
def execIrqForce (t : Time) (die : Die) (page : Fin 256) (v : Word) (s : State) : Host.Outcome State Fault Refusal :=
  .next (headerAccess (advance s t) die.val page.val 0x018 v)

/-- CNT_CLR (R17). -/
def execCntClr (t : Time) (die : Die) (page : Fin 256) (v : Word) (s : State) : Host.Outcome State Fault Refusal :=
  .next (headerAccess (advance s t) die.val page.val 0x02C v)

end Sys2Proof.Machine
end

