-- ==== Sys2Proof/Machine/Gop.lean ====
section
/-!
DEFINITION. Sys2Proof/Machine/Gop.lean: the global operations of die 0 (R360, R362 to R364, R367): barrier, broadcast, snapshot and reset.
-/
namespace Sys2Proof.Machine

/-! ## The slice tree (R359, R360) -/

/-- The slice coordinates of this module (R359). -/
def sliceCoord (s : State) : Nat × Nat × Nat :=
  let n := ownNode s
  let o := s.slice.origin
  let ny := max s.ny 1
  let nz := max s.nz 1
  ((nodeX n + 4 - nodeX o) % 4, (nodeY n + ny - nodeY o % ny) % ny, (nodeZ n + nz - nodeZ o % nz) % nz)

/-- Whether this module is the root of the slice tree (R360). -/
def isRoot (s : State) : Bool := decide (sliceCoord s = (0, s.slice.y / 2, s.slice.z / 2))

/-- The height of the slice tree in link crossings (R360). -/
def treeHeight (s : State) : Nat :=
  (if s.slice.x > 1 then 1 else 0) + (if s.slice.y ≤ 1 then 0 else if hasSwitch s then 2 else s.slice.y / 2) + s.slice.z / 2

/-- The capture frame that the root chooses (R362). -/
def captureFrame (s : State) : Nat :=
  let fr := frsOf s 0
  frameNum s 0 + ceilDiv (7000 + 6000 * treeHeight s) (fr.ends - fr.began) + 1

/-! ## Operations in flight (R362, R364, R367) -/

/-- The state with the global operations changed. -/
def updGop (s : State) (f : GopSt → GopSt) : State := { s with gop := f s.gop }

/-- GOP_STATUS's count of queued operations and BUSY as they stand. -/
def showGop (s : State) : State :=
  setRegFld (setRegFld s 0 8 0x504 0 3 (min 7 s.gop.queue.length)) 0 8 0x504 3 1 (b2n (!s.gop.flight.isEmpty))

/-- An operation of a kind is in flight. -/
def inFlight (s : State) (op : Nat) : Bool := s.gop.flight.any (fun g => decide (g.op = op))

/-- The first operation of a kind that is queued. -/
def takeQueued (op : Nat) (l : List (Nat × Nat)) : Option ((Nat × Nat) × List (Nat × Nat)) :=
  match l with
  | [] => none
  | x :: r =>
    if x.1 = op then some (x, r)
    else
      match takeQueued op r with
      | none => none
      | some (y, q) => some (y, x :: q)

/-- An operation begins on this module: the root of a snapshot chooses and broadcasts C, that of a reset broadcasts R (R362). -/
def beginGop (s : State) (op seq resetFrame : Nat) : State :=
  let s1 := updGop s (fun g => { g with flight := g.flight ++ [{ op := op, seq := seq, since := s.now }] })
  if op = 3 ∧ isRoot s1 = true then
    let c := captureFrame s1
    setReg (updGop s1 (fun g => { g with capture := some c })) 0 8 0x50C (BitVec.ofNat 32 c)
  else if op = 4 ∧ isRoot s1 = true then updGop s1 (fun g => { g with resetAt := some resetFrame })
  else s1

/-- An operation ends on this module with a status (R362, R367): the next one queued of its kind begins. -/
def endGop (s : State) (g : GopRun) (code : Nat) : State :=
  let s1 := updGop s (fun x => { x with flight := x.flight.filter (fun h => decide (h.op ≠ g.op)) })
  let s2 := setRegFld (setRegFld s1 0 8 0x504 8 8 g.seq) 0 8 0x504 16 16 code
  let s3 := setReg s2 0 8 0x508 (BitVec.ofNat 32 ((s.now - g.since) / 64))
  let s4 := count s3 0 8 (if g.op = 1 then 0x90 else if g.op = 2 then 0x91 else 0x92) 1
  match takeQueued g.op s4.gop.queue with
  | none => s4
  | some (x, r) => beginGop (updGop s4 (fun y => { y with queue := r })) x.1 x.2 0

/-- Operations in flight end with an error (R364). -/
def abortGops (s : State) (code : Nat) (p : GopRun → Bool) : State :=
  showGop (foldState (fun u g => endGop (recordError u 0 8 code (g.op + g.seq * 2 ^ 8)) g code)
    (updGop s (fun x => { x with capture := none })) (s.gop.flight.filter p))

/-- A reset arrives while other operations are in flight: they end with 0x4052 (R364). -/
def abortForReset (s : State) : State := abortGops s 0x4052 (fun g => decide (g.op ≠ 4))

/-- A write of GOP_CMD (R364, R367): the operation starts, waits behind one of its kind, or is refused with 0x4050; a reserved OP starts
nothing. -/
def writeGop (s : State) (v : Word) (resetFrame : Nat) : State :=
  let op := fld v 0 3
  let seq := fld v 8 8
  if op = 0 ∨ op > 4 then s
  else if inFlight s op then
    if (s.gop.queue.filter (fun x => decide (x.1 = op))).length ≥ 4 then recordError s 0 8 0x4050 op
    else showGop (updGop s (fun g => { g with queue := g.queue ++ [(op, seq)] }))
  else showGop (beginGop (if op = 4 then abortForReset s else s) op seq resetFrame)

/-- A write of GOP_CMD through the register page. -/
def gopAccess (s : State) (v : Word) (resetFrame : Nat) : State := pageWrite s 0 8 0x500 false (fun u => writeGop u v resetFrame)

/-- BARRIER (R362). -/
def execBarrier (t : Time) (v : Word) (s : State) : Host.Outcome State Fault Refusal := .next (gopAccess (advance s t) v 0)

/-- BROADCAST (R362). -/
def execBroadcast (t : Time) (v : Word) (s : State) : Host.Outcome State Fault Refusal := .next (gopAccess (advance s t) v 0)

/-- SNAPSHOT (R362). -/
def execSnapshot (t : Time) (v : Word) (s : State) : Host.Outcome State Fault Refusal := .next (gopAccess (advance s t) v 0)

/-- RESET (R362): with the frame that the root broadcasts, which the rule leaves to the root (log entry 51). -/
def execResetOp (t : Time) (v : Word) (frame : Nat) (s : State) : Host.Outcome State Fault Refusal := .next (gopAccess (advance s t) v frame)

/-- The 256 bytes of a broadcast arrive in GOP_DATA (R362, R367). -/
def putGopData (s : State) (l : List Byte) : State :=
  foldState (fun u i => setReg u 0 8 (0x510 + 4 * i) (BitVec.ofNat 32 (ofLE ((l.drop (4 * i)).take 4)))) s (upFrom 0 64)

/-- The operation of a kind and SEQ in flight. -/
def findGop (s : State) (op seq : Nat) : Option GopRun := s.gop.flight.find? (fun g => decide (g.op = op) && decide (g.seq = seq))

/-- BARRIER_RELEASE (R362, R364): the release of a barrier or of a reset's barrier, the arrival of a broadcast's data, or a snapshot's last
acknowledgement at the root; a snapshot with late captures completes with 0x4053 and its first late node. -/
def execBarrierRelease (t : Time) (op : Fin 5) (seq : Fin 256) (data : List Byte) (late : Option (Fin 65536)) (s : State) :
    Host.Outcome State Fault Refusal :=
  let s1 := advance s t
  if !reachable s1 0 8 then .next s1
  else
    let s2 := if op.val = 2 then putGopData s1 data else s1
    match findGop s2 op.val seq.val, late with
    | none, _ => .next s2
    | some g, none => .next (showGop (endGop s2 g 0))
    | some g, some n => .next (showGop (endGop (recordError s2 0 8 0x4053 n.val) g 0x4053))

/-! ## Capture and reset at a boundary (R362, R364) -/

/-- A capture latches FRAME_NUM, applied s, SLOT_STATE and the accounting of die 0 (R362). -/
def capture (s : State) (late : Bool) : State :=
  let fr := frsOf s 0
  updGop s (fun g => { g with
    capture := none,
    snap := some { frame := frameNum s 0, s := fr.s, slots := fr.slots, steps := fr.steps, acctSteps := fr.acctSteps,
                   acctSlots := fr.acctSlots, acctReplays := fr.acctReplays, late := late } })

/-- Outstanding requests of every core are taken as orphaned (R362, R464, log entry 52). -/
def orphanAll (s : State) : State :=
  foldState (fun u (p : Nat × CoreSt) =>
    if p.2.reqs.isEmpty then u
    else updCore u p.1 (fun x => { x with reqs := x.reqs.map (fun r => if r.orphanAt.isNone then { r with orphanAt := some s.now } else r) })) s s.cores

/-- JOB_SKIP is set for every job of the slice; the jobs whose bit was clear are returned (R362, R464). -/
def skipJobs (s : State) : State × List Nat :=
  match s.plan with
  | none => (s, [])
  | some pl =>
    let l := (pl.jobs.map (fun j => j.tag)).filter (fun j => !jobSkipped s j)
    (foldState (fun u j => setSkip u j true) s l, l)

/-- Every FRS page of the module is soft-reset (R362, R464). -/
def resetFrsPages (s : State) : State := foldState (fun u d => if reachable u d 1 then softResetPage u d 1 else u) s frsDies

/-- The reset of R362 at its frame. -/
def resetNow (s : State) : State := resetFrsPages (orphanAll (skipJobs (updGop s (fun g => { g with resetAt := none }))).1)

/-- What a frame boundary of die 0 brings to global operations. -/
def gopBoundary (s : State) : State :=
  let f := frameNum s 0
  let s1 :=
    match s.gop.capture with
    | none => s
    | some c => if f ≥ c then capture s (decide (f > c)) else s
  match s1.gop.resetAt with
  | none => s1
  | some r => if f ≥ r then resetNow s1 else s1

end Sys2Proof.Machine
end

