-- ==== Sys2Proof/Machine/Failover.lean ====
section
/-!
DEFINITION. Sys2Proof/Machine/Failover.lean: control clusters (R456, R457), membership (R461, R462), fencing (R463), the switch to a fallback unit
(R464 to R467), departure (R468), and zero initialisation (R465).
-/
namespace Sys2Proof.Machine

/-! ## Control clusters (R456, R457) -/

/-- The state with the failover state changed. -/
def updFo (s : State) (f : FoSt → FoSt) : State := { s with fo := f s.fo }

/-- The period of heartbeats (R456, R461): 100 µs. -/
def beat : Nat := 1000000

/-- The control cluster that coordinates failover: that of die 0, or the one that took over (R456). -/
def foCluster (s : State) : Nat := if (tracker s 0).lost then 1 else 0

/-- Whether the firmware's failover duties are carried out: it runs, a cluster is left, and die 0 can be reached. -/
def foActs (s : State) : Bool := fwRuns s && reachable s 0 8 && !((tracker s 0).lost && (tracker s 1).lost)

/-- TRUNK_HEARTBEAT (R456): a heartbeat of cluster `k` reaches the other one. -/
def execTrunkHeartbeat (t : Time) (k : Fin 2) (s : State) : Host.Outcome State Fault Refusal :=
  let s1 := advance s t
  if fwRuns s1 && !(tracker s1 k.val).lost then .next (updFo s1 (fun x => { x with trunkBeat := mapSet x.trunkBeat k.val s1.now })) else .next s1

/-- An entry whose intent was recorded last is written again at its place, and the tail set to what the intent records (R457). -/
def redoIntent (s : State) (k : Nat) : State :=
  match (tracker s k).intent with
  | none => s
  | some (e, a, tail, n) => setRq (putHost s a e) k tail (BitVec.ofNat 32 n)

/-- Tracker `k`'s open requests and what it keeps of them go to the other tracker (R456, R457); TRACKED follows. -/
def takeOver (s : State) (k : Nat) : State :=
  let x := tracker s k
  let o := 1 - k
  let s1 := updTracker s o (fun y => { y with
    reqs := y.reqs ++ x.reqs, jumps := y.jumps ++ x.jumps, lens := y.lens ++ x.lens,
    replayed := foldState (fun m p => mapSet m p.1 p.2) y.replayed x.replayed })
  let s2 := updTracker s1 k (fun y => { y with reqs := [], jumps := [], lens := [], replayed := [], lost := true })
  foldState (fun u i =>
    let off := 0x300 + 4 * i
    setRq (setRq u o off (rq u o off ||| rq u k off)) k off 0#32) s2 (upFrom 0 8)

/-- TRUNK_CLUSTER_LOST (R456): cluster `k` has halted, or its heartbeats have been missing for 10 periods; the other one takes over. -/
def execTrunkClusterLost (t : Time) (k : Fin 2) (halted : Bool) (s : State) : Host.Outcome State Fault Refusal :=
  let s1 := advance s t
  let late := decide (s1.now ≥ mapGet s1.fo.trunkBeat k.val 0 + 10 * beat)
  if fwRuns s1 && !(tracker s1 k.val).lost && !(tracker s1 (1 - k.val)).lost && (halted || late) then
    .next (recordError (takeOver (redoIntent s1 k.val) k.val) (trDie (1 - k.val)) 8 0x9064 k.val)
  else .next s1

/-! ## Heartbeats and departure (R461, R468) -/

/-- The modules of the slice next to this one in its X, Y and Z directions (R461). -/
def neighbours (s : State) : List Nat :=
  ((upFrom 1 7).map (fun d => (partnerOf s d).2)).filter (fun n => inSlice s n && decide (n ≠ ownNode s))

/-- A register of failover, on the TCC page of die 0 (R472). -/
def foReg (s : State) (off : Nat) : Word := reg s 0 8 off

/-- FO_STATUS[2:0]: 0 NORMAL, 1 MEMBERSHIP, 2 FENCED_SELF, 3 SWITCHING, 4 REBUILD, 5 RESUMING (R472). -/
def foState (s : State) : Nat := fld (foReg s 0x708) 0 3

/-- The state with FO_STATUS[2:0] replaced. -/
def setFoState (s : State) (n : Nat) : State := setRegFld s 0 8 0x708 0 3 n

/-- Whether this module takes part in a running slice: a module on the bench carrier has no fabric peer, and failover does not apply to it (R3). -/
def inRunningSlice (s : State) : Bool := foActs s && s.slice.running && decide (foState s ≠ 2) && !s.bench

/-- MODULE_HEARTBEAT (R461): die 0 sends its heartbeats, and those of the named neighbours arrive. -/
def execModuleHeartbeat (t : Time) (heard : List (Fin 65536)) (s : State) : Host.Outcome State Fault Refusal :=
  let s1 := advance s t
  if inRunningSlice s1 then
    let l := neighbours s1
    .next (foldState (fun u n => if l.contains n.val then updFo u (fun x => { x with beats := mapSet x.beats n.val u.now }) else u) s1 heard)
  else .next s1

/-- A membership round starts on this module (R461, R462): it floods its own alive. -/
def startRound (s : State) : State :=
  if foState s = 1 then s
  else
    let stopped := frsDies.any (fun d => outOfStep s d)
    setFoState (updFo s (fun x => { x with
      round := x.round + 1, since := s.now, sent := none, heard := x.heard.filter (fun h => decide (h / 65536 > x.round)),
      faultAt := if stopped then x.faultAt else s.now, stopFrame := if stopped then x.stopFrame else frameNum s 0 })) 1

/-- HEARTBEAT_MISS (R461): HB_MISS heartbeats in a row of a neighbour have not come. -/
def execHeartbeatMiss (t : Time) (node : Fin 65536) (s : State) : Host.Outcome State Fault Refusal :=
  let s1 := advance s t
  let due := mapGet s1.fo.beats node.val 0 + fld (foReg s1 0x700) 0 8 * beat
  if inRunningSlice s1 && (neighbours s1).contains node.val && decide (s1.now ≥ due) && !s1.fo.lost.contains node.val then
    .next (startRound (recordError s1 0 8 0x4070 node.val))
  else .next s1

/-- MEMBERSHIP_ROUND (R461): a die of the module is OUT_OF_STEP. -/
def execMembershipRound (t : Time) (s : State) : Host.Outcome State Fault Refusal :=
  let s1 := advance s t
  if inRunningSlice s1 && frsDies.any (fun d => outOfStep s1 d) then .next (startRound s1) else .next s1

/-- DEPART_NOTICE (R461). -/
def execDepartNotice (t : Time) (node : Fin 65536) (s : State) : Host.Outcome State Fault Refusal :=
  let s1 := advance s t
  if inRunningSlice s1 && inSlice s1 node.val && decide (node.val ≠ ownNode s1) && !s1.fo.lost.contains node.val then .next (startRound s1)
  else .next s1

/-- A write of FO_CTRL (R468): the module departs. -/
def writeFoCtrl (s : State) (v : Word) : State := if tbit v 0 then { s with departing := true } else s

/-- DEPART (R468). -/
def execDepart (t : Time) (v : Word) (s : State) : Host.Outcome State Fault Refusal :=
  .next (pageWrite (advance s t) 0 8 0x704 false (fun u => writeFoCtrl u v))

/-- A write of FO_CFG: discarded with 0x10E0 where a field is outside its range (R472). -/
def writeFoCfg (s : State) (v : Word) : State :=
  if fld v 0 8 = 0 ∨ fld v 8 8 = 0 ∨ fld v 8 8 > 20 then recordError s 0 8 0x10E0 0x700 else setReg s 0 8 0x700 (v &&& 0x1FFFF#32)

/-! ## The round (R462) -/

/-- The modules heard in the present round: this one, and those whose alive has arrived. -/
def heardNodes (s : State) : List Nat :=
  ownNode s :: (s.fo.heard.filter (fun h => decide (h / 65536 = s.fo.round) && decide (h % 65536 ≠ ownNode s))).map (fun h => h % 65536)

/-- ALIVE (R462): noted and forwarded once. -/
def execAlive (t : Time) (node : Fin 65536) (round : Nat) (s : State) : Host.Outcome State Fault Refusal :=
  let s1 := advance s t
  let h := round * 65536 + node.val
  if inRunningSlice s1 && inSlice s1 node.val && decide (round ≥ s1.fo.round) && !s1.fo.heard.contains h then
    .next (updFo s1 (fun x => { x with heard := x.heard ++ [h] }))
  else .next s1

/-- The modules of the running unit's slice, hot spares included. -/
def sliceNodes (s : State) : List Nat := planNodes s s.container

/-- The modules of the slice that have not been lost. -/
def liveNodes (s : State) : List Nat := (sliceNodes s).filter (fun n => !s.fo.lost.contains n)

/-- A module without majority, without a decision, or named by one fences itself (R462). -/
def fenceSelf (s : State) : State :=
  let s1 := recordError s 0 8 0x9063 ((heardNodes s).length % 2 ^ 16)
  let s2 := foldState (fun u p => if reachable u (portDie p) (portPage p) then writeLnkCtrl u p (setBit (lnk u p 0x040) 1 true) else u) s1 (upFrom 0 42)
  setFoState (stopModule s2) 2

/-- Whether the modules heard may go on (R462): a majority, or a tie with the anchor among them. -/
def majority (s : State) : Bool :=
  let n := (liveNodes s).length
  let h := (heardNodes s).length
  decide (2 * h > n) || (decide (2 * h = n) && (heardNodes s).contains (fld (foReg s 0x714) 0 16))

/-- MEMBERSHIP_WAIT_EXPIRY (R462): after MEMB_MS. The lowest module heard broadcasts its decision. -/
def execMembershipWaitExpiry (t : Time) (s : State) : Host.Outcome State Fault Refusal :=
  let s1 := advance s t
  if inRunningSlice s1 && decide (foState s1 = 1) && decide (s1.now ≥ s1.fo.since + fld (foReg s1 0x700) 8 8 * ms) && s1.fo.sent.isNone then
    if majority s1 then
      let h := heardNodes s1
      if h.all (fun n => decide (ownNode s1 ≤ n)) then
        .next (updFo s1 (fun x => { x with sent := some ((liveNodes s1).filter (fun n => !h.contains n)) }))
      else .next s1
    else .next (fenceSelf s1)
  else .next s1

/-- DECISION_TIMEOUT (R462): no decision within 20 ms. -/
def execDecisionTimeout (t : Time) (s : State) : Host.Outcome State Fault Refusal :=
  let s1 := advance s t
  if inRunningSlice s1 && decide (foState s1 = 1) && decide (s1.now ≥ s1.fo.since + 20 * ms) then .next (fenceSelf s1) else .next s1

/-! ## Fences (R463) -/

/-- The first FENCE entry of a Bough die that is free, unless one names the node already. -/
def fenceSlot (s : State) (die node : Nat) : Option Nat :=
  let e (i : Nat) : Word := reg s die 8 (0x080 + 4 * i)
  if (upFrom 0 16).any (fun i => tbit (e i) 31 && decide (fld (e i) 0 16 = node)) then none else (upFrom 0 16).find? (fun i => !tbit (e i) 31)

/-- A node entered in the fence table of a Bough die. -/
def fenceAt (node : Nat) (s : State) (die : Nat) : State :=
  if !reachable s die 8 then s
  else
    match fenceSlot s die node with
    | none => s
    | some i => setReg s die 8 (0x080 + 4 * i) (BitVec.ofNat 32 (node + 2 ^ 31))

/-- A lost module is fenced on every Bough die, and the ports to it are held in quarantine (R463). -/
def fenceNode (s : State) (node : Nat) : State :=
  let s1 := foldState (fenceAt node) s boughDies
  foldState (fun u p =>
    if partnerOf u (portDir u p) = (false, node) ∧ portDir u p ≠ 0 ∧ reachable u (portDie p) (portPage p) = true then
      writeLnkCtrl u p (setBit (lnk u p 0x040) 1 true)
    else u) s1 (upFrom 0 42)

/-! ## Fallback entries (R459, R467) -/

/-- The entry of an index for a lost module. -/
def lossEntry (l : List Fallback) (node : Nat) : Option Fallback := l.find? (fun e => decide (e.cls = 1) && decide (e.node = node))

/-- The FALLBACK_INDEX of a unit of the container. -/
def indexOf (s : State) (u : Nat) : List Fallback := (planInfo s s.container u).fallback

/-- An order in which the lost modules have chained entries (R467): each in the index of the resume unit of the one before. -/
def chainFrom (s : State) (fuel : Nat) (l : List Fallback) (nodes : List Nat) : Option (List Nat) :=
  match fuel with
  | 0 => if nodes.isEmpty then some [] else none
  | f + 1 =>
    if nodes.isEmpty then some []
    else
      nodes.findSome? (fun n =>
        match lossEntry l n with
        | none => none
        | some e => (chainFrom s f (indexOf s e.resume) (nodes.erase n)).map (fun r => n :: r))

/-- The running unit's FALLBACK_INDEX. -/
def runningIndex (s : State) : List Fallback :=
  match s.plan with
  | none => []
  | some pl => pl.fallback

/-- The entry that a decision leads to, and the lost modules to treat after it. -/
def entryFor (s : State) (d : Decision) : Option (Fallback × List Nat) :=
  if d.lost.isEmpty then
    ((runningIndex s).find? (fun e =>
      decide (e.cls = d.cls) && decide (d.cls ≠ 1) && decide (e.node = d.node) && decide (e.detail = d.detail) && decide (e.edge = d.edge))).map
      (fun e => (e, []))
  else
    match chainFrom s d.lost.length (runningIndex s) d.lost with
    | none => none
    | some [] => none
    | some (n :: r) => (lossEntry (runningIndex s) n).map (fun e => (e, r))

/-! ## Double failures (R467) -/

/-- The module of a number in the slice, by ascending node (R219). -/
def nodeOfIndex (s : State) (i : Nat) : Nat :=
  ((sliceNodes s).find? (fun n => decide (((sliceNodes s).filter (fun m => decide (m < n))).length = i))).getD 0xFFFF

/-- The node, with slot field 0, of the tray that owns a layer of a job. -/
def layerTray (pl : PlanInfo) (job layer : Nat) : Option Nat :=
  (pl.stages.find? (fun g => decide (g.job = job) && decide (g.layer = layer))).map (fun g => g.node - nodeX g.node)

/-- The modules that hold a cache parity group's page `p`: its members', the sealed parity's and the open holder's (R208, R219, R220). -/
def groupHomes (s : State) (pl : PlanInfo) (k : KvLayout) (r : KvParity) (p : Nat) : List Nat :=
  let ls := r.layers.filter (fun l => decide (l ≠ 0xFFFF))
  let n := max k.n 1
  r.holder ::
    (if r.mode = 1 then (ls.map (fun l => nodeOfIndex s ((p + l) % n))) ++ [nodeOfIndex s ((p + parityFirst r + 7) % n)]
     else ((ls.map (fun l => layerTray pl k.job l)).reduceOption.map (fun t => t + p % 4)) ++ [r.tray + p % 4])

/-- Whether a cache parity group has lost two of its modules. -/
def kvDouble (s : State) (pl : PlanInfo) (lost : List Nat) (k : KvLayout) (r : KvParity) : Bool :=
  (upFrom 0 (if r.mode = 1 then max k.n 1 else 4)).any (fun p =>
    decide ((lost.filter (fun n => (groupHomes s pl k r p).contains n)).length ≥ 2))

/-- The weight parity groups of which two members are lost, with the job. -/
def weightDoubles (s : State) (lost : List Nat) : List (Nat × Nat) :=
  ((planExtents s).filter (fun x =>
    decide (x.2.pgroup ≠ 0xFFFFFFFF) && lost.contains x.1
      && (planExtents s).any (fun y => decide (y.2.pgroup = x.2.pgroup) && decide (y.2.job = x.2.job) && lost.contains y.1 && decide (x.1 < y.1)))).map
    (fun x => (x.2.pgroup, x.2.job))

/-- A request that has its place outside job slots, to be ended without a slot change (R464: every job slot is free). -/
def unslot (r : Request) : Request := if r.phase ≥ 2 ∧ r.phase ≠ 5 then { r with phase := 7 } else r

/-- The requests of both trackers that satisfy a test end with a code and reason 7. -/
def endWhere (s : State) (code : Nat) (p : Request → Bool) : State :=
  foldState (fun u k =>
    foldState (fun v (r : Request) =>
      if p r then
        let q := unslot r
        closeRequest (reqError (putRequest v k r q) k code r.job) k q code 7
      else v) u (tracker u k).reqs) s [0, 1]

/-- A cache group that lost two members: its sessions end with 0xA060 (R467). -/
def endGroup (k : KvLayout) (r : KvParity) (s : State) : State :=
  let s1 := recordError s 0 8 0x9062 (r.pgroup % 2 ^ 20)
  let here (job slot : Nat) : Bool := decide (job = k.job) && inSlots r.first r.count slot
  let s2 := endWhere s1 0xA060 (fun q => decide (q.phase ≥ 2) && decide (q.phase ≠ 5) && here q.job q.slot)
  foldState (fun u (p : Nat × Option Session) => match p.2 with
    | some x => if x.st ≠ 1 ∧ x.st ≠ 4 ∧ here x.job x.slot = true then putSession u p.1 none else u
    | none => u) s2 s2.serv.sessions

/-- A weight group that lost two members: its model is ABSENT, and the last CANOPY_LOAD of it runs again on the origin module (R467). -/
def endWeightGroup (s : State) (g job : Nat) : State :=
  let s1 := recordError s 0 8 0x9062 (g % 2 ^ 20)
  match jobModel s1 job with
  | none => s1
  | some (m, _) =>
    let s2 := updModel s1 m (fun y => { y with st := 0, ext := [], shards := [] })
    match (if isOrigin s2 then mapGet s2.serv.lastLoad m none else none) with
    | none => s2
    | some x => updServ s2 (fun v => { v with loads := v.loads ++ [{ x with chosen := none, former := 0, again := true }] })

/-- What parity groups that have lost two members lead to (R467). -/
def doubleFailures (s : State) (lost : List Nat) : State :=
  match s.plan with
  | none => s
  | some pl =>
    let s1 := foldState (fun u (k : KvLayout) => foldState (fun v r => if kvDouble v pl lost k r then endGroup k r v else v) u k.parity) s pl.kv
    foldState (fun u x => endWeightGroup u x.1 x.2) s1 (weightDoubles s lost)

/-! ## The switch (R464, R465) -/

/-- An open session's restart (R466): its restart length, and the positions and prompt tokens to append again. A request whose slot drains is parked
as it stands (log entry 53). -/
def recalled (s : State) (k : Nat) (r : Request) : Request :=
  let len := reqLen s r
  if r.phase = 2 ∨ r.phase = 6 then
    let rs := min len (lenAt s k (s.fo.stopFrame - (progBank s 0).agreeLag - 1) r)
    let rest := if r.next = r.at0 ∧ r.prompt > 0 then r.base + r.prompt - len else 0
    { r with phase := 7, base := rs, prompt := len - rs + rest, at0 := r.next }
  else if r.phase = 3 ∨ r.phase = 4 then { r with base := len, prompt := 0, at0 := r.next }
  else r

/-- Every open session is prepared for its restart. -/
def recallAll (s : State) : State :=
  foldState (fun u k => updTracker u k (fun x => { x with reqs := x.reqs.map (recalled s k) })) s [0, 1]

/-- Entries of the log ring for the steps of a failover (R464, R505). -/
def logStep (s : State) : State :=
  let d := drawFree s 507 8
  logEvent d.2 (foCluster d.2) 4 0x9060 (8 * 1024 + d.1.toNat % 1024) 0 0xFF

/-- Whether this module is a hot spare of the running unit (R465). -/
def isSpare (s : State) (n : Nat) : Bool :=
  match s.plan with
  | none => false
  | some pl => !pl.stages.any (fun g => decide (g.node = n))

/-- FO_STATUS's count of spares left. -/
def showSpareCount (s : State) : State :=
  setRegFld s 0 8 0x708 8 8 (min 255 ((liveNodes s).filter (isSpare s)).length)

/-- A parity region enabled over an extent for a rebuild (R222, R465). -/
def coverExtent (s : State) (x : Extent) : State :=
  let r := coverRange s x.offset x.tiles
  updFo r.1 (fun f => { f with regions := f.regions ++ r.2.toList })

/-- The spare that the resume unit places in a lost module's stead covers the lost extents with parity regions (R465). -/
def prepareSpare (s : State) (lost : Nat) (e : Fallback) : State :=
  if isSpare s (ownNode s) && (sliceExtents s s.container e.resume).any (fun x => decide (x.1 = ownNode s)) then
    foldState coverExtent s (((planExtents s).filter (fun x => decide (x.1 = lost) && decide (x.2.offset < t1Size))).map (fun x => x.2))
  else s

/-- RUN is armed on every die for an epoch (R464); SYNC_EPOCH is written back after the soft reset (DEDUCED, log entry 54). -/
def armRun (old : State) (epoch : Nat) (s : State) (die : Nat) : State :=
  if !reachable s die 1 then s
  else
    let s1 := setReg (setReg s die 1 0x054 (BitVec.ofNat 32 (syncEpoch old die))) die 1 0x05C (BitVec.ofNat 32 epoch)
    writeFrameCtrl s1 die (setBit (reg s1 die 1 0x040) 24 true)

/-- The steps of R464 for a fallback unit: JOB_SKIP, stop, watch entries saved, FRS pages reset, the unit loaded and armed, JOB_SKIP cleared, RUN
armed for the agreed epoch. -/
def switchTo (s : State) (u epoch : Nat) : State :=
  let s1 := recallAll s
  let j := skipJobs s1
  let s2 := resetFrsPages (orphanAll (keepWatches (stopModule j.1)))
  let s3 := foldState (fun v k => foldState (parkLater k) v ((tracker v k).reqs.filter (fun r => decide (r.phase = 3) || decide (r.phase = 4))))
    (haltTransfers s2) [0, 1]
  let s4 := armUnit s3 s3.container u
  let s5 := foldState (fun v job => setSkip v job false) s4 j.2
  foldState (fun v _ => logStep v) (foldState (armRun s epoch) s5 frsDies) (upFrom 0 8)

/-- Every job of the slice ends with 0x9061; the slice waits for a plan load (R467). -/
def endSlice (s : State) (first : Nat) : State :=
  let s1 := recordError s 0 8 0x9061 first
  let s2 := endWhere (stopModule (recallAll s1)) 0x9061 (fun _ => true)
  reissuePlan (setFoState { s2 with slice := { s2.slice with running := false } } 0)

/-- The failover that an entry describes begins (R464, R465). -/
def beginFailover (s : State) (e : Fallback) (later : List Nat) (epoch : Nat) : State :=
  let s1 := updFo s (fun x => { x with entry := some e, later := later })
  let s2 := if e.rebuild = 0 then s1 else prepareSpare s1 e.node e
  setFoState (switchTo s2 (if e.rebuild = 0 then e.resume else e.rebuild) epoch) (if e.rebuild = 0 then 5 else 4)

/-- FO_LAST, the failover count and 0x9060 (R472, R473). -/
def noteFailover (s : State) (node cls : Nat) : State :=
  let n := min 65535 (fld (foReg s 0x708) 16 16 + 1)
  recordError (setRegFld (setReg s 0 8 0x70C (BitVec.ofNat 32 (node + cls * 2 ^ 16))) 0 8 0x708 16 16 n) 0 8 0x9060 (node + cls * 2 ^ 16)

/-- The decision of the lowest coordinator received. -/
def lowestDecision (l : List Decision) : Option Decision :=
  match l with
  | [] => none
  | d :: r => some (foldState (fun (b : Decision) x => if x.coord < b.coord then x else b) d r)

/-- A decision is applied (R462 to R464, R467): global operations in flight and a floor reduction end with 0x4051 (R364, R496), the lost modules are fenced, and the slice fails
over. A loss while a rebuild unit runs waits until the resume unit is in force. -/
def applyDecision (s : State) (d : Decision) : State :=
  let cls := if d.lost.isEmpty then d.cls else 1
  let node := d.lost.headD d.node
  let s1 := foldState fenceNode (endReduction (abortGops s 0x4051 (fun _ => true)) d.lost) d.lost
  let s2 := updFo (noteFailover (setFoState s1 3) node cls) (fun x => { x with lost := x.lost ++ d.lost, sent := none })
  let s3 := showSpareCount s2
  match s3.fo.entry with
  | some e =>
    let s4 := doubleFailures s3 (e.node :: s3.fo.later ++ d.lost)
    setFoState (updFo s4 (fun x => { x with later := x.later ++ d.lost })) (if e.rebuild = 0 then 5 else 4)
  | none =>
    let s4 := if d.lost.length ≥ 2 then doubleFailures s3 d.lost else s3
    match entryFor s4 d with
    | none => endSlice s4 node
    | some (e, r) => beginFailover s4 e r d.epoch

/-- DECISION (R462): the decisions that this module has received; it applies that of the lowest coordinator, its own among them where it sent one, and
fences itself where the decision names it. -/
def execDecision (t : Time) (received : List Decision) (s : State) : Host.Outcome State Fault Refusal :=
  let s1 := advance s t
  match lowestDecision received with
  | none => .next s1
  | some d =>
    if !inRunningSlice s1 then .next s1
    else if d.lost.contains (ownNode s1) then .next (fenceSelf s1)
    else if foState s1 = 1 then .next (applyDecision s1 d)
    else .next s1

/-! ## Rebuild and resume (R465, R466) -/

/-- Whether a region of a stack lies over an open parity window of this module in a unit (R220, R465). -/
def regionUsed (s : State) (pl : PlanInfo) (p : Nat × Nat) : Bool :=
  let lo := p.1 * stackSize + fld (mbcReg s p.1 (0x300 + 8 * p.2)) 0 24 * 4096
  let hi := lo + fld (mbcReg s p.1 (0x304 + 8 * p.2)) 0 24 * 4096
  pl.kv.any (fun k => k.parity.any (fun r => decide (r.holder = ownNode s) && decide (r.pb < hi) && decide (lo < r.pb + r.count * r.pbStride)))

/-- A parity region that the firmware enabled for the rebuild is disabled unless the resume unit uses it (R465). -/
def dropRegion (pl : PlanInfo) (s : State) (p : Nat × Nat) : State :=
  if regionUsed s pl p then s else writeRegion s p.1 p.2 true (setFld (mbcReg s p.1 (0x304 + 8 * p.2)) 31 1 0)

/-- REBUILD_COMPLETE (R465): the rebuild unit has run its frames, and the digests of the rebuilt shards match; the resume unit is loaded and armed,
and at the boundary at which it swaps in every session restarts (R466). On a mismatch R382 acts first. A load into a bank whose swap is pending is
refused like any other (R34, R189). -/
def execRebuildComplete (t : Time) (digestsMatch : Bool) (s : State) : Host.Outcome State Fault Refusal :=
  let s1 := advance s t
  match s1.fo.entry, s1.plan with
  | some e, some pl =>
    if foActs s1 && decide (foState s1 = 4) && decide (pl.unit = e.rebuild) && frsRunning s1 0 && decide (frameNum s1 0 ≥ e.frames) && digestsMatch
        && s1.planNext.isNone then
      match pendingLoads s1 s1.container e.resume with
      | b :: _ => .next (refuseLoad s1 s1.container b)
      | [] =>
        let s2 := armUnit s1 s1.container e.resume
        .next (setFoState (foldState (dropRegion (planInfo s1 s1.container e.resume)) s2 s2.fo.regions) 5)
    else .next s1
  | _, _ => .next s1

/-- The parity lines of a slot from its restart length up to its old LEN are zero-filled on their open holder (R466). -/
def zeroParity (s : State) (job slot lo hi : Nat) : State :=
  match kvOf s job with
  | none => s
  | some k =>
    foldState (fun u r =>
      if r.holder = ownNode u ∧ inSlots r.first r.count slot = true then
        let a := r.pb + (slot - r.first) * r.pbStride
        zeroT1 u (a + lo * 384) (a + hi * 384)
      else u) s k.parity

/-- A session restarts from its restart length (R466). -/
def restart (k : Nat) (s : State) (r : Request) : State :=
  if r.phase ≠ 7 then s
  else
    let s1 := setSealed (zeroParity s r.job r.slot r.base (r.base + r.prompt)) r.job r.slot (r.base / 256 * 256)
    let s2 := if s1.fo.regions.isEmpty then s1
      else
        match kvOf s1 r.job with
        | none => s1
        | some kv => restoreWindow s1 kv r.slot r.base
    putRequest s2 k r r

/-- Restarted sessions submit their change to prefill, or to decode where nothing is to be appended, as long as the queue of changes has room. -/
def resubmit (s : State) : State :=
  foldState (fun u k =>
    foldState (fun v (r : Request) =>
      if r.phase = 7 ∧ (frsOf v 0).chgQueue.length < 64 then
        submitSlot (putRequest v k r { r with phase := 2 }) r.job r.slot (if r.prompt = 0 then 2 else 1) r.prompt
      else v) u (tracker u k).reqs) s [0, 1]

/-- The resume unit is in force (R466, R467): sessions restart, FO_TIME shows the stall, and a loss that waited is treated next; a plan load
that waited goes on (R496). -/
def resume (s : State) : State :=
  let s1 := restartMoves (foldState (fun u k => foldState (restart k) u (tracker u k).reqs) s [0, 1])
  let s2 := setReg s1 0 8 0x710 (BitVec.ofNat 32 ((s1.now - s1.fo.faultAt) / ms))
  let s3 := resubmit (showSpareCount (setFoState (updFo s2 (fun x => { x with entry := none, later := [], regions := [] })) 0))
  match s.fo.later with
  | [] => reissuePlan s3
  | n :: r =>
    match lossEntry (runningIndex s3) n with
    | none => endSlice s3 n
    | some f => beginFailover (noteFailover s3 f.node 1) f r (syncEpoch s3 0 + 2)

/-- What the start or a boundary of die 0 brings to a failover: the resume unit is in force, or sessions go on being submitted. -/
def foBoundary (s : State) : State :=
  match s.fo.entry, s.plan with
  | some e, some pl => if foState s = 5 ∧ pl.unit = e.resume ∧ s.planNext.isNone = true then resume s else s
  | _, _ => if foState s = 0 then resubmit s else s

/-- What a plan in force brings to membership: a newly loaded plan starts from all its modules, with every neighbour just heard (R461, R469). -/
def foPlan (s : State) : State :=
  match s.plan with
  | none => s
  | some pl =>
    if pl.unit ≠ 0 then s
    else
      let s1 := updFo s (fun x => { x with lost := [], entry := none, later := [], regions := [], heard := [] })
      showSpareCount (updFo (setFoState s1 0) (fun x => { x with beats := foldState (fun m n => mapSet m n s.now) [] (neighbours s1) }))

/-! ## Zero initialisation (R465) -/

/-- A write of ZERO_INIT: under the rules of R293, refused while frames run. -/
def writeZeroInit (s : State) (st : Nat) (v : Word) : State :=
  if frsRunning s (mmDie st) then mbcRefuse s st 0x500
  else if tbit v 0 then setMbcFld (putMbc s st { mbcOf s st with zeroAt := some s.now, initAt := none }) st 0x044 4 1 1
  else s

/-- ZERO_INIT (R465). -/
def execZeroInit (t : Time) (stack : Stack) (v : Word) (s : State) : Host.Outcome State Fault Refusal :=
  .next (pageWrite (advance s t) (mmDie stack.val) 8 0x500 false (fun u => writeZeroInit u stack.val v))

/-- ZERO_INIT_DONE (R465): after 16.8 ms every line is clean and zero, and the accesses that waited are performed. -/
def execZeroInitDone (t : Time) (stack : Stack) (s : State) : Host.Outcome State Fault Refusal :=
  let s1 := advance s t
  let st := stack.val
  let x := mbcOf s1 st
  match x.zeroAt with
  | none => .next s1
  | some t0 =>
    if s1.now < t0 + 168000000 then .next s1
    else
      let s2 := setMbcFld (setMbcFld (putMbc (fillStack s1 st true) st { x with zeroAt := none, waiting := [] }) st 0x044 4 1 0) st 0x044 0 1 1
      .next (runWaiting s2 st x.waiting)

end Sys2Proof.Machine
end

