-- ==== Sys2Proof/Machine/FrameRows.lean ====
section
/-!
DEFINITION. Sys2Proof/Machine/FrameRows.lean: the commands of the frame sequencers: sync pulses (R149), starts and boundaries (R150 to R152), entries
(R157 to R164), stretch and agreement traffic (R175 to R179), step notices and jump reports (R115, R117, R182 to R184).
-/
namespace Sys2Proof.Machine

/-! ## Sync pulses (R149) -/

/-- SYNC_PULSE (R149). -/
def execSyncPulse (t : Time) (s : State) : Host.Outcome State Fault Refusal := .next (foldState pulseDie (advance s t) frsDies)

/-- SYNC_PULSE_MISSING (R149). -/
def execSyncPulseMissing (t : Time) (s : State) : Host.Outcome State Fault Refusal := .next (foldState pulseMissingDie (advance s t) frsDies)

/-! ## Starts and boundaries (R150 to R152) -/

/-- The armed swaps of a die beside its program (R152 step 2): mesh schedule, protection bank, link slot banks, watch unit, core mapping and
synthesisers; with die 0 the router of die 9, which has no sequencer, and the plan of the module (R28, R143). -/
def dieSwaps (due : Bool) (die : Nat) (s : State) : State :=
  let s1 := swapSched s die
  let s2 := if die = 0 then swapSched s1 9 else s1
  let s3 := swapProt s2 die
  let s4 := foldState swapLink s3 (diePorts die)
  let s5 := swapWatch due s4 die
  let s6 := if die = 0 ∧ due = true then swapPlan s5 else s5
  foldState keepGated (foldState boundarySynth (changeMapping s6 die) (dieCores die)) (dieCores die)

/-- The ended frame's planned cycles at a die's routers and ports (R29, R325). -/
def closeFrame (s : State) (die : Nat) : State :=
  let ticks := ((frsOf s die).ends - (frsOf s die).began) / 64
  let s1 := routerBoundary s die ticks
  let s2 := if die = 0 then routerBoundary s1 9 ticks else s1
  foldState portBoundary s2 (diePorts die)

/-- The slot of a die ends: a running self-test slice is suspended (R446), a TEST_ONLY digest pauses (R381), and after a test slot the cores without a stage are gated again (R126). -/
def endTestSlot (s : State) (die : Nat) : State :=
  let s1 := pauseDigest (suspendSlice s die (slotStop s die)) die (slotStop s die)
  if (frsOf s die).slotTypes / 16 % 2 = 1 then foldState keepGated s1 (dieCores die) else s1

/-- The boundary that ends a frame of a die (R152), or the stop that takes effect there: the step of the last frame is committed, for no replay
follows it (R172). -/
def endFrame (due : Bool) (die : Nat) (s : State) : State :=
  let s1 := endTestSlot (closeFrame s die) die
  if (frsOf s die).stop then stopFrames (if die = 0 then updFrs s1 0 (account (progBank s1 0) 0#256) else s1) die
  else frameBoundary s1 die (dieSwaps due die)

/-- The frame boundary of one die, if it is due: it falls at the end of the frame, whenever its command comes (R150, R151). A halted sequencer plays
no further frame (R442). -/
def dieBoundary (due : Bool) (s : State) (die : Nat) : State :=
  if !frsRunning s die || isHalted s die 1 || decide (s.now < (frsOf s die).ends) then s
  else atTime s (frsOf s die).ends (endFrame due die)

/-- What the boundary or the start of die 0 brings to the module: a new plan, serving, failover and global operations. -/
def moduleBoundary (old : State) (due : Bool) (s : State) : State :=
  let s1 := if due then foPlan (servePlan s) else s
  gopBoundary (foBoundary (servBoundary old s1))

/-- Whether the plan that takes effect next is a fallback unit (R118). -/
def fallbackNext (s : State) : Bool := decide ((s.planNext.map (fun pl => pl.unit)).getD 0 ≠ 0)

/-- FRAME_BOUNDARY (R152): of every die whose frame has ended. A fallback switch at it carries the watch entries as their last verdicts left them
(R118). -/
def execFrameBoundary (t : Time) (s : State) : Host.Outcome State Fault Refusal :=
  let s1 := advance s t
  let due0 := frsRunning s1 0 && !isHalted s1 0 1 && decide ((frsOf s1 0).ends ≤ s1.now) && !(frsOf s1 0).stop
  let due := due0 && planDue s1
  let s2 := foldState (dieBoundary due) (if due && fallbackNext s1 then keepWatches s1 else s1) frsDies
  .next (if due0 then atTime s2 (frsOf s1 0).ends (moduleBoundary s1 due) else s2)

/-- The beginning of the reference tick of a die's sync epoch in which the present moment lies. -/
def tickStart (s : State) (die : Nat) : Time := s.now - (s.now - (frsOf s die).epochBegan) % 64

/-- The mesh clock's edges lie so that frame 0 begins on one (R26, R27, log entry 110); they do not move while frames of another die run. -/
def alignMesh (s : State) : State := if frsDies.any (fun d => frsRunning s d) then s else { s with meshOff := s.now % 5 }

/-- Whether an armed start of a die is due (R150): tick 0 of epoch START_EPOCH; in a rack other than the origin's a later tick that is a multiple
of 5 (R187). -/
def startDue (s : State) (die : Nat) : Bool :=
  reachable s die 1 && startArmed s die && (frsOf s die).synced && decide ((reg s die 1 0x05C).toNat ≤ syncEpoch s die)
    && (decide (epochTick s die = 0)
        || (decide (epochTick s die % 5 = 0) && decide (fld (reg s 90 8 0x040) 8 8 ≠ s.slice.origin / 256)))

/-- The start of one die's frames, if it is due, at the beginning of its tick (R150); a memory die's own refresh ends (R288). -/
def dieStart (due : Bool) (s : State) (die : Nat) : State :=
  if !startDue s die then s
  else
    atTime s (tickStart s die) (fun u =>
      let s1 := startFrames (alignMesh u) die (dieSwaps due die)
      if dieType die = .memory then setRegFld s1 die 8 0x044 1 1 0 else s1)

/-- FRAME_SEQUENCER_START (R150): of every die whose start is due. The slice of a plan in force runs with die 0. -/
def execFrameSequencerStart (t : Time) (s : State) : Host.Outcome State Fault Refusal :=
  let s1 := advance s t
  let due0 := startDue s1 0
  let due := due0 && planDue s1
  let s2 := foldState (dieStart due) s1 frsDies
  .next
    (if due0 then
      atTime { s2 with slice := { s2.slice with running := s2.slice.running || s2.plan.isSome } } (tickStart s1 0) (moduleBoundary s1 due)
    else s2)

/-! ## Entries (R157 to R164) -/

/-- A SLOT entry opens its slot; in a control slot of die 0 the firmware selects the module's phase (R153, R154, R267). -/
def openSlot (s : State) (die : Nat) (e : BitVec 128) : State :=
  let s1 := slotEntry s die e
  if die = 0 ∧ (frsOf s1 0).slotTypes / 32 % 2 = 1 ∧ fwRuns s1 = true then selectPhase s1 else s1

/-- SLOT (R157): a self-test slice of the slot before it is suspended (R446). -/
def execSlot (t : Time) (die : Die) (entryOk : Bool) (s : State) : Host.Outcome State Fault Refusal :=
  .next (startEntry (advance s t) die.val 1 entryOk (fun u e => openSlot (endTestSlot u die.val) die.val e))

/-- PUSH (R160). -/
def execPush (t : Time) (die : Die) (entryOk : Bool) (s : State) : Host.Outcome State Fault Refusal :=
  .next (startEntry (advance s t) die.val 2 entryOk (fun u e => pushEntry u die.val e))

/-- PUSH_DESCRIPTOR_ENTER (R160). -/
def execPushDescriptorEnter (t : Time) (die : ComputeDie) (k : Fin 18) (s : State) : Host.Outcome State Fault Refusal :=
  .next (enterHeld (advance s t) (cpDie die.val) (die.val * 18 + k.val))

/-- WAKE (R163). -/
def execWake (t : Time) (die : Die) (entryOk : Bool) (s : State) : Host.Outcome State Fault Refusal :=
  .next (startEntry (advance s t) die.val 3 entryOk (fun u e => wakeEntry u die.val e))

/-- GATE (R163). -/
def execGate (t : Time) (die : Die) (entryOk : Bool) (s : State) : Host.Outcome State Fault Refusal :=
  .next (startEntry (advance s t) die.val 4 entryOk (fun u e => gateEntry u die.val e))

/-- REFRESH (R164, R285). -/
def execRefresh (t : Time) (die : Die) (entryOk : Bool) (s : State) : Host.Outcome State Fault Refusal :=
  .next (startEntry (advance s t) die.val 5 entryOk (fun u e => refreshEntry u die.val e))

/-- TEST (R164, R445). -/
def execTest (t : Time) (die : Die) (entryOk : Bool) (s : State) : Host.Outcome State Fault Refusal :=
  .next (startEntry (advance s t) die.val 6 entryOk (fun u e => testEntry u die.val e))

/-- JUMP (R155, R157). -/
def execJump (t : Time) (die : Die) (entryOk : Bool) (s : State) : Host.Outcome State Fault Refusal :=
  .next (startEntry (advance s t) die.val 7 entryOk (fun u e => jumpEntry u die.val e))

/-- REPORT (R175). -/
def execReport (t : Time) (die : Die) (entryOk : Bool) (s : State) : Host.Outcome State Fault Refusal :=
  .next (startEntry (advance s t) die.val 8 entryOk (fun u _ => reportEntry u die.val))

/-- REPORT_RECEIVED (R175). -/
def execReportReceived (t : Time) (src : Die) (level : Fin 32) (s : State) : Host.Outcome State Fault Refusal :=
  let s1 := advance s t
  .next (if frsRunning s1 0 then reportArrives s1 src.val level.val else s1)

/-- EXCHANGE (R179): die 0 only (R157, R177). -/
def execExchange (t : Time) (entryOk : Bool) (boundary : Int) (s : State) : Host.Outcome State Fault Refusal :=
  .next (startEntry (advance s t) 0 9 entryOk (fun u _ => exchangeEntry u boundary))

/-- AGREEMENT_RESULT (R179): `xs` are the exchanges of the slice's modules for the frame. -/
def execAgreementResult (t : Time) (die : Die) (frame : Nat) (xs : List Xchg) (s : State) : Host.Outcome State Fault Refusal :=
  let s1 := advance s t
  .next (if frsRunning s1 die.val then agreementArrives s1 die.val (agreementOf frame (fld (reg s1 90 8 0x040) 8 8) xs) else s1)

/-- SLOT_CHANGE_SUBMIT (R168): the write of SLOT_CHG1. -/
def execSlotChangeSubmit (t : Time) (v : Word) (s : State) : Host.Outcome State Fault Refusal :=
  .next (pageWrite (advance s t) 0 1 0x0C4 false (fun u => submitChange u v))

/-! ## RUN and program swaps (R189) -/

/-- Units of 0.1 ms. -/
def tenthMs : Nat := 1000000

/-- The load hint of a write of FRAME_CTRL of die 0 (R417): the start of frames, their stop, or the withdrawal of a start. -/
def runHint (old s : State) : State :=
  if startArmed s 0 && !startArmed old 0 then
    loadHint s (fld (reg s 90 9 0x0A4) 0 16) 1 (((reg s 0 1 0x05C).toNat - syncEpoch s 0) * (65536 * 64) / tenthMs)
  else if (frsOf s 0).stop && !(frsOf old 0).stop then loadHint s 900 2 (((frsOf s 0).ends - s.now) / tenthMs)
  else if !startArmed s 0 && startArmed old 0 then loadHint s s.power.pPrev 5 0
  else s

/-- A write of FRAME_CTRL through the register page. -/
def frameCtrlAccess (s : State) (die : Nat) (v : Word) : State :=
  let s1 := pageWrite s die 1 0x040 true (fun u => writeFrameCtrl u die v)
  if die = 0 then runHint s s1 else s1

/-- FRAME_RUN_ARM (R189). -/
def execFrameRunArm (t : Time) (die : Die) (v : Word) (s : State) : Host.Outcome State Fault Refusal :=
  .next (frameCtrlAccess (advance s t) die.val v)

/-- FRAME_RUN_DISARM (R189). -/
def execFrameRunDisarm (t : Time) (die : Die) (v : Word) (s : State) : Host.Outcome State Fault Refusal :=
  .next (frameCtrlAccess (advance s t) die.val v)

/-- FRAME_STOP (R189). -/
def execFrameStop (t : Time) (die : Die) (v : Word) (s : State) : Host.Outcome State Fault Refusal :=
  .next (frameCtrlAccess (advance s t) die.val v)

/-- PROG_SWAP_ARM (R34, R189). -/
def execProgSwapArm (t : Time) (die : Die) (v : Word) (s : State) : Host.Outcome State Fault Refusal :=
  .next (pageWrite (advance s t) die.val 1 0x060 true (fun u => writeProgCtrl u die.val v))

/-! ## Step notices and jump reports (R115, R117, R182 to R184) -/

/-- Whether a watch entry of this module judges a layer of a job (R110). -/
def watchedHere (s : State) (job layer : Nat) : Bool :=
  (upFrom 0 64).any (fun o => (upFrom 0 16).any (fun i =>
    let cfg := nwReg s (cpDie o) i 0x840
    tbit cfg 31 && decide (fld cfg 0 10 = layer) && decide (fld cfg 18 8 = job)))

/-- What die 0 sends on (R115, R182): to the other dies of the module, and, of what a watch unit of this module reported, to die 0 of the other
modules of the slice. -/
def forward (s : State) (job layer : Nat) (note : Option StepNote) (jump : Option JumpRep) (dies : List Nat) : State :=
  let nodes :=
    if watchedHere s job layer then (upFrom 0 65536).filter (fun n => inSlice s n && nodePresent s n && decide (n ≠ ownNode s)) else []
  { s with serv := { s.serv with forwarded := some { note := note, jump := jump, dies := dies, nodes := nodes } } }

/-- STEP_NOTICE (R182 to R184): a notice reaches a die's frame sequencer; die 0 forwards it. -/
def execStepNotice (t : Time) (die : Die) (n : StepNote) (s : State) : Host.Outcome State Fault Refusal :=
  let s1 := noticeArrives (advance s t) die.val n
  .next
    (if die.val = 0 ∧ reachable s1 0 8 = true then
      noteLayer (forward s1 n.job.val n.layer.val (some n) none (frsDies.filter (fun d => decide (d ≠ 0)))) n.job.val n.layer.val n.wide n.normal
    else s1)

/-- The trackers of the module take a jump report of a job that they track, once (R115). -/
def trackJump (r : JumpRep) (s : State) (k : Nat) : State :=
  if reachable s (trDie k) 9 && tbit (rq s k (0x300 + 4 * (r.job.val / 32))) (r.job.val % 32) && !(tracker s k).jumps.contains r then
    updTracker s k (fun x => { x with jumps := x.jumps ++ [r] })
  else s

/-- JUMP_REPORT (R115, R117): a report reaches a Trunk die. Die 0 forwards it to the other modules and hands it to the trackers of dies 0 and 99. A layer
whose jump asks for a recomputation is in RECOMPUTE, and the step notices carry every other change of a layer's state. -/
def execJumpReport (t : Time) (die : Die) (r : JumpRep) (s : State) : Host.Outcome State Fault Refusal :=
  let s1 := advance s t
  if dieType die.val ≠ .trunk ∨ reachable s1 die.val 9 = false then .next s1
  else if die.val ≠ 0 then .next (trackJump r s1 (dieOrd die.val))
  else
    let s2 := forward (foldState (trackJump r) s1 [0, 1]) r.job.val r.layer.val none (some r) []
    .next (if r.recompute then noteLayer s2 r.job.val r.layer.val true false else s2)

end Sys2Proof.Machine
end

