-- ==== Sys2Proof/Machine/Host.lean ====
section
/-!
DEFINITION. Sys2Proof/Machine/Host.lean: firmware load (R491 to R493), page interrupts (R499, R500), the log mirror (R506), the PLDM commands of
the tray BMC (R433, R503, R504), and the resets of the PCIe function (R497, R518).
-/
namespace Sys2Proof.Machine

/-! ## CRC-32 (R433, R504) -/

/-- `n` bits of the CRC-32 of IEEE 802.3, polynomial 0x04C1_1DB7, least significant bit first (log entry 56). -/
def crcBits (n : Nat) (c : Word) : Word :=
  match n with
  | 0 => c
  | k + 1 => crcBits k (if tbit c 0 then (c >>> 1) ^^^ 0xEDB88320#32 else c >>> 1)

/-- The CRC-32 register after bytes. -/
def crcOver (c : Word) (l : List Byte) : Word :=
  match l with
  | [] => c
  | b :: r => crcOver (crcBits 8 (c ^^^ b.setWidth 32)) r

/-- The CRC-32 of bytes. -/
def crc32 (l : List Byte) : Word := crcOver 0xFFFFFFFF#32 l ^^^ 0xFFFFFFFF#32

/-- Whether the last four bytes of a record are the CRC-32 of those before them. -/
def crcOk (l : List Byte) : Bool :=
  let n := l.length - 4
  decide (l.length ≥ 4) && decide (ofLE (l.drop n) = (crc32 (l.take n)).toNat)

/-- Bytes with their CRC-32. -/
def withCrc (l : List Byte) : List Byte := l ++ toLE 4 (crc32 l).toNat

/-! ## Firmware load (R491 to R493, R510) -/

/-- A field of a TCC register of die 0 replaced. -/
def setTcc (s : State) (off lo n v : Nat) : State := setRegFld s 0 8 off lo n v

/-- A TCC write refused (R513). -/
def tccRefuse (s : State) (die off : Nat) : State := recordError s die 8 0x10F0 off

/-- FW_STATUS.STATE. -/
def fwState (s : State) : Nat := fld (reg s 0 8 0x050) 0 2

/-- Whether firmware writes are refused for the moment (R492): step 5 is not running, or a load is in progress. -/
def loadShut (s : State) : Bool := !starting s || decide (startStep s ≠ 5) || decide (fwState s = 1)

/-- An image length that R491 and R492 allow. -/
def lenOk (n : Nat) : Bool := decide (0 < n) && decide (n ≤ 12 * 2 ^ 20) && decide (n % 4096 = 0)

/-- The 128-bit word that four registers show. -/
def word128 (s : State) (off : Nat) : BitVec 128 :=
  BitVec.ofNat 128 ((reg s 0 8 off).toNat + (reg s 0 8 (off + 4)).toNat * 2 ^ 32 + (reg s 0 8 (off + 8)).toNat * 2 ^ 64
    + (reg s 0 8 (off + 12)).toNat * 2 ^ 96)

/-- Four registers show a 128-bit word. -/
def setWord128 (s : State) (off : Nat) (w : BitVec 128) : State :=
  foldState (fun u i => setReg u 0 8 (off + 4 * i) (BitVec.ofNat 32 (fld w (32 * i) 32))) s (upFrom 0 4)

/-- The load ends without running firmware, and with it the start (R428, R492). -/
def refuseImage (s : State) (code svn : Nat) : State :=
  failStart (setReg s 0 8 0x050 (BitVec.ofNat 32 (3 + svn % 256 * 256 + code % 65536 * 65536)))

/-- The module word (R493, R502, R522): without PARK and SEALED_POOL where die 98 is on PCIe or has found no link. -/
def moduleWord (s : State) (w : BitVec 128) : BitVec 128 :=
  let m := w &&& word128 s 0x060
  if cxlUp s then m else setFld m 4 2 0

/-- The entries of a speed map, from bytes. -/
def mapWords (l : List Byte) (n : Nat) : List Word :=
  match n with
  | 0 => []
  | k + 1 => BitVec.ofNat 32 (ofLE (l.take 4)) :: mapWords (l.drop 4) k

/-- Whether FUSED of every entry is that of its core (R433), from core `c` on. -/
def fusedOk (s : State) (c : Nat) (l : List Word) : Bool :=
  match l with
  | [] => true
  | w :: r => decide (fld w 0 7 = fld (smEntry s c) 0 7) && fusedOk s (c + 1) r

/-- A map received and discarded (R433, R441). -/
def badMap (s : State) : State := updStart (tprError s 0x9053 1) (fun x => { x with mapBad := true })

/-- The driver's speed map as the firmware reads it at step 5 of a cold start (R432, R433), where SMAP_CTRL.VALID is set. -/
def readMap (s : State) (m : Option (List Byte)) : State :=
  match m with
  | none => s
  | some l =>
    if startKind s ≠ 1 ∨ !tbit (reg s 0 8 0x05C) 0 then s
    else if decide (l.length = 4612) && crcOk l && fusedOk s 0 (mapWords l 1152) then updStart s (fun x => { x with copyDrv := some (mapWords l 1152) })
    else badMap s

/-- The BMC's speed map as the firmware checks it (R433). -/
def checkCopy (s : State) : State :=
  match s.start.copyBmc with
  | none => s
  | some l => if startKind s ≠ 1 ∨ fusedOk s 0 l then s else badMap (updStart s (fun x => { x with copyBmc := none }))

/-- The firmware starts on both Trunk dies (R456, R491, R505, R510). -/
def startFirmware (s : State) (i : FwImage) (smap : Option (List Byte)) : State :=
  let s1 := setReg s 0 8 0x050 (BitVec.ofNat 32 (2 + i.svn % 256 * 256))
  let s2 := updHost s1 (fun h => { h with log := [], logN := [0, 0], mirrorN := [0, 0], failSlot := [] })
  let s3 := { s2 with fo := { s2.fo with trunkBeat := mapSet (mapSet s2.fo.trunkBeat 0 s.now) 1 s.now } }
  tracePoint (checkCopy (readMap s3 smap)) 0 0 0 0xFF

/-- The image that LOAD names is read, verified and started, and the module word formed (R479, R492, R493). -/
def loadFirmware (s : State) (readOk : Bool) (i : FwImage) (smap : Option (List Byte)) : State :=
  if !readOk then refuseImage (recordErrorFree s 0 8 0x9071) 0x9071 0
  else if !svcState s (.verifyFirmware i) then refuseImage (hwdError s 0x8054 0x10) 0x8054 i.svn
  else
    let r := verifyImage s i
    if r.2 ≠ 0 then refuseImage r.1 r.2 i.svn
    else
      let m := moduleWord r.1 i.word
      let s1 := setWord128 (setWord128 r.1 0x070 i.word) 0x080 m
      if tbit m 0 then startFirmware s1 i smap else refuseImage (recordErrorFree s1 0 8 0x9070) 0x9070 i.svn

/-- Whether a write of FW_CMD is refused (R492). -/
def loadRefused (s : State) : Bool :=
  loadShut s || !lenOk (fld (reg s 0 8 0x048) 0 24) || decide (fld (reg s 0 8 0x040) 0 12 ≠ 0)

/-- FIRMWARE_LOAD (R491 to R493). -/
def execFirmwareLoad (t : Time) (v : Word) (readOk : Bool) (img : FwImage) (smap : Option (List Byte)) (s : State) :
    Host.Outcome State Fault Refusal :=
  .next (pageWrite (advance s t) 0 8 0x04C false (fun u =>
    if loadRefused u then tccRefuse u 0 0x04C else if tbit v 0 then loadFirmware u readOk img smap else u))

/-! ## Page interrupts (R18, R499, R500) -/

/-- The interrupt output of a page: status bits that are enabled (R18). -/
def irqOut (s : State) (die page : Nat) : Word := reg s die page 0x010 &&& reg s die page 0x014

/-- The IRQ_MAP entry of a page, as the routing of this cycle sees it (R500). -/
def mapEntry (s : State) (die page : Nat) : Option Nat :=
  (upFrom 0 26).find? (fun i =>
    let w := sampledReg s (barOff 1 8 (0x100 + 4 * i))
    tbit w 31 && decide (fld w 0 7 = die) && decide (fld w 8 8 = page))

/-- The firmware services a page's interrupt: an ERROR entry with the page's ERR_CODE, and IRQ_STATUS.ERR cleared (R499). -/
def servicePage (s : State) (die page : Nat) : State :=
  if fwRuns s && tbit (irqOut s die page) 0 then
    writeIrqStatus (logEvent s 0 3 (fld (reg s die page 0x020) 0 16) 0 die 0xFF) die page 1#32
  else s

/-- A page's interrupt output asserts (R499, R500). -/
def pageInterrupt (s : State) (die page : Nat) : State :=
  let w := irqOut s die page
  let s1 := if die = 90 ∧ page = 8 ∧ fld w 16 4 ≠ 0 then raiseVec s 37 else s
  let s2 := if page = 4 ∧ tbit w 16 then raiseVec s1 36 else s1
  match mapEntry s2 die page with
  | some i => raiseVec s2 (38 + i)
  | none => servicePage s2 die page

/-- PAGE_INTERRUPT (R499). -/
def execPageInterrupt (t : Time) (die : Die) (page : Fin 256) (s : State) : Host.Outcome State Fault Refusal :=
  let s1 := advance s t
  .next (if reachable s1 die.val page.val && decide (irqOut s1 die.val page.val ≠ 0#32) then pageInterrupt s1 die.val page.val else s1)

/-! ## The log mirror (R506, R510) -/

/-- LOG_HOST of a Trunk die; 0 while the mirror is disabled. -/
def logHost (s : State) (k : Nat) : Nat := (reg s (trDie k) 8 0x0A4).toNat + (reg s (trDie k) 8 0x0A8).toNat * 2 ^ 32

/-- Unread entries of a mirror. -/
def logUnread (s : State) (k : Nat) : Nat :=
  (fld (reg s (trDie k) 8 0x0B8) 0 14 + 16384 - fld (reg s (trDie k) 8 0x0BC) 0 14) % 16384

/-- One entry copied: the tail advances, and where the mirror is full an unread entry is overwritten. -/
def copyEntry (k : Nat) (s : State) (n : Nat) : State :=
  let tail := fld (reg s (trDie k) 8 0x0B8) 0 14
  let s1 := if logUnread s k = 16383 then count s (trDie k) 8 0x99 1 else s
  let s2 := putHost s1 (logHost s k + 64 * tail) (mapGet s.host.log (k * 16384 + n % 16384) [])
  setReg (updHost s2 (fun h => { h with mirrorN := setNth h.mirrorN k (n + 1) })) (trDie k) 8 0x0B8 (BitVec.ofNat 32 ((tail + 1) % 16384))

/-- A host write of the mirror that fails is recorded once per control slot (R506). -/
def mirrorFails (s : State) (k : Nat) : State :=
  let e := fun u => recordError u (trDie k) 8 0x9072 (fld (reg u (trDie k) 8 0x0B8) 0 14)
  match ctlSlot s (trDie k) with
  | none => e s
  | some n => if mapFind s.host.failSlot k = some n then s else e (updHost s (fun h => { h with failSlot := mapSet h.failSlot k n }))

/-- The copy of a control slot: the entries not yet written that the ring still holds, as many as succeed. -/
def mirrorCopy (s : State) (k : Nat) (failAt : Option Nat) : State :=
  let hi := nth s.host.logN k 0
  let lo := max (nth s.host.mirrorN k 0) (hi - 16384)
  let n := hi - lo
  let m := match failAt with
    | none => n
    | some f => min f n
  let s1 := foldState (copyEntry k) s (upFrom lo m)
  let s2 := if m < n then mirrorFails s1 k else s1
  let mark := fld (reg s (trDie k) 8 0x0AC) 0 14
  if logUnread s k < mark ∧ logUnread s2 k ≥ mark then raiseVec s2 35 else s2

/-- LOG_MIRROR_COPY (R506). -/
def execLogMirrorCopy (t : Time) (k : Fin 2) (failAt : Option Nat) (s : State) : Host.Outcome State Fault Refusal :=
  let s1 := advance s t
  if fwRuns s1 && inCtl s1 (trDie k.val) && decide (logHost s1 k.val ≠ 0) && !(tracker s1 k.val).lost then .next (mirrorCopy s1 k.val failAt) else .next s1

/-! ## The tray BMC (R36, R433, R503, R504) -/

/-- The response of a PLDM command: its completion code, 0 SUCCESS or 1 ERROR, and its data (PRESUMED from DSP0240, log entry 57). -/
def pldm (s : State) (ok : Bool) (data : List Byte) : State := { s with lastBytes := (if ok then 0#8 else 1#8) :: data }

/-- Whether a cabling record passes the checks of the Taproot die (R504). -/
def recordOk (l : List Byte) : Bool :=
  let ny := (nth l 3 0#8).toNat
  let nz := ofLE ((l.drop 4).take 2)
  decide (nth l 0 0#8 = 1#8) && decide (1 ≤ ny) && decide (ny ≤ 32) && decide (1 ≤ nz) && decide (nz ≤ 256)
    && decide (l.length = 36 + ceilDiv (nz * ny) 2) && crcOk l

/-- The slot masks of a record: two per byte, low nibble first. -/
def nibbles (l : List Byte) : List Nat :=
  match l with
  | [] => []
  | b :: r => b.toNat % 16 :: b.toNat / 16 :: nibbles r

/-- A cabling record from its bytes (R504). -/
def parseRecord (l : List Byte) : Cabling :=
  let ny := (nth l 3 0#8).toNat
  let nz := ofLE ((l.drop 4).take 2)
  { rack := (nth l 1 0#8).toNat, tray := (nth l 2 0#8).toNat, ny := ny, nz := nz, profile := (nth l 6 0#8).toNat,
    codes := ((l.drop 7).take 24).map (fun b => b.toNat), pop := (nibbles (l.drop 32)).take (nz * ny) }

/-- Slot masks packed two per byte. -/
def packNibbles (l : List Nat) : List Byte :=
  match l with
  | [] => []
  | [a] => [BitVec.ofNat 8 (a % 16)]
  | a :: b :: r => BitVec.ofNat 8 (a % 16 + b % 16 * 16) :: packNibbles r

/-- A cabling record as bytes (R504). -/
def recordBytes (c : Cabling) : List Byte :=
  withCrc (toLE 1 1 ++ toLE 1 c.rack ++ toLE 1 c.tray ++ toLE 1 c.ny ++ toLE 2 c.nz ++ toLE 1 c.profile ++ c.codes.map (BitVec.ofNat 8)
    ++ toLE 1 0 ++ packNibbles c.pop)

/-- Whether a cabling record takes effect when it arrives (R36, R439, R504): in STANDBY before a start, and while step 1 of a start waits for one. -/
def recordNow (s : State) : Bool := decide (powerStateNow s = 1) && (!starting s || (decide (startStep s = 1) && s.cab.isNone))

/-- A cabling record that passes its checks. -/
def acceptRecord (s : State) (c : Cabling) : State :=
  let s1 := setRegFld s 90 8 0x044 8 1 1
  if recordNow s1 then takeNode s1 c else { s1 with cabNext := some c }

/-- SET_CABLING_RECORD (R36, R504). -/
def execSetCablingRecord (t : Time) (bytes : List Byte) (s : State) : Host.Outcome State Fault Refusal :=
  let s1 := advance s t
  if !railOn s1 .aux then .next s1
  else if recordOk bytes then .next (pldm (acceptRecord s1 (parseRecord bytes)) true [])
  else .next (pldm s1 false [])

/-- GET_CABLING_RECORD (R503): the record in force. -/
def execGetCablingRecord (t : Time) (s : State) : Host.Outcome State Fault Refusal :=
  let s1 := advance s t
  if !railOn s1 .aux then .next s1
  else
    match s1.cab with
    | some c => .next (pldm s1 true (recordBytes c))
    | none => .next (pldm s1 false [])

/-- The speed map as bytes, in the form of R433. -/
def speedBytes (s : State) : List Byte := withCrc ((upFrom 0 1152).flatMap (fun c => toLE 4 (smEntry s c).toNat))

/-- GET_SPEED_MAP (R503). -/
def execGetSpeedMap (t : Time) (s : State) : Host.Outcome State Fault Refusal :=
  let s1 := advance s t
  .next (if railOn s1 .aux then pldm s1 true (speedBytes s1) else s1)

/-- GET_FAULT_RECORD (R431, R503). -/
def execGetFaultRecord (t : Time) (s : State) : Host.Outcome State Fault Refusal :=
  let s1 := advance s t
  .next (if railOn s1 .aux then
    pldm s1 true (Config.faultRecord (tpr s1 0x104).toNat s1.start.lastCause (reg s1 90 0x0A 0x050).toNat s1.start.faults)
  else s1)

/-- SET_SPEED_MAP (R433, R503): accepted in STANDBY only, after its CRC-32. -/
def execSetSpeedMap (t : Time) (bytes : List Byte) (s : State) : Host.Outcome State Fault Refusal :=
  let s1 := advance s t
  if !railOn s1 .aux then .next s1
  else if decide (powerStateNow s1 = 1) && !starting s1 && decide (bytes.length = 4612) && crcOk bytes then
    .next (pldm (updStart s1 (fun x => { x with copyBmc := some (mapWords bytes 1152) })) true [])
  else .next (pldm s1 false [])

/-! ## Resets of the PCIe function (R497, R518) -/

/-- A Function Level Reset (R497): the MSI-X state; no host read is outstanding between commands (log entry 58). -/
def resetFunction (s : State) : State := updHost s (fun h => { h with msix := [], pending := [] })

/-- FUNCTION_LEVEL_RESET (R497). -/
def execFunctionLevelReset (t : Time) (s : State) : Host.Outcome State Fault Refusal :=
  let s1 := advance s t
  .next (if tbit (reg s1 1 8 0x044) 9 then resetFunction s1 else s1)

/-- PERST_ASSERT (R518): as a Function Level Reset, and the link of die 1 is held down. -/
def execPerstAssert (t : Time) (s : State) : Host.Outcome State Fault Refusal :=
  .next (updHost (linkDown (resetFunction (advance s t)) 1) (fun h => { h with perst := true }))

/-- PERST_DEASSERT (R518): the link of die 1 may train. -/
def execPerstDeassert (t : Time) (s : State) : Host.Outcome State Fault Refusal :=
  .next (updHost (advance s t) (fun h => { h with perst := false }))

end Sys2Proof.Machine
end

