-- ==== Sys2Proof/Machine/RegRead.lean ====
section
/-!
DEFINITION. Sys2Proof/Machine/RegRead.lean: what a read of a register returns (R10 to R16, R533, R536) and what it changes: the latched high halves
of long counters, and the registers that a read pops.
-/
namespace Sys2Proof.Machine

/-- What a read returns that reaches nothing (R11, R21). -/
def allOnes : Word := 0xFFFFFFFF#32

/-- A word of 32 bits. -/
def w32 (n : Nat) : Word := BitVec.ofNat 32 n

/-- The physical core of a per-core page. -/
def pageCore (die page : Nat) : Nat := dieOrd die * 18 + (page - 0x10) / 8

/-! ## The header (R12 to R16) -/

/-- Whether requests wait in a die's home queue or at its port (R346). -/
def homeBusy (s : State) (die : Nat) : Bool := !((homeQ s die).q.isEmpty && (homeQ s die).held.isEmpty)

/-- Whether a block has work in progress: PAGE_STATUS.BUSY (R13, R14, R538). -/
def pageBusy (s : State) (die page : Nat) : Bool :=
  let c := pageCore die page
  let x := core s c
  inTransition s die page || (mapFind s.softWait (pageKey die page)).isSome
    || (match pageBlock die page with
        | some .core => coreWorks x
        | some .mxe => !x.q0.exec.isEmpty
        | some .vxe => !x.q1.exec.isEmpty
        | some .mve => !(x.q2.exec.isEmpty && x.reqs.isEmpty)
        | some .spm => !x.fills.isEmpty
        | some .frs => frsRunning s die || !(frsOf s die).held.isEmpty
        | some .mbc =>
          let m := mbcOf s (dieOrd die)
          initialising m || m.dgAt.isSome || m.ppr.isSome || !m.waiting.isEmpty || homeBusy s die
        | some .dmr =>
          let r := router s die
          r.inputs.any (fun l => !l.isEmpty) || r.flits.any (fun l => !l.isEmpty) || !r.hops.isEmpty || r.inj.any (fun q => !(q.flits.isEmpty && q.waiting.isEmpty))
        | some .lnk =>
          let x := portOf s (3 * dieOrd die + (page - 9))
          !(x.rx.isEmpty && x.dynHeld.isEmpty && x.swapped.isEmpty && x.delayed.isEmpty)
            || !(x.tx.planned.isEmpty && x.tx.control.isEmpty && x.tx.express.isEmpty && x.tx.bulk.isEmpty && x.tx.replays.isEmpty && x.tx.resends.isEmpty)
        | some .trc => decide (trcState s die = 1) || decide (trcState s die = 3) || decide (trcState s die = 5)
        | some .bst => (bstOf (settleSlice s die) die).running.isSome
        | some .hlk =>
          if die = 98 then s.mover.cur.isSome || !(s.mover.queue.isEmpty && s.mover.run.isEmpty) || homeBusy s 98 else !s.loader.queue.isEmpty
        | some .tcc => die = 0 && !(s.gop.flight.isEmpty && s.gop.queue.isEmpty)
        | some .req => !(tracker s (dieOrd die)).reqs.isEmpty
        | some .hwd => s.sec.service.isSome
        | some .tpr => starting s
        | _ => false)

/-- Whether a page became reachable in the present cycle of its clock (R14). -/
def justReachable (s : State) (die page : Nat) : Bool :=
  decide (pageCycle { s with now := reachableSince s die page } die page = pageCycle s die page)

/-- PAGE_STATUS as it reads (R13, R14): its reset value in the cycle in which the page becomes reachable. A block whose soft reset still waits
accepts no work (R538). -/
def pageStatus (s : State) (die page : Nat) : Word :=
  let v := reg s die page 0x00C
  let ready := tbit (reg s die page 0x008) 0 && decide (powerState s die page = 0) && !tbit v 2 && (mapFind s.softWait (pageKey die page)).isNone
  if justReachable s die page then v else v ||| w32 (b2n ready + 2 * b2n (pageBusy s die page))

/-- A read of CNTn_LO latches the high half (R16). -/
def readCntLo (s0 : State) (die page n : Nat) : Word × State :=
  let s := settleCnt s0 die page
  let v := counter s die page n
  (w32 (fld v 0 32), { s with cntLatch := mapPut 0#32 s.cntLatch (pageKey die page * 2 + n) (w32 (fld v 32 32)) })

/-- A read of a header register. -/
def readHeader (s : State) (die page off : Nat) : Word × State :=
  match off with
  | 0x00C => (pageStatus s die page, s)
  | 0x018 => (0#32, s)
  | 0x030 => readCntLo s die page 0
  | 0x034 => (mapGet s.cntLatch (pageKey die page * 2) 0#32, s)
  | 0x038 => readCntLo s die page 1
  | 0x03C => (mapGet s.cntLatch (pageKey die page * 2 + 1) 0#32, s)
  | _ => (reg s die page off, s)

/-! ## Per-core pages (R86 to R88) -/

/-- FRAME_CYCLE as it reads (R60, R86). -/
def frameCycleReg (s : State) (c : Nat) : Word :=
  w32 (frameCycle s c % 2 ^ 20 + b2n (tbit (reg s (coreDie c) 1 0x048) 0) * 2 ^ 20 + b2n (frsRunning s (coreDie c)) * 2 ^ 21)

/-- A read of a CORE page. -/
def readCorePage (s : State) (c off : Nat) : Word :=
  let x := core s c
  if off = 0x048 then frameCycleReg s c
  else if off = 0x04C then sbStatus x (coreCycle s c)
  else if off = 0x050 ∨ 0x100 ≤ off then 0#32
  else if 0x060 ≤ off ∧ off < 0x070 then queueStatus x ((off - 0x060) / 4)
  else if 0x070 ≤ off ∧ off < 0x080 then queueCounts x ((off - 0x070) / 4)
  else reg s (coreDie c) (corePage c 0) off

/-- A read of an MVE page. -/
def readMvePage (s : State) (c off : Nat) : Word :=
  let x := core s c
  if off = 0x040 then mveOutstanding x
  else if off = 0x044 then w32 (x.q2.exec.length % 32)
  else if off = 0x048 then 0#32
  else reg s (coreDie c) (corePage c 3) off

/-- A read of an SPM page. -/
def readSpmPage (s : State) (c off : Nat) : Word :=
  if 0x100 ≤ off ∧ off < 0x200 ∧ off % 16 = 12 then ctxStatus s c ((off - 0x100) / 16) else reg s (coreDie c) (corePage c 4) off

/-! ## Pages of every die -/

/-- The low 32 bits of an accounting count of the job that ACCT_SEL names, with the high half latched (R172). -/
def readAcct (s : State) (k : Nat) : Word × State :=
  let fr := frsOf s 0
  let job := fld (reg s 0 1 0x0D0) 0 8
  let n := mapGet (if k = 0 then fr.acctSteps else fr.acctSlots) job 0
  (w32 (n % 2 ^ 32), putFrs s 0 { fr with acctLatch := mapPut 0#32 fr.acctLatch k (w32 (n / 2 ^ 32 % 2 ^ 32)) })

/-- A register of die 0's FRS page alone (R168, R172, R188). -/
def readFrs0 (s : State) (off : Nat) : Word × State :=
  let fr := frsOf s 0
  match off with
  | 0x0C4 => (0#32, s)
  | 0x0C8 => (w32 (min 127 fr.chgQueue.length) ||| (reg s 0 1 0x0C8 &&& 0x100#32), s)
  | 0x0D4 => readAcct s 0
  | 0x0D8 => (mapGet fr.acctLatch 0 0#32, s)
  | 0x0DC => readAcct s 1
  | 0x0E0 => (mapGet fr.acctLatch 1 0#32, s)
  | 0x0E4 => (w32 (mapGet fr.acctReplays (fld (reg s 0 1 0x0D0) 0 8) 0 % 2 ^ 32), s)
  | _ => if 0x100 ≤ off ∧ off < 0x500 then (slotStateWord s ((off - 0x100) / 4), s) else (reg s 0 1 off, s)

/-- A read of an FRS page (R120, R188). -/
def readFrsPage (s : State) (die off : Nat) : Word × State :=
  let fr := frsOf s die
  match off with
  | 0x044 => (frameStatus s die, s)
  | 0x04C => (w32 (frameTick s die % 2 ^ 24), s)
  | 0x050 => (w32 (if frsRunning s die then (fr.ends - fr.began) / 64 % 2 ^ 24 else 0), s)
  | 0x054 => (w32 (syncEpoch s die), s)
  | 0x058 => (w32 (epochTick s die + min 255 fr.missing * 2 ^ 16), s)
  | 0x06C => (stretchReq s die, s)
  | 0x074 => (stretchState fr, s)
  | 0x810 => (if dieType die = .compute then nwWide s die else 0#32, s)
  | _ =>
    if 0x080 ≤ off ∧ off < 0x0A0 then (w32 (fld fr.replay (32 * ((off - 0x080) / 4)) 32), s)
    else if die = 0 ∧ 0x0C0 ≤ off ∧ off < 0x500 then readFrs0 s off
    else (reg s die 1 off, s)

/-- A read of a CLK page (R393, R422). -/
def readClkPage (s : State) (die off : Nat) : Word × State :=
  let c := dieOrd die * 18 + off % 0x80 / 4
  if off = 0x044 then (unitBits s die .run, s)
  else if off = 0x048 then (unitBits s die .synOff, s)
  else if off = 0x060 ∧ die = 90 then
    (w32 (s.power.slowMs % 2 ^ 32), setReg s 90 2 0x064 (w32 (s.power.slowMs / 2 ^ 32 % 2 ^ 32)))
  else if dieType die = .compute ∧ 0x100 ≤ off ∧ off < 0x148 then (smEntry s c, s)
  else if dieType die = .compute ∧ 0x200 ≤ off ∧ off < 0x248 then (fstat s c, s)
  else (reg s die 2 off, s)

/-- A read of a BST page (R470): FAIL_HEAD pops one report and latches its address and bit. -/
def readBstPage (s : State) (die off : Nat) : Word × State :=
  if off = 0x060 then
    let r := popFail s die
    (r.2, r.1)
  else if off = 0x048 then (0#32, s)
  else if off = 0x044 then
    let s1 := settleSlice s die
    (reg s1 die 3 0x044, s1)
  else (reg s die 3 off, s)

/-- A read of a TRC page (R512): TRC_RD0–3 are valid in HOLD. -/
def readTrcPage (s : State) (die off : Nat) : Word :=
  if 0x060 ≤ off ∧ off < 0x070 then
    (if trcState s die = 4 then
      w32 (fld (nth (trcOf s die).buf (fld (reg s die 4 0x05C) 0 12) 0#128) (32 * ((off - 0x060) / 4)) 32)
    else 0#32)
  else if off = 0x040 then reg s die 4 off &&& 0x371#32
  else reg s die 4 off

/-! ## Pages of single dies -/

/-- A read of an HLK page (R307, R384, R511). -/
def readHlkPage (s : State) (die off : Nat) : Word × State :=
  if die = 98 then
    if off = 0x618 then (tmStatus s, s)
    else if off = 0x61C then
      let r := readTmDone s
      (r.2, r.1)
    else if 0x700 ≤ off ∧ off < 0x720 then
      (w32 (foldState (fun m j => if segBusy s (32 * ((off - 0x700) / 4) + j) then m + 2 ^ j else m) 0 (upFrom 0 32)), s)
    else (reg s 98 8 off, s)
  else if off = 0xC14 then (ldStatus s, s)
  else if off = 0xC18 then
    let r := readLdDone s
    (r.2, r.1)
  else (reg s 1 8 off, s)

/-- A read of a TCC page (R367, R510): a read of LOG_SEQ_LO latches LOG_SEQ_HI. -/
def readTccPage (s : State) (die off : Nat) : Word × State :=
  if off = 0x0B0 then
    (reg s die 8 off, setReg s die 8 0x0B4 (w32 ((nth s.host.logN (dieOrd die) 0 - 1) / 2 ^ 32 % 2 ^ 32)))
  else (reg s die 8 off, s)

/-- A read of a REQ page (R269, R273). -/
def readReqPage (s : State) (die off : Nat) : Word :=
  if off = 0x044 then reqStatus s (dieOrd die)
  else if die = 0 ∧ 0x400 ≤ off ∧ off < 0x480 ∧ s.slice.running = true ∧ s.slice.origin = ownNode s then modelState s ((off - 0x400) / 4)
  else reg s die 9 off

/-- A read of the PWR page (R418, R420): a domain estimate is a free value (log entry 9). -/
def readPwrPage (s : State) (off : Nat) : Word × State :=
  let mj := s.power.energy / 100
  if off = 0x040 then (setFld (reg s 90 9 0x040) 0 3 (powerStateNow s), s)
  else if off = 0x060 then (capStatus s.power, s)
  else if off = 0x0A8 then (w32 (s.power.filler % 2 ^ 16), s)
  else if off = 0x0B0 then (w32 (mj % 2 ^ 32), setReg s 90 9 0x0B4 (w32 (mj / 2 ^ 32 % 2 ^ 32)))
  else if 0x0C0 ≤ off ∧ off < 0x0F0 ∧ off % 8 = 0 then
    let lo := drawFree s 418 off
    let hi := drawFree lo.2 418 (off + 4)
    (lo.1, setReg hi.2 90 9 (off + 4) hi.1)
  else (reg s 90 9 off, s)

/-- A read of a TPR page (R437, R440). -/
def readTprPage (s : State) (off : Nat) : Word :=
  if off = 0x110 then setFld (reg s 90 8 0x110) 1 1 (b2n (shutCommitted s)) else reg s 90 8 off

/-- A read of the HWD page (R489). -/
def readHwdPage (s : State) (off : Nat) : Word := if off = 0x04C then w32 (s.svnFloor % 256) else reg s 9 8 off

/-- A read of a LNK page (R333, R335): injection has stopped where the permission is withdrawn. -/
def readLnkPage (s : State) (die page off : Nat) : Word :=
  if off = 0x084 ∧ hasService s die = false then setFld (reg s die page off) 16 1 0 else reg s die page off

/-- A read of a block-specific register. -/
def readBlock (s : State) (b : Block) (die page off : Nat) : Word × State :=
  match b with
  | .core => (readCorePage s (pageCore die page) off, s)
  | .mxe => (if off = 0x040 then mxeStatus s (pageCore die page) else 0#32, s)
  | .vxe => (reg s die page off, s)
  | .mve => (readMvePage s (pageCore die page) off, s)
  | .spm => (readSpmPage s (pageCore die page) off, s)
  | .dmr => (if hasProt die = true ∧ 0x10C ≤ off ∧ off < 0x12C then readProtWindow s die off else reg s die 0 off, s)
  | .frs => readFrsPage s die off
  | .clk => readClkPage s die off
  | .bst => readBstPage s die off
  | .trc => (readTrcPage s die off, s)
  | .mbc => (reg s die 8 off, s)
  | .bgd => (reg s die 8 off, s)
  | .lnk => (readLnkPage s die page off, s)
  | .hlk => readHlkPage s die off
  | .tcc => readTccPage s die off
  | .req => (readReqPage s die off, s)
  | .hwd => (readHwdPage s off, s)
  | .tpr => (readTprPage s off, s)
  | .pwr => readPwrPage s off
  | .thm => (reg s die page off, s)

/-- A read of a register by its BAR0 offset (R10, R11, R21, R536). -/
def readReg (s : State) (bar : Nat) : Word × State :=
  let die := bar / 0x100000
  let page := bar / 0x1000 % 256
  let off := bar % 0x1000
  if die ≥ 100 then (allOnes, s)
  else
    match pageBlock die page with
    | none => (allOnes, s)
    | some b =>
      if !reachable s die page then (allOnes, s)
      else if off < 0x040 then readHeader s die page off
      else readBlock s b die page off

/-- LO_READ_LATCH (R16, R172): a read of a register whose high half it latches. -/
def execLoReadLatch (t : Time) (die : Die) (page : Fin 256) (off : Fin 4096) (s : State) : Host.Outcome State Fault Refusal :=
  let r := readReg (advance s t) (barOff die.val page.val (off.val / 4 * 4))
  .next { r.2 with lastRead := r.1 }

end Sys2Proof.Machine
end

