-- ==== Sys2Proof/Machine/Trace.lean ====
section
/-!
DEFINITION. Sys2Proof/Machine/Trace.lean: the trace capture units (R508, R509, R512). What they record is `traceRec` of Machine/Ops.lean.
-/
namespace Sys2Proof.Machine

/-- The state with a die's trace unit changed. -/
def updTrc (s : State) (die : Nat) (f : TrcSt → TrcSt) : State := { s with trc := mapPut TrcSt.reset s.trc die (f (trcOf s die)) }

/-- The state with TRC_STATUS.STATE of a die replaced. -/
def setTrcState (s : State) (die st : Nat) : State := setRegFld s die 4 0x054 0 3 st

/-- A trace capture write refused (R513). -/
def trcRefuse (s : State) (die off : Nat) : State := recordError s die 4 0x10F3 off

/-- Whether a die offers a SOURCE (R508's table). -/
def offersSource (die src : Nat) : Bool :=
  decide (die ≠ 9) && (match src with
    | 0 => true
    | 1 => decide (die ≠ 90)
    | 2 => decide (dieType die = .compute)
    | 3 => decide (dieType die = .bough)
    | 4 => decide (dieType die = .memory)
    | 5 => true
    | _ => false)

/-- With XDIE_OUT set, a captured trigger sends a trigger message to every die (R509). -/
def sendTriggers (s : State) (die : Nat) : State :=
  if tbit (reg s die 4 0x040) 8 && hasFeature s 9 then
    foldState (fun u d => updTrc u d (fun x => { x with coming := x.coming + 1 })) s (upFrom 0 100)
  else s

/-- A trigger (R508): captured in PRE and ARMED, counted as missed in POST, HOLD and REARM; one in a mesh cycle, and none in that of the write of
ARM. A record made in the trigger's own cycle is the trigger's record. -/
def trigger (s : State) (die : Nat) : State :=
  let x := trcOf s die
  let cyc := meshCyc s s.now
  let st := trcState s die
  if die = 9 ∨ st = 0 ∨ x.armCyc = some cyc ∨ x.missedCyc = some cyc then s
  else if st = 1 ∨ st = 2 then
    let idx := x.buf.length - (if x.last = some cyc then 1 else 0)
    let short := if st = 1 then idx else trcPre s die
    sendTriggers (setReg (updTrc s die (fun y => { y with post := 0, missedCyc := some cyc })) die 4 0x054
      (BitVec.ofNat 32 (3 + short % 4096 * 16 + idx % 4096 * 65536))) die
  else
    let n := fld (reg s die 4 0x058) 0 16
    count (setRegFld (updTrc s die (fun y => { y with missedCyc := some cyc })) die 4 0x058 0 16 (min 65535 (n + 1))) die 4 0xF1 1

/-- ARM as a write sets it (R508, R512): 0 returns to IDLE; 1 in IDLE begins PRE with an empty buffer and clears TRC_MISSED. -/
def writeArm (s : State) (die : Nat) (on : Bool) : State :=
  let s1 := setRegFld s die 4 0x040 0 1 (b2n on)
  if !on then setTrcState s1 die 0
  else if trcState s die = 0 then
    setReg (setReg (updTrc s1 die (fun x => { x with buf := [], last := none, post := 0, since := s.now, missedCyc := none, armCyc := some (meshCyc s s.now) }))
      die 4 0x054 1#32) die 4 0x058 0#32
  else s1

/-- RELEASE (R508): in HOLD, REARM begins. -/
def releaseTrace (s : State) (die : Nat) : State :=
  if trcState s die = 4 then setTrcState (updTrc s die (fun x => { x with buf := [], since := s.now })) die 5 else s

/-- SOURCE as a write sets it (R512): outside IDLE, or a SOURCE that the die does not offer, is discarded with 0x10F3. -/
def writeSource (s : State) (die src : Nat) : State :=
  if fld (reg s die 4 0x040) 4 3 = src then s
  else if trcState s die ≠ 0 || !offersSource die src then trcRefuse s die 0x040
  else setRegFld s die 4 0x040 4 3 src

/-- XDIE_OUT and XDIE_IN as a write sets them (R509): discarded with 0x10F3 while the floor lacks TRACE_XDIE. -/
def writeXdie (s : State) (die n : Nat) : State :=
  if fld (reg s die 4 0x040) 8 2 = n then s
  else if !hasFeature s 9 then trcRefuse s die 0x040
  else setRegFld s die 4 0x040 8 2 n

/-- A write of TRC_CTRL (R508, R512). -/
def writeTrcCtrl (s : State) (die : Nat) (v : Word) : State :=
  let s1 := writeXdie (writeSource s die (fld v 4 3)) die (fld v 8 2)
  let s2 := writeArm s1 die (tbit v 0)
  let s3 := if tbit v 1 then releaseTrace s2 die else s2
  if tbit v 2 then trigger s3 die else s3

/-- A write of a register of a TRC page (R512). -/
def writeTrc (s : State) (die off : Nat) (v : Word) : State :=
  match off with
  | 0x040 => writeTrcCtrl s die v
  | 0x044 => setReg s die 4 0x044 (v &&& 0x1F#32)
  | 0x048 => if trcState s die = 0 then setReg s die 4 0x048 (v &&& 0xFFF#32) else trcRefuse s die 0x048
  | 0x04C => if trcState s die = 0 then setReg s die 4 0x04C (v &&& 0x1FFFE7#32) else trcRefuse s die 0x04C
  | 0x050 => setReg s die 4 0x050 v
  | 0x05C => setReg s die 4 0x05C (v &&& 0xFFF#32)
  | _ => s

/-- Whether a block-specific register of a TRC page is writable. -/
def trcRw (off : Nat) : Bool := decide (off < 0x054) || decide (off = 0x05C)

/-- A write of a register of a TRC page that reaches it (R15, R536, R537). -/
def trcAccess (s : State) (die off : Nat) (v : Word) : State :=
  if !reachable s die 4 then s
  else if sealedPage die 4 then recordError s 9 8 0x8054 (off * 2 ^ 8 + 4 * 2 ^ 20)
  else pageWrite s die 4 off (trcRw off) (fun u => writeTrc u die off v)

/-- TRACE_ARM (R508). -/
def execTraceArm (t : Time) (die : Die) (v : Word) (s : State) : Host.Outcome State Fault Refusal := .next (trcAccess (advance s t) die.val 0x040 v)

/-- TRACE_DISARM (R512). -/
def execTraceDisarm (t : Time) (die : Die) (v : Word) (s : State) : Host.Outcome State Fault Refusal := .next (trcAccess (advance s t) die.val 0x040 v)

/-- TRACE_RELEASE (R508). -/
def execTraceRelease (t : Time) (die : Die) (v : Word) (s : State) : Host.Outcome State Fault Refusal := .next (trcAccess (advance s t) die.val 0x040 v)

/-- SW_TRIGGER (R509). -/
def execSwTrigger (t : Time) (die : Die) (v : Word) (s : State) : Host.Outcome State Fault Refusal := .next (trcAccess (advance s t) die.val 0x040 v)

/-- Whether a page's marks show what TRC_TRIG selects: an error code captured, or an IRQ_STATUS bit set, in this cycle (R509). -/
def pageTriggers (s : State) (die page : Nat) (w : Word) : Bool :=
  let m := pageMark s die page
  decide (m.irqCyc = some (pageCycle s die page)) && (match fld w 0 3 with
    | 1 => decide (fld (reg s die page 0x020) 0 16 = fld w 5 16) && m.errs.any (fun e => decide (e.1 = fld w 5 16))
    | 2 => decide (page = fld w 5 8) && tbit m.irq (fld w 13 5)
    | _ => false)

/-- Whether the cause that TRC_TRIG selects arises on a die now (R509). -/
def traceCause (s : State) (die : Nat) : Bool :=
  let w := reg s die 4 0x04C
  if fld w 0 3 = 3 then
    frsRunning s die && decide (frameNum s die = (reg s die 4 0x050).toNat) && decide (meshCyc s (frsOf s die).began = meshCyc s s.now)
  else (upFrom 0 256).any (fun p => (pageBlock die p).isSome && pageTriggers s die p w)

/-- TRACE_TRIGGER (R509). -/
def execTraceTrigger (t : Time) (die : Die) (s : State) : Host.Outcome State Fault Refusal :=
  let s1 := advance s t
  .next (if traceCause s1 die.val then trigger s1 die.val else s1)

/-- XDIE_TRIGGER (R509): a trigger message arrives, and a die with XDIE_IN set takes it. -/
def execXdieTrigger (t : Time) (die : Die) (s : State) : Host.Outcome State Fault Refusal :=
  let s1 := advance s t
  if (trcOf s1 die.val).coming = 0 then .next s1
  else
    let s2 := updTrc s1 die.val (fun x => { x with coming := x.coming - 1 })
    .next (if tbit (reg s2 die.val 4 0x040) 9 && hasFeature s2 9 then trigger s2 die.val else s2)

/-- TRACE_PRE_FILLED (R508). -/
def execTracePreFilled (t : Time) (die : Die) (s : State) : Host.Outcome State Fault Refusal :=
  let s1 := advance s t
  let x := trcOf s1 die.val
  .next (if trcState s1 die.val = 1 ∧ x.buf.length ≥ trcPre s1 die.val ∧ x.armCyc ≠ some (meshCyc s1 s1.now) then setTrcState s1 die.val 2 else s1)

/-- TRACE_CAPTURE_COMPLETE (R508). -/
def execTraceCaptureComplete (t : Time) (die : Die) (s : State) : Host.Outcome State Fault Refusal :=
  let s1 := advance s t
  if trcState s1 die.val = 3 ∧ (trcOf s1 die.val).post ≥ 4096 - trcPre s1 die.val then
    .next (count (setIrq (setTrcState s1 die.val 4) die.val 4 16) die.val 4 0xF0 1)
  else .next s1

/-- REARM_END (R508): after 64 mesh cycles the unit enters PRE. -/
def execRearmEnd (t : Time) (die : Die) (s : State) : Host.Outcome State Fault Refusal :=
  let s1 := advance s t
  if trcState s1 die.val = 5 ∧ meshCyc s1 s1.now ≥ meshCyc s1 (trcOf s1 die.val).since + 64 then
    .next (setReg (updTrc s1 die.val (fun x => { x with buf := [], last := none, post := 0 })) die.val 4 0x054 1#32)
  else .next s1

end Sys2Proof.Machine
end

