-- ==== Sys2Proof/Machine/RegWrite.lean ====
section
/-!
DEFINITION. Sys2Proof/Machine/RegWrite.lean: what a write of a register does (R10 to R15, R25, R498, R533, R536, R537): which registers of a page
are RW and so held by PAGE_LOCK, and the register's own effect.
-/
namespace Sys2Proof.Machine

/-- Whether an offset is that of one of `n` registers from `lo`, `step` bytes apart. -/
def isReg (off lo step n : Nat) : Bool := decide (lo ≤ off) && decide (off < lo + step * n) && decide ((off - lo) % step = 0)

/-! ## Which registers are RW (R15) -/

/-- Whether a block-specific register of a die's page is an RW register, which PAGE_LOCK holds (R15). -/
def regRw (b : Block) (die off : Nat) : Bool :=
  let t := dieType die
  match b with
  | .dmr => [0x040, 0x048].contains off || (hasProt die && (decide (off = 0x100) || isReg off 0x108 4 9))
  | .frs =>
    [0x040, 0x054, 0x05C, 0x060, 0x070, 0x078].contains off || (decide (die = 0) && [0x0C0, 0x0D0].contains off)
      || (decide (t = .compute) && ([0x800, 0x804, 0x808].contains off
        || (decide (0x840 ≤ off) && decide (off < 0xA40) && [0x00, 0x04, 0x08, 0x0C, 0x14].contains (off % 0x20))))
  | .clk => [0x04C, 0x050].contains off || (decide (t = .compute) && isReg off 0x180 4 18)
  | .bst => [0x040, 0x04C].contains off
  | .trc => trcRw off
  | .core => [0x044, 0x054].contains off || isReg off 0x0A0 4 24
  | .spm => isReg off 0x100 4 64 && decide (off % 16 < 12)
  | .mbc => [0x050, 0x060, 0x068].contains off || isReg off 0x300 4 16 || isReg off 0x400 4 4 || isReg off 0x440 4 12
  | .bgd => isReg off 0x080 4 16
  | .lnk => [0x040, 0x050, 0x058, 0x060, 0x080].contains off
  | .hlk =>
    if die = 1 then decide (off = 0x040) || isReg off 0x100 4 26 || isReg off 0xC00 4 4 || isReg off 0xC20 4 12
    else decide (off = 0x040) || isReg off 0x600 4 5 || decide (off = 0x624) || isReg off 0x800 4 256
  | .tcc =>
    [0x0A0, 0x0A4, 0x0A8, 0x0AC, 0x0BC, 0x0C0, 0x0C4].contains off
      || (decide (die = 0) && (isReg off 0x040 4 3 || isReg off 0x054 4 7 || isReg off 0x510 4 64 || decide (off = 0x700)))
  | .req =>
    [0x040, 0x048, 0x04C, 0x050, 0x054, 0x060, 0x064, 0x068, 0x070].contains off
      || (decide (0x100 ≤ off) && decide (off < 0x300) && [0x00, 0x04, 0x08, 0x10].contains (off % 0x20))
  | .hwd => decide (off = 0x044) || isReg off 0x800 4 512
  | .tpr => [0x104, 0x114].contains off
  | .pwr => [0x04C, 0x054, 0x05C, 0x064, 0x068, 0x0A0, 0x0A4].contains off || isReg off 0x080 4 8
  | .thm => [0x040, 0x04C].contains off
  | .mxe => false
  | .vxe => false
  | .mve => false

/-! ## Pages of every die -/

/-- A write of a register of a DMR page (R33, R366). -/
def writeDmr (s : State) (die off : Nat) (v : Word) : State :=
  match off with
  | 0x040 => setReg s die 0 0x040 (v &&& 3#32)
  | 0x048 => writeSchedCtrl s die v
  | _ =>
    if !hasProt die then s
    else if off = 0x100 then writeProtCtrl s die v
    else if off = 0x108 then setReg s die 0 0x108 (v &&& 0x101FF#32)
    else if isReg off 0x10C 4 8 then writeProtWindow s die off v
    else s

/-- A write of a register of an FRS page (R120, R121, R188, R189). -/
def writeFrs (s : State) (die off : Nat) (v : Word) : State :=
  match off with
  | 0x040 => writeFrameCtrl s die v
  | 0x054 => writeEpoch s die 0x054 v
  | 0x05C => writeEpoch s die 0x05C v
  | 0x060 => writeProgCtrl s die v
  | 0x070 => putSampled s (barOff die 1 0x070) (v &&& 0x1F#32)
  | 0x078 => putSampled s (barOff die 1 0x078) v
  | _ =>
    if die = 0 ∧ off = 0x0C0 then setReg s 0 1 0x0C0 (v &&& 0x3FFFFF#32)
    else if die = 0 ∧ off = 0x0C4 then submitChange s v
    else if die = 0 ∧ off = 0x0D0 then setReg s 0 1 0x0D0 (v &&& 0xFF#32)
    else if dieType die ≠ .compute then s
    else if off = 0x80C then setReg s die 1 0x80C (reg s die 1 0x80C &&& ~~~v)
    else if 0x800 ≤ off then writeNw s die off v
    else s

/-- A write of a register of a CLK page (R397, R422). -/
def writeClk (s : State) (die off : Nat) (v : Word) : State :=
  if off = 0x04C ∨ off = 0x050 then writeClkCfg s die off v
  else if dieType die = .compute ∧ isReg off 0x180 4 18 = true then writeFsyn s (dieOrd die * 18 + (off - 0x180) / 4) v
  else s

/-- A write of a register of a BST page (R470). -/
def writeBst (s : State) (die off : Nat) (v : Word) : State :=
  match off with
  | 0x040 => writeBstCtrl s die v
  | 0x048 => writeBstRun s die v
  | 0x04C => writeRotCore s die v
  | _ => s

/-! ## Pages of cores, memory and Bough dies -/

/-- A write of a register of a CORE page (R45, R57, R62, R83, R86, R471). -/
def writeCorePage (s : State) (who : Requester) (c off : Nat) (v : Word) : State :=
  match off with
  | 0x044 => writeMapNext s c v
  | 0x050 => writeSbHwClr s c v
  | 0x054 => writeHandover s c v
  | _ =>
    if isReg off 0x080 4 8 then writeJobFault s c ((off - 0x080) / 4) v
    else if isReg off 0x0A0 4 8 then writeJobSkip s c ((off - 0x0A0) / 4) v
    else if isReg off 0x0C0 4 16 then setReg s (coreDie c) (corePage c 0) off v
    else if isReg off 0x100 4 64 then
      let q := (off - 0x100) / 0x40
      let k := (off - 0x100) % 0x40 / 4
      if k = 15 then enqueueWindow s who c q v else stageWord s who c q k v
    else s

/-- A write of a register of an SPM page (R50). -/
def writeSpmPage (s : State) (c off : Nat) (v : Word) : State :=
  if 0x100 ≤ off ∧ off < 0x200 then
    let n := (off - 0x100) / 16
    match off % 16 with
    | 0 => writeCtxRange (settle s c) c n 0 v
    | 4 => writeCtxRange (settle s c) c n 4 v
    | 8 => writeCtxCtrl (settle s c) c n v
    | _ => s
  else s

/-- A write of a register of an MBC page (R222, R306, R385, R465). -/
def writeMbc (s : State) (st off : Nat) (v : Word) : State :=
  match off with
  | 0x048 => writePoisonInit s st v
  | 0x050 => writeScrubCtrl s st v
  | 0x060 => putSampled s (barOff (mmDie st) 8 0x060) (v &&& 0xFF#32)
  | 0x068 => writePprCtrl s st v
  | 0x500 => writeZeroInit s st v
  | _ =>
    if isReg off 0x300 4 16 then writeRegion s st ((off - 0x300) / 8) (decide (off % 8 = 4)) v
    else if isReg off 0x400 4 4 || isReg off 0x440 4 12 then writeDigest s st off v
    else s

/-- A write of a register of a LNK page (R335). -/
def writeLnk (s : State) (p off : Nat) (v : Word) : State :=
  match off with
  | 0x040 => writeLnkCtrl s p v
  | 0x050 => writeLnkDelay s p v
  | 0x058 => writeDegrade s p v
  | 0x060 => writeSlotCtrl s p v
  | 0x080 => writeInj s p v
  | _ => s

/-- A write of a register of a BGD page (R472). -/
def writeBgd (s : State) (die off : Nat) (v : Word) : State :=
  if isReg off 0x080 4 16 then setReg s die 8 off (v &&& 0x8000FFFF#32) else s

/-! ## Host link dies (R307, R384, R500, R502, R511) -/

/-- A refused write of an HLK register. -/
def hlkRefuse (s : State) (die off : Nat) : State := recordError s die 8 0x10F2 off

/-- A write of HL_MODE (R502). -/
def writeHlMode (s : State) (die : Nat) (v : Word) : State :=
  if !starting s || decide (startStep s ≠ 4) || (decide (die = 1) && tbit v 0) then hlkRefuse s die 0x040 else setReg s die 8 0x040 (v &&& 1#32)

/-- A write of IRQ_MAPi (R500): it governs from the next mesh cycle on. -/
def writeIrqMap (s : State) (i : Nat) (v : Word) : State :=
  let d := fld v 0 7
  let same (j : Nat) : Bool :=
    let w := reg s 1 8 (0x100 + 4 * j)
    decide (j ≠ i) && tbit w 31 && decide (fld w 0 7 = d) && decide (fld w 8 8 = fld v 8 8)
  if tbit v 31 && (decide (d > 99) || decide (d = 9) || (upFrom 0 26).any same) then hlkRefuse s 1 (0x100 + 4 * i)
  else putSampled s (barOff 1 8 (0x100 + 4 * i)) (v &&& 0x8000FF7F#32)

/-- A write of a register of an HLK page. -/
def writeHlk (s : State) (die off : Nat) (v : Word) : State :=
  if off = 0x040 then writeHlMode s die v
  else if die = 1 then
    if isReg off 0x100 4 26 then writeIrqMap s ((off - 0x100) / 4) v
    else if isReg off 0xC00 4 5 || isReg off 0xC20 4 12 then writeLd s off v
    else s
  else
    match off with
    | 0x600 => setReg s 98 8 off v
    | 0x604 => setReg s 98 8 off (v &&& 0xFF#32)
    | 0x608 => setReg s 98 8 off (v &&& 0x0FFFFFFF#32)
    | 0x60C => setReg s 98 8 off (v &&& 0x37FFF#32)
    | 0x610 => setReg s 98 8 off v
    | 0x614 => queueMove s v
    | 0x624 => putSampled s (barOff 98 8 0x624) (v &&& 0xF#32)
    | _ => if isReg off 0x800 4 256 then writeSegment s ((off - 0x800) / 4) v else s

/-! ## Trunk dies (R367, R433, R472, R492, R493, R510) -/

/-- A write of LOG_HOST_LO or HI: discarded while the mirror is enabled, but for a write of 0 (DEDUCED, log entry 60). -/
def writeLogHost (s : State) (k off : Nat) (v : Word) : State :=
  if logHost s k ≠ 0 ∧ v ≠ 0#32 then tccRefuse s (trDie k) off
  else setReg s (trDie k) 8 off (if off = 0x0A4 then v &&& 0xFFFFF000#32 else v)

/-- A write of a log register of a TCC page (R510). -/
def writeLog (s : State) (k off : Nat) (v : Word) : State :=
  match off with
  | 0x0A0 => if fld v 0 3 > 4 then tccRefuse s (trDie k) off else setReg s (trDie k) 8 off (v &&& 7#32)
  | 0x0A4 => writeLogHost s k 0x0A4 v
  | 0x0A8 => writeLogHost s k 0x0A8 v
  | 0x0AC => setReg s (trDie k) 8 off (v &&& 0x3FFF#32)
  | 0x0BC => setReg s (trDie k) 8 off (v &&& 0x3FFF#32)
  | 0x0C0 => setReg s (trDie k) 8 off (v ||| 0x101#32)
  | 0x0C4 => setReg s (trDie k) 8 off v
  | _ => s

/-- An image header and verdicts that no operand gives: free values (log entry 61). -/
def freeImage (s : State) : FwImage × State :=
  let w (k : Nat) : Word := Config.freeWord 491 k s.fresh
  ({ len := fld (reg s 0 8 0x048) 0 24, chainOk := tbit (w 0) 0, sigOk := tbit (w 0) 1, digestOk := tbit (w 0) 2, svn := (w 1).toNat % 256,
     word := BitVec.ofNat 128 ((w 2).toNat + (w 3).toNat * 2 ^ 32 + (w 4).toNat * 2 ^ 64 + (w 5).toNat * 2 ^ 96),
     digest := toLE 48 (Config.random s.fresh).toNat }, { s with fresh := s.fresh + 1 })

/-- A write of FW_CMD outside the command FIRMWARE_LOAD: what the image says is open (log entry 61). -/
def writeFwCmd (s : State) (v : Word) : State :=
  if loadRefused s then tccRefuse s 0 0x04C
  else if tbit v 0 then
    let i := freeImage s
    loadFirmware i.2 (tbit (Config.freeWord 491 6 s.fresh) 0) i.1 none
  else s

/-- A write of a register that only die 0's TCC page has. -/
def writeTcc0 (s : State) (off : Nat) (v : Word) : State :=
  match off with
  | 0x040 => if loadShut s || decide (fld v 0 12 ≠ 0) then tccRefuse s 0 off else setReg s 0 8 off v
  | 0x044 => if loadShut s then tccRefuse s 0 off else setReg s 0 8 off v
  | 0x048 => if loadShut s || !lenOk (fld v 0 24) then tccRefuse s 0 off else setReg s 0 8 off (v &&& 0xFFFFFF#32)
  | 0x04C => writeFwCmd s v
  | 0x054 => if fwState s = 1 ∨ fld v 0 12 ≠ 0 then tccRefuse s 0 off else setReg s 0 8 off v
  | 0x058 => if fwState s = 1 then tccRefuse s 0 off else setReg s 0 8 off v
  | 0x05C => if fwState s = 1 then tccRefuse s 0 off else setReg s 0 8 off (v &&& 1#32)
  | 0x500 => writeGop s v (Config.freeWord 362 v.toNat s.fresh).toNat
  | 0x700 => writeFoCfg s v
  | 0x704 => writeFoCtrl s v
  | _ =>
    if isReg off 0x060 4 4 then
      if fwState s ≠ 0 then recordError s 0 8 0x10F1 ((off - 0x060) / 4) else setReg s 0 8 off v
    else if isReg off 0x510 4 64 then setReg s 0 8 off v
    else s

/-- A write of a register of a TCC page. -/
def writeTcc (s : State) (die off : Nat) (v : Word) : State :=
  if 0x0A0 ≤ off ∧ off < 0x0C8 then writeLog s (dieOrd die) off v else if die = 0 then writeTcc0 s off v else s

/-! ## The Heartwood die (R25, R482, R489) -/

/-- Bytes of the service window. -/
def windowBytes (s : State) (n : Nat) : List Byte := ((upFrom 0 ((min n 2048 + 3) / 4)).flatMap (fun i => toLE 4 (hwd s (0x800 + 4 * i)).toNat)).take n

/-- The request that a write of CMD names: what its request in the window says is open, but for the bytes to sign, quote or import (log entry 62). -/
def rawRequest (s : State) (code len : Nat) : Option SvcReq :=
  let w (k : Nat) : Word := Config.freeWord 482 k s.fresh
  let ok := tbit (w 0) 0
  let other := tbit (w 0) 1
  let key := (Config.random s.fresh).setWidth 256
  let l := windowBytes s len
  match code with
  | 0x01 => some .status
  | 0x02 => some (if other then .authChallenge else .authRespond ok (tbit (w 0) 2))
  | 0x03 => some .logout
  | 0x10 => some (.verifyFirmware (freeImage s).1)
  | 0x11 => some (.verifySignature ((w 1).toNat % 256) ok)
  | 0x12 => some (.unwrapInstall ⟨(w 1).toNat % 100, Nat.mod_lt _ (by decide)⟩ (w 2).toNat key (w 3).toNat ok)
  | 0x13 => some .clearKeys
  | 0x20 => some (if other then .linkSign l else .linkVerify ok)
  | 0x21 => some (.quote l)
  | 0x22 => some (.random ((w 1).toNat % 257))
  | 0x30 => some (if other then .importAppliance l ok else .importKek ⟨(w 1).toNat % 8, Nat.mod_lt _ (by decide)⟩ (w 2).toNat key ok)
  | 0x31 => some .advanceFloor
  | 0x32 => some .servicePermit
  | 0x33 => some (.debugUnlock ok)
  | 0x3F => some .zeroise
  | _ => none

/-- A write of CMD by Trunk cluster `k` (R482); a code of no service completes with 0x8054. -/
def writeCmd (s : State) (k : Nat) (v : Word) : State :=
  let s1 := { s with fresh := s.fresh + 1 }
  match rawRequest s (fld v 0 8) (fld v 8 16) with
  | some r => requestService s1 k r
  | none =>
    if s.sec.service.isSome then hwdError s1 0x8054 (fld v 0 8)
    else count (hwdError (setReg s1 9 8 0x064 (BitVec.ofNat 32 (2 + fld v 0 8 * 2 ^ 8 + 0x8054 * 2 ^ 16))) 0x8054 (fld v 0 8)) 9 8 0xE1 1

/-- A write of a register of the HWD page by Trunk cluster `k` (R489). -/
def writeHwd (s : State) (k off : Nat) (v : Word) : State :=
  match off with
  | 0x044 => if hasRole s 1 && !s.sec.planSeen then setReg s 9 8 0x044 (v &&& 1#32) else recordErrorFree s 9 8 0x8054
  | 0x060 => writeCmd s k v
  | _ => if isReg off 0x800 4 512 && s.sec.service.isNone then setReg s 9 8 off v else s

/-! ## A write by its BAR0 offset -/

/-- The Trunk cluster that makes an access through the service interface, if one does (R25, R476). -/
def trunkOf (who : Requester) : Option Nat :=
  match who with
  | .trunk0 => some 0
  | .trunk99 => some 1
  | _ => none

/-- A block-specific register's effect. -/
def regBody (s : State) (who : Requester) (b : Block) (die page off : Nat) (v : Word) : State :=
  match b with
  | .dmr => writeDmr s die off v
  | .frs => writeFrs s die off v
  | .clk => writeClk s die off v
  | .bst => writeBst s die off v
  | .trc => writeTrc s die off v
  | .core => writeCorePage s who (pageCore die page) off v
  | .mxe => s
  | .vxe => s
  | .mve => if off = 0x048 then writeMveHwClr s (pageCore die page) v else s
  | .spm => writeSpmPage s (pageCore die page) off v
  | .mbc => writeMbc s (dieOrd die) off v
  | .bgd => writeBgd s die off v
  | .lnk => writeLnk s (3 * dieOrd die + (page - 9)) off v
  | .hlk => writeHlk s die off v
  | .tcc => writeTcc s die off v
  | .req => writeReq s (dieOrd die) off v
  | .hwd =>
    match trunkOf who with
    | some k => writeHwd s k off v
    | none => s
  | .tpr => if who = .bmc ∧ off = 0x100 then startCommand s true v else writeTpr s off v
  | .pwr => writePwr s off v
  | .thm => if off = 0x040 ∨ off = 0x04C then writeThm s off v else s

/-- A register access that is not a naturally aligned word (R11). -/
def misaligned (s : State) (bar size : Nat) (isWrite : Bool) : State :=
  let die := bar / 0x100000
  let page := bar / 0x1000 % 256
  if die < 100 ∧ reachable s die page = true then
    recordError s die page 0x1001 (bar % 4096 + min (size - 1) 15 * 4096 + b2n isWrite * 65536)
  else s

/-- Whether a requester's accesses reach a register (R25, R425, R503): the host over a PCIe link that is up, the BMC through its effecters. -/
def whoReaches (s : State) (who : Requester) (bar : Nat) : Bool :=
  match who with
  | .host => tbit (reg s 1 8 0x044) 9 || (tbit (reg s 98 8 0x044) 9 && !tbit (reg s 98 8 0x040) 0)
  | .bmc => [barOff 90 8 0x100, barOff 90 8 0x104, barOff 90 9 0x04C, barOff 90 9 0x054].contains bar
  | _ => true

/-- A write of a register by its BAR0 offset (R10, R21, R25, R533, R536, R537). -/
def writeReg (s : State) (who : Requester) (bar : Nat) (v : Word) : State :=
  let die := bar / 0x100000
  let page := bar / 0x1000 % 256
  let off := bar % 0x1000
  if die ≥ 100 then s
  else
    match pageBlock die page with
    | none => s
    | some b =>
      if die = 9 ∧ page = 8 ∧ (trunkOf who).isNone then s
      else if off < 0x040 then headerAccess s die page off v
      else if sealedPage die page then (if reachable s die page then recordError s 9 8 0x8054 (off * 2 ^ 8 + page * 2 ^ 20) else s)
      else
        let s1 := pageWrite s die page off (regRw b die off) (fun u => regBody u who b die page off v)
        if b = .frs ∧ die = 0 ∧ off = 0x040 then runHint s s1 else s1

/-! ## BAR2 (R498) -/

/-- The BAR0 offset of the register that a doorbell of BAR2 names. -/
def doorbell (off : Nat) : Option Nat :=
  let o := off % 0x1000
  let page := off / 0x1000
  if page = 0 ∨ page = 1 then
    let d := if page = 0 then 0 else 99
    if o = 0 then some (barOff d 9 0x054)
    else if o = 4 then some (barOff d 9 0x070)
    else if isReg o 0x040 4 16 then some (barOff d 9 (0x110 + 0x20 * ((o - 0x040) / 4)))
    else none
  else if page = 2 ∧ o = 0 then some (barOff 0 8 0x0BC)
  else if page = 3 ∧ o = 0 then some (barOff 99 8 0x0BC)
  else none

/-- A host write of BAR2: a doorbell, or a word of the MSI-X table of 64 entries. -/
def writeBar2 (s : State) (off : Nat) (v : Word) : State :=
  if 0x80000 ≤ off ∧ off < 0x80400 then writeMsix s ((off - 0x80000) / 4) v
  else
    match doorbell off with
    | some b => writeReg s .host b v
    | none => s

/-- A register write as a requester makes it; host offsets from 2^28 on are those of BAR2 (log entry 59). -/
def registerWrite (s : State) (who : Requester) (off : Nat) (v : Word) : State :=
  if who = .host ∧ off ≥ 2 ^ 28 then
    if tbit (reg s 1 8 0x044) 9 && decide (off % 4 = 0) then writeBar2 s (off - 2 ^ 28) v else s
  else if !whoReaches s who off then s
  else if off % 4 ≠ 0 then misaligned s off 4 true
  else writeReg s who off v

/-- REGISTER_WRITE (R10). -/
def execRegisterWrite (t : Time) (who : Requester) (off : Nat) (v : Word) (s : State) : Host.Outcome State Fault Refusal :=
  .next (registerWrite (advance s t) who off v)

/-- MISALIGNED_REGISTER_ACCESS (R11): a read returns all ones; an access that is a naturally aligned word is none of these. -/
def execMisalignedRegisterAccess (t : Time) (off size : Nat) (isWrite : Bool) (s : State) : Host.Outcome State Fault Refusal :=
  let s1 := advance s t
  if size = 4 ∧ off % 4 = 0 then .next s1
  else
    let s2 := misaligned s1 off size isWrite
    .next (if isWrite then s2 else { s2 with lastRead := allOnes })

end Sys2Proof.Machine
end

