-- ==== Sys2Proof/Machine/Fabric.lean ====
section
/-!
DEFINITION. Sys2Proof/Machine/Fabric.lean: requests, responses and control messages of the memory-semantic fabric as they reach the module
(R338 to R346, R361 to R364, R463).
-/
namespace Sys2Proof.Machine

/-! ## What a header's TAG says (R343) -/

/-- The die of the requester that a TAG names. -/
def tagDie (m : FabMsg) : Nat := m.tag / 2 ^ 9 % 128

/-- The physical core of the module that a TAG names, if its die is a compute die of the module. -/
def tagCore (m : FabMsg) : Option Nat :=
  let d := tagDie m
  let k := m.tag / 2 ^ 16 % 32
  if d < 100 ∧ dieType d = .compute ∧ k < 18 then some (dieOrd d * 18 + k) else none

/-- The requester of a register access over the fabric. -/
def tagWho (m : FabMsg) : Requester :=
  .fabric ⟨m.src % 65536, Nat.mod_lt _ (by decide)⟩ ⟨tagDie m, Nat.mod_lt _ (by decide)⟩ ⟨m.tag / 2 ^ 16 % 32, Nat.mod_lt _ (by decide)⟩

/-! ## Register space (R344) -/

/-- Reads bytes of register space as a sequence of aligned words; a part of a word is an access under R11. -/
def fabRegRead (fuel : Nat) (s : State) (bar n : Nat) : List Byte × State :=
  match fuel with
  | 0 => ([], s)
  | k + 1 =>
    if n = 0 then ([], s)
    else
      let m := min n (4 - bar % 4)
      let r := if m = 4 then readReg s bar else (allOnes, misaligned s bar m false)
      let q := fabRegRead k r.2 (bar + m) (n - m)
      ((toLE 4 r.1.toNat).take m ++ q.1, q.2)

/-- Writes bytes of register space in the same way. -/
def fabRegWrite (fuel : Nat) (s : State) (who : Requester) (bar : Nat) (l : List Byte) : State :=
  match fuel with
  | 0 => s
  | k + 1 =>
    if l.isEmpty then s
    else
      let m := min l.length (4 - bar % 4)
      let u := if m = 4 then writeReg s who bar (BitVec.ofNat 32 (ofLE (l.take 4))) else misaligned s bar m true
      fabRegWrite k u who (bar + m) (l.drop m)

/-! ## At the home (R43, R344, R345) -/

/-- A load or store of Tier 0 (R40, R46). -/
def tier0Fabric (s : State) (o l b : Nat) (m : FabMsg) (ecc : Ecc) : State × Resp :=
  tier0Access s o l { off := b, write := decide (m.op = 2), len := m.len, data := m.data, poison := m.poison } ecc

/-- An atomic of Tier 0 (R292, R345). -/
def tier0Atomic (s : State) (o l b : Nat) (m : FabMsg) (ecc : Ecc) : State × Resp :=
  match physOf s (cpDie o) l with
  | none => (s, errResp 0x4010)
  | some c => portAtomic s c b m ecc

/-- A request for register space (R344, R345). -/
def regsFabric (s : State) (bar : Nat) (m : FabMsg) : State :=
  match m.op with
  | 1 =>
    let r := fabRegRead (m.len + 1) s bar m.len
    reply r.2 m 0 r.1 []
  | 2 => reply (fabRegWrite (m.data.length + 1) s (tagWho m) bar m.data) m 0 [] []
  | _ =>
    let die := bar / 0x100000
    reply (if die < 100 then recordError s die 0 0x4016 m.src else s) m 0x4016 [] []

/-- The die that decodes a request's offset: the Bough die of the port by which it came, or the requester's own (R43, DEDUCED). -/
def decodeDie (p : Option Nat) (m : FabMsg) : Nat :=
  match p with
  | some k => portDie k
  | none => if tagDie m < 100 then tagDie m else 0

/-- A planned request to Tier 1 is performed as it reaches its stack, others wait in the home queue (R280, R281, R346). -/
def tier1Fabric (s : State) (st inp : Nat) (m : FabMsg) (ecc : Ecc) : State :=
  if m.cls % 4 = 0 ∧ isHalted s (mmDie st) 8 then s
  else if m.cls % 4 = 0 then
    plannedArrives s st inp { addr := m.offset % stackSize, write := decide (m.op = 2), len := max m.len m.data.length, data := m.data, poison := false,
                              since := s.now, msg := some m } ecc.ready ecc.lines
  else enterHome s (mmDie st) inp m

/-- A request at its destination module (R43, R344 to R346). -/
def atHome (s : State) (p : Option Nat) (inp : Nat) (ecc : Ecc) (m : FabMsg) : State :=
  match homeOf m.offset with
  | .tier1 st _ => tier1Fabric s st inp m ecc
  | .tier2 _ => enterHome s 98 inp m
  | .tier0 o l b =>
    let r := if m.op = 3 then tier0Atomic s o l b m ecc else tier0Fabric s o l b m ecc
    reply r.1 m r.2.err r.2.data r.2.poison
  | .hole => reply s m 0x4011 [] []
  | .regs bar => regsFabric s bar m
  | .unmapped => reply (recordErrorFree s (decodeDie p m) 0 0x4010) m 0x4010 [] []

/-! ## At a Bough die (R339, R340, R463) -/

/-- Whether a Bough die's fence table holds a node. -/
def fencedSrc (s : State) (p src : Nat) : Bool :=
  (upFrom 0 16).any (fun i =>
    let w := reg s (portDie p) 8 (0x080 + 4 * i)
    tbit w 31 && decide (fld w 0 16 = src))

/-- A Bough die discards a request with an error response (R339, R368). -/
def boughDiscards (s : State) (p : Nat) (m : FabMsg) : State := reply (recordError s (portDie p) 8 0x4015 m.dest) m 0x4015 [] []

/-- A message leaves by a port: it enters the port's transmit queue, and has crossed one link more. -/
def sendBy (s : State) (m : FabMsg) (p : Nat) : State :=
  queueOut { s with lastSent := some { m with hops := m.hops + 1 }, lastPort := some p } p m

/-- A completion reaches the core that a TAG names (R343, R350): in the expiry cycle it is late. -/
def deliver (s : State) (m : FabMsg) (err : Nat) (data : List Byte) (poison : List Nat) : State :=
  match tagCore m with
  | none => if tagDie m = 0 ∧ m.src ≠ ownNode s then serveAll (xorDone s (m.tag % 512) err) else s
  | some c =>
    let slot := m.tag % 512
    let late := (core s c).reqs.any (fun r => decide (r.slot = slot) && isLate s c r)
    takeResponse s c slot { generation := m.tag / 2 ^ 21 % 2 ^ 11, err := err, data := data, poison := poison, late := late }

/-- A request of this module leaves it, or completes with 0x4015 (R339). -/
def leaveModule (s : State) (m : FabMsg) : State :=
  match sendPort s (tagDie m) m with
  | some q => sendBy s m q
  | none => deliver s m 0x4015 [] []

/-- A request of another module on its way through this one (R340, R342). -/
def passRequest (s : State) (p : Nat) (m : FabMsg) : State :=
  match routeTo s (portDie p) m.dest (m.cls % 4) m.offset with
  | some q => sendBy s m q
  | none => boughDiscards s p m

/-- A request reaches the module by a port, or starts within it. -/
def request (s : State) (p : Option Nat) (inp : Nat) (ecc : Ecc) (m : FabMsg) : State :=
  match p with
  | none => if m.dest = ownNode s then atHome s none inp ecc m else leaveModule s m
  | some k =>
    if !portActive s k then s
    else if fencedSrc s k m.src then count s (portDie k) 8 0x7E 1
    else if m.hops ≥ 255 then boughDiscards s k m
    else if m.dest = ownNode s then atHome s (some k) inp ecc m
    else passRequest s k m

/-- A response reaches the module by a port, or starts within it: it goes on towards its requester or is delivered (R340, R341, R343). -/
def response (s : State) (p : Option Nat) (m : FabMsg) : State :=
  let go (u : State) (die : Nat) : State :=
    if m.dest = ownNode u then deliver u m m.status m.data m.poison
    else
      match routeTo u die m.dest (m.cls % 4) m.offset with
      | some q => sendBy u m q
      | none => u
  match p with
  | none => go s (homeDie m.offset)
  | some k =>
    if !portActive s k then s
    else if fencedSrc s k m.src then count s (portDie k) 8 0x7E 1
    else if m.hops ≥ 255 then s
    else go s (portDie k)

/-- FABRIC_READ (R344). -/
def execFabricRead (t : Time) (p : Option Port) (inp : Fin 5) (ecc : Ecc) (m : FabMsg) (s : State) : Host.Outcome State Fault Refusal :=
  .next (request (advance s t) (p.map (fun q => q.val)) inp.val ecc { m with op := 1 })

/-- FABRIC_WRITE (R344). -/
def execFabricWrite (t : Time) (p : Option Port) (inp : Fin 5) (ecc : Ecc) (m : FabMsg) (s : State) : Host.Outcome State Fault Refusal :=
  .next (request (advance s t) (p.map (fun q => q.val)) inp.val ecc { m with op := 2 })

/-- FABRIC_ATOMIC (R345). -/
def execFabricAtomic (t : Time) (p : Option Port) (inp : Fin 5) (ecc : Ecc) (m : FabMsg) (s : State) : Host.Outcome State Fault Refusal :=
  .next (request (advance s t) (p.map (fun q => q.val)) inp.val ecc { m with op := 3 })

/-- READ_RESPONSE (R343). -/
def execReadResponse (t : Time) (p : Option Port) (m : FabMsg) (s : State) : Host.Outcome State Fault Refusal :=
  .next (response (advance s t) (p.map (fun q => q.val)) { m with op := 8 })

/-- WRITE_COMPLETION (R344). -/
def execWriteCompletion (t : Time) (p : Option Port) (m : FabMsg) (s : State) : Host.Outcome State Fault Refusal :=
  .next (response (advance s t) (p.map (fun q => q.val)) { m with op := 9 })

/-- ATOMIC_RESPONSE (R345). -/
def execAtomicResponse (t : Time) (p : Option Port) (m : FabMsg) (s : State) : Host.Outcome State Fault Refusal :=
  .next (response (advance s t) (p.map (fun q => q.val)) { m with op := 0xA })

/-- ERROR_RESPONSE (R343). -/
def execErrorResponse (t : Time) (p : Option Port) (m : FabMsg) (s : State) : Host.Outcome State Fault Refusal :=
  .next (response (advance s t) (p.map (fun q => q.val)) { m with op := 0xB })

/-! ## Control messages (R361, R362, R364) -/

/-- A control message at its destination die. -/
def controlArrives (s : State) (m : CtlMsg) : State :=
  match m with
  | .capture _ frame =>
    if reachable s 0 8 then setReg (updGop s (fun g => { g with capture := some frame })) 0 8 0x50C (BitVec.ofNat 32 frame) else s
  | .resetAt _ frame => if reachable s 0 8 then updGop (abortForReset s) (fun g => { g with resetAt := some frame }) else s
  | .plain die l =>
    if reachable s die.val 0 then
      updRouter s die.val (fun r => { r with lastMsg := some { dst := die.val, payload := l, entered := meshCyc s s.now, report := none } })
    else s

/-- CONTROL_MESSAGE (R361). -/
def execControlMessage (t : Time) (m : CtlMsg) (s : State) : Host.Outcome State Fault Refusal := .next (controlArrives (advance s t) m)

end Sys2Proof.Machine
end

