-- ==== Sys2Proof/Machine/Dispatch.lean ====
section
/-!
DEFINITION. Sys2Proof/Machine/Dispatch.lean: the meaning of each command, one arm per constructor of `Instr`.
-/
namespace Sys2Proof.Machine

def exec (i : Instr) (s : State) : Host.Outcome State Fault Refusal :=
  match i with
  | .registerWrite t who off v => Sys2Proof.Machine.execRegisterWrite t who off v s
  | .misalignedRegisterAccess t off size isWrite => Sys2Proof.Machine.execMisalignedRegisterAccess t off size isWrite s
  | .softReset t die page v => Sys2Proof.Machine.execSoftReset t die page v s
  | .powerReqWrite t die page v => Sys2Proof.Machine.execPowerReqWrite t die page v s
  | .powerTransitionComplete t die page => Sys2Proof.Machine.execPowerTransitionComplete t die page s
  | .pageLock t die page v => Sys2Proof.Machine.execPageLock t die page v s
  | .irqStatusClear t die page v => Sys2Proof.Machine.execIrqStatusClear t die page v s
  | .irqForce t die page v => Sys2Proof.Machine.execIrqForce t die page v s
  | .cntClr t die page v => Sys2Proof.Machine.execCntClr t die page v s
  | .loReadLatch t die page off => Sys2Proof.Machine.execLoReadLatch t die page off s
  | .plannedFlit t die inp crcOk entryOk => Sys2Proof.Machine.execPlannedFlit t die inp crcOk entryOk s
  | .dynamicMessage t die act => Sys2Proof.Machine.execDynamicMessage t die act s
  | .edgeMarkedDown t die edge => Sys2Proof.Machine.execEdgeMarkedDown t die edge s
  | .schedSwapArm t die v => Sys2Proof.Machine.execSchedSwapArm t die v s
  | .mapNextArm t c v => Sys2Proof.Machine.execMapNextArm t c v s
  | .crossbarAccess t die logical a ecc => Sys2Proof.Machine.execCrossbarAccess t die logical a ecc s
  | .descriptorEnqueue t who c q v => Sys2Proof.Machine.execDescriptorEnqueue t who c q v s
  | .mma t c ecc => Sys2Proof.Machine.execMma t c ecc s
  | .accStore t c ecc => Sys2Proof.Machine.execAccStore t c ecc s
  | .accZero t c ecc => Sys2Proof.Machine.execAccZero t c ecc s
  | .mxeNop t c ecc => Sys2Proof.Machine.execMxeNop t c ecc s
  | .add t c ecc => Sys2Proof.Machine.execAdd t c ecc s
  | .sub t c ecc => Sys2Proof.Machine.execSub t c ecc s
  | .mul t c ecc => Sys2Proof.Machine.execMul t c ecc s
  | .fma t c ecc => Sys2Proof.Machine.execFma t c ecc s
  | .max t c ecc => Sys2Proof.Machine.execMax t c ecc s
  | .min t c ecc => Sys2Proof.Machine.execMin t c ecc s
  | .scale t c ecc => Sys2Proof.Machine.execScale t c ecc s
  | .convert t c ecc => Sys2Proof.Machine.execConvert t c ecc s
  | .exp t c ecc => Sys2Proof.Machine.execExp t c ecc s
  | .recip t c ecc => Sys2Proof.Machine.execRecip t c ecc s
  | .rsqrt t c ecc => Sys2Proof.Machine.execRsqrt t c ecc s
  | .tanh t c ecc => Sys2Proof.Machine.execTanh t c ecc s
  | .silu t c ecc => Sys2Proof.Machine.execSilu t c ecc s
  | .gelu t c ecc => Sys2Proof.Machine.execGelu t c ecc s
  | .rowSum t c ecc => Sys2Proof.Machine.execRowSum t c ecc s
  | .rowMax t c ecc => Sys2Proof.Machine.execRowMax t c ecc s
  | .rowSqsum t c ecc => Sys2Proof.Machine.execRowSqsum t c ecc s
  | .cumsum t c ecc => Sys2Proof.Machine.execCumsum t c ecc s
  | .norm2 t c ecc => Sys2Proof.Machine.execNorm2 t c ecc s
  | .topk t c ecc => Sys2Proof.Machine.execTopk t c ecc s
  | .gatherRows t c ecc => Sys2Proof.Machine.execGatherRows t c ecc s
  | .rng t c ecc => Sys2Proof.Machine.execRng t c ecc s
  | .matchEntries t c ecc => Sys2Proof.Machine.execMatchEntries t c ecc s
  | .vxeNop t c ecc => Sys2Proof.Machine.execVxeNop t c ecc s
  | .copyIn t c ecc => Sys2Proof.Machine.execCopyIn t c ecc s
  | .copyOut t c ecc => Sys2Proof.Machine.execCopyOut t c ecc s
  | .gatherIn t c ecc => Sys2Proof.Machine.execGatherIn t c ecc s
  | .scatterOut t c ecc => Sys2Proof.Machine.execScatterOut t c ecc s
  | .load t c ecc => Sys2Proof.Machine.execLoad t c ecc s
  | .store t c ecc => Sys2Proof.Machine.execStore t c ecc s
  | .fetchAdd t c ecc => Sys2Proof.Machine.execFetchAdd t c ecc s
  | .swap t c ecc => Sys2Proof.Machine.execSwap t c ecc s
  | .compareAndSwap t c ecc => Sys2Proof.Machine.execCompareAndSwap t c ecc s
  | .signedMinimum t c ecc => Sys2Proof.Machine.execSignedMinimum t c ecc s
  | .signedMaximum t c ecc => Sys2Proof.Machine.execSignedMaximum t c ecc s
  | .unsignedMinimum t c ecc => Sys2Proof.Machine.execUnsignedMinimum t c ecc s
  | .unsignedMaximum t c ecc => Sys2Proof.Machine.execUnsignedMaximum t c ecc s
  | .fenceLocal t c ecc => Sys2Proof.Machine.execFenceLocal t c ecc s
  | .fenceNode t c ecc => Sys2Proof.Machine.execFenceNode t c ecc s
  | .fenceGlobal t c ecc => Sys2Proof.Machine.execFenceGlobal t c ecc s
  | .fenceComplete t c => Sys2Proof.Machine.execFenceComplete t c s
  | .mveNop t c ecc => Sys2Proof.Machine.execMveNop t c ecc s
  | .fill t c ecc => Sys2Proof.Machine.execFill t c ecc s
  | .mouCopy t c ecc => Sys2Proof.Machine.execMouCopy t c ecc s
  | .mouNop t c ecc => Sys2Proof.Machine.execMouNop t c ecc s
  | .commandRetire t c q => Sys2Proof.Machine.execCommandRetire t c q s
  | .mveRequestGenerate t c ecc => Sys2Proof.Machine.execMveRequestGenerate t c ecc s
  | .mveRequestCompletion t c slot resp => Sys2Proof.Machine.execMveRequestCompletion t c slot resp s
  | .contextAssign t c n v => Sys2Proof.Machine.execContextAssign t c n v s
  | .contextRelease t c n v => Sys2Proof.Machine.execContextRelease t c n v s
  | .contextOwnerWrite t c n v => Sys2Proof.Machine.execContextOwnerWrite t c n v s
  | .contextFillDone t c => Sys2Proof.Machine.execContextFillDone t c s
  | .sbHwClr t c v => Sys2Proof.Machine.execSbHwClr t c v s
  | .mveHwClr t c v => Sys2Proof.Machine.execMveHwClr t c v s
  | .normVerdict t die entry fp32 => Sys2Proof.Machine.execNormVerdict t die entry fp32 s
  | .jumpReport t die r => Sys2Proof.Machine.execJumpReport t die r s
  | .stepNotice t die n => Sys2Proof.Machine.execStepNotice t die n s
  | .nwCtrlWrite t die v => Sys2Proof.Machine.execNwCtrlWrite t die v s
  | .planLoad t u file othersOk sigOk words eligible returned => Sys2Proof.Machine.execPlanLoad t u file othersOk sigOk words eligible returned s
  | .injectionEnqueue t die o f => Sys2Proof.Machine.execInjectionEnqueue t die o f s
  | .lateInjectionFlit t die o => Sys2Proof.Machine.execLateInjectionFlit t die o s
  | .syncPulse t => Sys2Proof.Machine.execSyncPulse t s
  | .syncPulseMissing t => Sys2Proof.Machine.execSyncPulseMissing t s
  | .frameSequencerStart t => Sys2Proof.Machine.execFrameSequencerStart t s
  | .frameBoundary t => Sys2Proof.Machine.execFrameBoundary t s
  | .slot t die entryOk => Sys2Proof.Machine.execSlot t die entryOk s
  | .push t die entryOk => Sys2Proof.Machine.execPush t die entryOk s
  | .pushDescriptorEnter t die k => Sys2Proof.Machine.execPushDescriptorEnter t die k s
  | .wake t die entryOk => Sys2Proof.Machine.execWake t die entryOk s
  | .gate t die entryOk => Sys2Proof.Machine.execGate t die entryOk s
  | .coreGatedWhenIdle t c => Sys2Proof.Machine.execCoreGatedWhenIdle t c s
  | .unitWakeComplete t die u => Sys2Proof.Machine.execUnitWakeComplete t die u s
  | .refresh t die entryOk => Sys2Proof.Machine.execRefresh t die entryOk s
  | .test t die entryOk => Sys2Proof.Machine.execTest t die entryOk s
  | .jump t die entryOk => Sys2Proof.Machine.execJump t die entryOk s
  | .report t die entryOk => Sys2Proof.Machine.execReport t die entryOk s
  | .reportReceived t src level => Sys2Proof.Machine.execReportReceived t src level s
  | .exchange t entryOk boundary => Sys2Proof.Machine.execExchange t entryOk boundary s
  | .agreementResult t die frame xs => Sys2Proof.Machine.execAgreementResult t die frame xs s
  | .slotChangeSubmit t v => Sys2Proof.Machine.execSlotChangeSubmit t v s
  | .frameRunArm t die v => Sys2Proof.Machine.execFrameRunArm t die v s
  | .frameRunDisarm t die v => Sys2Proof.Machine.execFrameRunDisarm t die v s
  | .frameStop t die v => Sys2Proof.Machine.execFrameStop t die v s
  | .progSwapArm t die v => Sys2Proof.Machine.execProgSwapArm t die v s
  | .sealPage t job slot layer group page inTime => Sys2Proof.Machine.execSealPage t job slot layer group page inTime s
  | .localSequenceNotExtended t job slot => Sys2Proof.Machine.execLocalSequenceNotExtended t job slot s
  | .parityRegionWrite t stack n isLen v => Sys2Proof.Machine.execParityRegionWrite t stack n isLen v s
  | .generate t k entry param graft => Sys2Proof.Machine.execGenerate t k entry param graft s
  | .cancel t k entry => Sys2Proof.Machine.execCancel t k entry s
  | .park t k entry => Sys2Proof.Machine.execPark t k entry s
  | .parkTtlExpiry t => Sys2Proof.Machine.execParkTtlExpiry t s
  | .canopyLoad t k entry param manifest sigOk staged => Sys2Proof.Machine.execCanopyLoad t k entry param manifest sigOk staged s
  | .canopyPin t k entry m => Sys2Proof.Machine.execCanopyPin t k entry m s
  | .canopyUnpin t k entry m => Sys2Proof.Machine.execCanopyUnpin t k entry m s
  | .requestAdmit t k => Sys2Proof.Machine.execRequestAdmit t k s
  | .requestDeadline t k => Sys2Proof.Machine.execRequestDeadline t k s
  | .retainedSessionExpiry t => Sys2Proof.Machine.execRetainedSessionExpiry t s
  | .tokenRelease t k recs routing => Sys2Proof.Machine.execTokenRelease t k recs routing s
  | .streamHoldDrain t k n => Sys2Proof.Machine.execStreamHoldDrain t k n s
  | .completionHoldDrain t k => Sys2Proof.Machine.execCompletionHoldDrain t k s
  | .graftVerdict t g sample factor => Sys2Proof.Machine.execGraftVerdict t g sample factor s
  | .tier1PlannedAccess t stack inp addr write len data poison found => Sys2Proof.Machine.execTier1PlannedAccess t stack inp addr write len data poison found s
  | .arbitrationGrant t die others ecc entryOk => Sys2Proof.Machine.execArbitrationGrant t die others ecc entryOk s
  | .extensionRefreshRound t stack => Sys2Proof.Machine.execExtensionRefreshRound t stack s
  | .autonomousRefresh t stack => Sys2Proof.Machine.execAutonomousRefresh t stack s
  | .poisonInit t stack v => Sys2Proof.Machine.execPoisonInit t stack v s
  | .poisonInitDone t stack => Sys2Proof.Machine.execPoisonInitDone t stack s
  | .scrubRead t stack ecc => Sys2Proof.Machine.execScrubRead t stack ecc s
  | .scrubBehind t stack => Sys2Proof.Machine.execScrubBehind t stack s
  | .pprStart t stack v => Sys2Proof.Machine.execPprStart t stack v s
  | .pprComplete t stack => Sys2Proof.Machine.execPprComplete t stack s
  | .segmentWrite t k v => Sys2Proof.Machine.execSegmentWrite t k v s
  | .tier2Access t out => Sys2Proof.Machine.execTier2Access t out s
  | .tier2DeadlineExpiry t => Sys2Proof.Machine.execTier2DeadlineExpiry t s
  | .tierMoveQueue t v => Sys2Proof.Machine.execTierMoveQueue t v s
  | .tierMoveTile t out ecc => Sys2Proof.Machine.execTierMoveTile t out ecc s
  | .tierMoveComplete t => Sys2Proof.Machine.execTierMoveComplete t s
  | .tierMoveDeadline t => Sys2Proof.Machine.execTierMoveDeadline t s
  | .tmDoneRead t => Sys2Proof.Machine.execTmDoneRead t s
  | .hostLinkDown t hl => Sys2Proof.Machine.execHostLinkDown t hl s
  | .portSignalDetected t p => Sys2Proof.Machine.execPortSignalDetected t p s
  | .portDetectTimeout t p => Sys2Proof.Machine.execPortDetectTimeout t p s
  | .portTrainingComplete t p tr => Sys2Proof.Machine.execPortTrainingComplete t p tr s
  | .portRetry t p => Sys2Proof.Machine.execPortRetry t p s
  | .hello t p nonce => Sys2Proof.Machine.execHello t p nonce s
  | .proof t p pf => Sys2Proof.Machine.execProof t p pf s
  | .nonceStale t p => Sys2Proof.Machine.execNonceStale t p s
  | .retrain t p v => Sys2Proof.Machine.execRetrain t p v s
  | .forceQuarantine t p v => Sys2Proof.Machine.execForceQuarantine t p v s
  | .lpiReq t p v => Sys2Proof.Machine.execLpiReq t p v s
  | .lpiEntry t p => Sys2Proof.Machine.execLpiEntry t p s
  | .portLpiExit t p => Sys2Proof.Machine.execPortLpiExit t p s
  | .plannedLinkFlit t p n crcOk f => Sys2Proof.Machine.execPlannedLinkFlit t p n crcOk f s
  | .plannedReplay t p crcOk f => Sys2Proof.Machine.execPlannedReplay t p crcOk f s
  | .plannedDelivery t p o entryOk => Sys2Proof.Machine.execPlannedDelivery t p o entryOk s
  | .dynamicLinkFlit t p crcOk f nak => Sys2Proof.Machine.execDynamicLinkFlit t p crcOk f nak s
  | .linkErrorWindow t p corrected words => Sys2Proof.Machine.execLinkErrorWindow t p corrected words s
  | .laneLockLoss t p lane => Sys2Proof.Machine.execLaneLockLoss t p lane s
  | .noFlitTimeout t p => Sys2Proof.Machine.execNoFlitTimeout t p s
  | .elasticBufferFault t p overflow => Sys2Proof.Machine.execElasticBufferFault t p overflow s
  | .linkSlotSwapArm t p v => Sys2Proof.Machine.execLinkSlotSwapArm t p v s
  | .injectDrop t p cls f => Sys2Proof.Machine.execInjectDrop t p cls f s
  | .injectCorrupt t p cls f => Sys2Proof.Machine.execInjectCorrupt t p cls f s
  | .injectReorder t p cls f => Sys2Proof.Machine.execInjectReorder t p cls f s
  | .injectDelay t p cls f => Sys2Proof.Machine.execInjectDelay t p cls f s
  | .cablePresentChange t p present => Sys2Proof.Machine.execCablePresentChange t p present s
  | .fabricRead t p inp ecc m => Sys2Proof.Machine.execFabricRead t p inp ecc m s
  | .fabricWrite t p inp ecc m => Sys2Proof.Machine.execFabricWrite t p inp ecc m s
  | .fabricAtomic t p inp ecc m => Sys2Proof.Machine.execFabricAtomic t p inp ecc m s
  | .readResponse t p m => Sys2Proof.Machine.execReadResponse t p m s
  | .writeCompletion t p m => Sys2Proof.Machine.execWriteCompletion t p m s
  | .atomicResponse t p m => Sys2Proof.Machine.execAtomicResponse t p m s
  | .errorResponse t p m => Sys2Proof.Machine.execErrorResponse t p m s
  | .controlMessage t m => Sys2Proof.Machine.execControlMessage t m s
  | .homeQueueAdmit t die inp => Sys2Proof.Machine.execHomeQueueAdmit t die inp s
  | .requestDeadlineExpiry t c => Sys2Proof.Machine.execRequestDeadlineExpiry t c s
  | .orphanSlotRelease t c slot => Sys2Proof.Machine.execOrphanSlotRelease t c slot s
  | .protSwapArm t die v => Sys2Proof.Machine.execProtSwapArm t die v s
  | .barrier t v => Sys2Proof.Machine.execBarrier t v s
  | .broadcast t v => Sys2Proof.Machine.execBroadcast t v s
  | .snapshot t v => Sys2Proof.Machine.execSnapshot t v s
  | .resetOp t v frame => Sys2Proof.Machine.execResetOp t v frame s
  | .barrierRelease t op seq data late => Sys2Proof.Machine.execBarrierRelease t op seq data late s
  | .shardQueue t v => Sys2Proof.Machine.execShardQueue t v s
  | .loadShardComplete t data err => Sys2Proof.Machine.execLoadShardComplete t data err s
  | .ldDeadlineExpiry t => Sys2Proof.Machine.execLdDeadlineExpiry t s
  | .ldDoneRead t => Sys2Proof.Machine.execLdDoneRead t s
  | .digestStart t stack v => Sys2Proof.Machine.execDigestStart t stack v s
  | .digestComplete t stack rest => Sys2Proof.Machine.execDigestComplete t stack rest s
  | .periodicDigest t m shard => Sys2Proof.Machine.execPeriodicDigest t m shard s
  | .powerSample t sample => Sys2Proof.Machine.execPowerSample t sample s
  | .controllerMillisecond t m => Sys2Proof.Machine.execControllerMillisecond t m s
  | .bladeCurrentLoss t blade => Sys2Proof.Machine.execBladeCurrentLoss t blade s
  | .inputUndervoltage t volts => Sys2Proof.Machine.execInputUndervoltage t volts s
  | .inputFault t above => Sys2Proof.Machine.execInputFault t above s
  | .referenceClockLoss t => Sys2Proof.Machine.execReferenceClockLoss t s
  | .thermalTrip t die reading => Sys2Proof.Machine.execThermalTrip t die reading s
  | .droop t die => Sys2Proof.Machine.execDroop t die s
  | .droopTimeout t die k => Sys2Proof.Machine.execDroopTimeout t die k s
  | .auxRailLoss t => Sys2Proof.Machine.execAuxRailLoss t s
  | .nextFreq t c v => Sys2Proof.Machine.execNextFreq t c v s
  | .synthLocked t c => Sys2Proof.Machine.execSynthLocked t c s
  | .fsynArm t c v => Sys2Proof.Machine.execFsynArm t c v s
  | .synthSwitch t c => Sys2Proof.Machine.execSynthSwitch t c s
  | .auxPowerOn t slot => Sys2Proof.Machine.execAuxPowerOn t slot s
  | .coldStart t e => Sys2Proof.Machine.execColdStart t e s
  | .warmStart t e => Sys2Proof.Machine.execWarmStart t e s
  | .shutdownToParked t bmc => Sys2Proof.Machine.execShutdownToParked t bmc s
  | .shutdownToStandby t bmc => Sys2Proof.Machine.execShutdownToStandby t bmc s
  | .abandonShutdown t bmc => Sys2Proof.Machine.execAbandonShutdown t bmc s
  | .autoColdStart t => Sys2Proof.Machine.execAutoColdStart t s
  | .startStepTimeout t => Sys2Proof.Machine.execStartStepTimeout t s
  | .shutdownCommit t => Sys2Proof.Machine.execShutdownCommit t s
  | .dieReset t v => Sys2Proof.Machine.execDieReset t v s
  | .dieResetEnd t die => Sys2Proof.Machine.execDieResetEnd t die s
  | .bstRun t die v => Sys2Proof.Machine.execBstRun t die v s
  | .selfTestSliceDone t die fail measured => Sys2Proof.Machine.execSelfTestSliceDone t die fail measured s
  | .failHeadRead t die => Sys2Proof.Machine.execFailHeadRead t die s
  | .cursorRst t die v => Sys2Proof.Machine.execCursorRst t die v s
  | .mirrorEn t c v => Sys2Proof.Machine.execMirrorEn t c v s
  | .copyStart t c v => Sys2Proof.Machine.execCopyStart t c v s
  | .copyDone t c => Sys2Proof.Machine.execCopyDone t c s
  | .mirrorEnd t c => Sys2Proof.Machine.execMirrorEnd t c s
  | .trunkHeartbeat t k => Sys2Proof.Machine.execTrunkHeartbeat t k s
  | .trunkClusterLost t k halted => Sys2Proof.Machine.execTrunkClusterLost t k halted s
  | .moduleHeartbeat t heard => Sys2Proof.Machine.execModuleHeartbeat t heard s
  | .heartbeatMiss t node => Sys2Proof.Machine.execHeartbeatMiss t node s
  | .membershipRound t => Sys2Proof.Machine.execMembershipRound t s
  | .alive t node round => Sys2Proof.Machine.execAlive t node round s
  | .membershipWaitExpiry t => Sys2Proof.Machine.execMembershipWaitExpiry t s
  | .decision t received => Sys2Proof.Machine.execDecision t received s
  | .decisionTimeout t => Sys2Proof.Machine.execDecisionTimeout t s
  | .depart t v => Sys2Proof.Machine.execDepart t v s
  | .departNotice t node => Sys2Proof.Machine.execDepartNotice t node s
  | .rebuildComplete t digestsMatch => Sys2Proof.Machine.execRebuildComplete t digestsMatch s
  | .zeroInit t stack v => Sys2Proof.Machine.execZeroInit t stack v s
  | .zeroInitDone t stack => Sys2Proof.Machine.execZeroInitDone t stack s
  | .status t k => Sys2Proof.Machine.execStatus t k s
  | .authChallenge t k => Sys2Proof.Machine.execAuthChallenge t k s
  | .authRespond t k ok extension => Sys2Proof.Machine.execAuthRespond t k ok extension s
  | .authLockoutExpiry t => Sys2Proof.Machine.execAuthLockoutExpiry t s
  | .logout t k => Sys2Proof.Machine.execLogout t k s
  | .verifyFirmware t k img => Sys2Proof.Machine.execVerifyFirmware t k img s
  | .verifySignature t k n ok => Sys2Proof.Machine.execVerifySignature t k n ok s
  | .unwrapInstall t k die keyId key salt ok => Sys2Proof.Machine.execUnwrapInstall t k die keyId key salt ok s
  | .clearKeys t k => Sys2Proof.Machine.execClearKeys t k s
  | .linkSign t k data => Sys2Proof.Machine.execLinkSign t k data s
  | .linkVerify t k ok => Sys2Proof.Machine.execLinkVerify t k ok s
  | .quote t k nonce => Sys2Proof.Machine.execQuote t k nonce s
  | .random t k n => Sys2Proof.Machine.execRandom t k n s
  | .importKek t k slot id key ok => Sys2Proof.Machine.execImportKek t k slot id key ok s
  | .importAppliance t k data ok => Sys2Proof.Machine.execImportAppliance t k data ok s
  | .advanceFloor t k => Sys2Proof.Machine.execAdvanceFloor t k s
  | .servicePermit t k => Sys2Proof.Machine.execServicePermit t k s
  | .servicePermissionArrival t die => Sys2Proof.Machine.execServicePermissionArrival t die s
  | .debugUnlock t k tokenOk => Sys2Proof.Machine.execDebugUnlock t k tokenOk s
  | .zeroise t k => Sys2Proof.Machine.execZeroise t k s
  | .serviceComplete t => Sys2Proof.Machine.execServiceComplete t s
  | .environmentalFailure t temperature => Sys2Proof.Machine.execEnvironmentalFailure t temperature s
  | .firmwareLoad t v readOk img smap => Sys2Proof.Machine.execFirmwareLoad t v readOk img smap s
  | .pageInterrupt t die page => Sys2Proof.Machine.execPageInterrupt t die page s
  | .logMirrorCopy t k failAt => Sys2Proof.Machine.execLogMirrorCopy t k failAt s
  | .setCablingRecord t bytes => Sys2Proof.Machine.execSetCablingRecord t bytes s
  | .getCablingRecord t => Sys2Proof.Machine.execGetCablingRecord t s
  | .getSpeedMap t => Sys2Proof.Machine.execGetSpeedMap t s
  | .getFaultRecord t => Sys2Proof.Machine.execGetFaultRecord t s
  | .setSpeedMap t bytes => Sys2Proof.Machine.execSetSpeedMap t bytes s
  | .perstAssert t => Sys2Proof.Machine.execPerstAssert t s
  | .perstDeassert t => Sys2Proof.Machine.execPerstDeassert t s
  | .functionLevelReset t => Sys2Proof.Machine.execFunctionLevelReset t s
  | .traceArm t die v => Sys2Proof.Machine.execTraceArm t die v s
  | .traceDisarm t die v => Sys2Proof.Machine.execTraceDisarm t die v s
  | .traceRelease t die v => Sys2Proof.Machine.execTraceRelease t die v s
  | .swTrigger t die v => Sys2Proof.Machine.execSwTrigger t die v s
  | .traceTrigger t die => Sys2Proof.Machine.execTraceTrigger t die s
  | .xdieTrigger t die => Sys2Proof.Machine.execXdieTrigger t die s
  | .tracePreFilled t die => Sys2Proof.Machine.execTracePreFilled t die s
  | .traceCaptureComplete t die => Sys2Proof.Machine.execTraceCaptureComplete t die s
  | .rearmEnd t die => Sys2Proof.Machine.execRearmEnd t die s
  | .hostLinkUp t hl rate width => Sys2Proof.Machine.execHostLinkUp t hl rate width s
  | .referenceClockReturn t => Sys2Proof.Machine.execReferenceClockReturn t s
  | .droopRecovery t die => Sys2Proof.Machine.execDroopRecovery t die s
  | .continuousHealthTestFailure t => Sys2Proof.Machine.execContinuousHealthTestFailure t s

end Sys2Proof.Machine
end

