-- ==== Sys2Proof/Safety.lean ====
section
/-!
DEFINITION. Sys2Proof/Safety.lean: the terms in which claims speak of the machine: the bytes of its memories, the canonical form of its state, and
what a command leaves as it was.
-/
namespace Sys2Proof.Machine

/-! ## Memory by byte -/

/-- A byte of Tier 1, by its offset in the module's stacks. -/
def tier1Byte (s : State) (a : Nat) : Byte := mapGet s.t1 a 0#8

/-- A byte of the CXL pool. -/
def tier2Byte (s : State) (a : Nat) : Byte := mapGet s.t2 a 0#8

/-- A byte of a physical core's scratchpad. -/
def spmByteAt (s : State) (c a : Nat) : Byte := mapGet (core s c).spm a 0#8

/-- Tier 1 and the CXL pool are lists in canonical form: addresses strictly rising, no listed zero. -/
def memoryWf (s : State) : Bool := mapWf (fun _ => 0#8) s.t1 && mapWf (fun _ => 0#8) s.t2

/-- Every scratchpad is a list in canonical form. -/
def scratchpadsWf (s : State) : Bool := s.cores.all (fun p => mapWf (fun _ => 0#8) p.2.spm)

/-- Every router has five inputs, five injection queues, five grants, four failure counts and five places for flits to be sent again. -/
def routersWf (s : State) : Bool :=
  s.routers.all (fun p => decide (p.2.inputs.length = 5) && decide (p.2.inj.length = 5) && decide (p.2.granted.length = 5)
    && decide (p.2.fails.length = 4) && decide (p.2.flits.length = 5))

/-- Every byte of every memory reads as before. -/
def SameMemory (s u : State) : Prop :=
  (∀ a, tier1Byte u a = tier1Byte s a) ∧ (∀ a, tier2Byte u a = tier2Byte s a) ∧ ∀ c a, spmByteAt u c a = spmByteAt s c a

/-! ## What stays -/

/-- Every register but those of `touched` holds what it held. -/
def SameRegsBut (touched : Nat → Prop) (s u : State) : Prop := ∀ k, ¬ touched k → getReg u k = getReg s k

/-- Nothing changed but registers of `touched`, trace buffers, the count of free values and the marks of this cycle. -/
def RegsOnly (touched : Nat → Prop) (s u : State) : Prop :=
  u = { s with regs := u.regs, trc := u.trc, fresh := u.fresh, marks := u.marks } ∧ SameRegsBut touched s u


/-! ## Errors -/

/-- The registers that recording an error in a page writes. -/
def errRegs (die page k : Nat) : Prop := k = barOff die page 0x010 ∨ k = barOff die page 0x020 ∨ k = barOff die page 0x024

/-- The page took a code: ERR is set; a first error is captured, with a later one OVERRUN rises and the captured code stays (R20). -/
def CodeTaken (die page code : Nat) (s u : State) : Prop :=
  tbit (reg u die page 0x010) 0 = true ∧
    if errHeld s die page = true then
      reg u die page 0x020 = reg s die page 0x020 ∧ fld (reg u die page 0x024) 24 8 = min (fld (reg s die page 0x024) 24 8 + 1) 255
    else reg u die page 0x020 = BitVec.ofNat 32 code

/-- The page took a code with a detail (R20). -/
def ErrorTaken (die page code info : Nat) (s u : State) : Prop :=
  CodeTaken die page code s u ∧ (errHeld s die page = false → reg u die page 0x024 = BitVec.ofNat 32 info)

/-- A command that is turned away records an error in a page and changes nothing else. -/
def TurnedAway (die page code : Nat) (s u : State) : Prop := CodeTaken die page code s u ∧ RegsOnly (errRegs die page) s u

/-! ## Entries for the host -/

/-- Host memory holds bytes from an address on. -/
def HostHolds (u : State) (a : Nat) (e : List Byte) : Prop := ∀ i, i < e.length → mapGet u.host.mem (a + i) 0#8 = e.getD i 0#8

/-- An entry of 2^SIZE-entry ring registers of tracker `k` was written at the tail, which advanced by one (R253). -/
def RingTook (s u : State) (k base size tail : Nat) (e : List Byte) : Prop :=
  rq u k tail = rq s k tail + 1#32 ∧ HostHolds u (ringBase s k base + (rq s k tail).toNat % ringSize s k size * e.length) e

/-- A completion was posted at tracker `k`: written to the completion ring, or held behind earlier ones, held stream entries of its request, or a
full ring (R257, R259). -/
def CompletionPosted (s u : State) (k : Nat) (e : List Byte) : Prop :=
  if cqRoom s k = true ∧ behindStream s k e = false ∧ (tracker s k).holdC = [] then RingTook s u k 0x060 0x068 0x06C e
  else rq u k 0x06C = rq s k 0x06C ∧ (tracker u k).holdC = (tracker s k).holdC ++ [e]

/-- A message left the module by a port: it stands in the transmit queue of its class, and nothing else changed (R322, R340, R348). -/
def SentBy (s u : State) (q : Nat) (m : FabMsg) : Prop :=
  u = { s with lastSent := some m, lastPort := some q, ports := u.ports } ∧ (portOf u q).tx = queueTx (portOf s q).tx s.now m ∧
    ∀ k, k ≠ q → portOf u k = portOf s k

/-- A slot change of a job slot to a state, with a length, waits in the node's change queue of die 0 (R168). -/
def ChangeQueued (s u : State) (job slot st len : Nat) : Prop :=
  ∃ c : SlotChg, (frsOf u 0).chgQueue = (frsOf s 0).chgQueue ++ [c] ∧ c.job = job ∧ c.slot = slot ∧ c.newState = st ∧ c.len = len

/-! ## Commands of a core's engines -/

/-- The scratchpad bytes and accumulators of a core, and the memories outside the core, are those of another state. -/
def SameStores (s u : State) : Prop := SameMemory s u ∧ u.t1line = s.t1line ∧ ∀ c, (core u c).acc0 = (core s c).acc0 ∧ (core u c).acc1 = (core s c).acc1

/-- The head of queue `e` meets every condition of issue in this cycle (R59, R60, R64, R82, R83): its core runs, it is not halted, its job is
not stopped, the pace level of the compute domain allows it (R405), the engine accepts it, its time and dependency conditions hold, it has no fault, its context is not filling and the scoreboard
has room and no conflict. -/
structure HeadIssues (s : State) (c e : Nat) (ecc : Ecc) (ent : QEntry) (ready : State → BitVec 512 → Bool) (coded : BitVec 512 → Nat)
    (ranges : BitVec 512 → List Rng) (remote : State → BitVec 512 → Bool) : Prop where
  head : (queueOf s c e).entries.head? = some ent
  runs : (core s c).clk.mode = .run
  whole : isHalted s (coreDie c) (corePage c 0) = false ∧ ecc.entryBad = false
  cycle : (queueOf s c e).evalNext ≤ coreCycle s c
  job : jobStopped s c (coreCycle s c) (dJob ent.desc) = false
  paced : (dLocked ent.desc || ownsStage s c || paceAllows s 0 (coreCycle s c)) = true
  accepts : ready s ent.desc = true ∧ timeMet s c ent = true ∧ depMet (core s c) e ent = true
  sound : firstFault s c ent.desc (coded ent.desc) (ranges ent.desc) (remote s ent.desc) = 0
  filled : ctxFilling s c (dCtx ent.desc) (coreCycle s c) = false
  free : (absRanges s c ent.desc (ranges ent.desc)).any (sbConflict (sbVisible (core s c) (coreCycle s c))) = false
  room : (sbVisible (core s c) (coreCycle s c)).length + (absRanges s c ent.desc (ranges ent.desc)).length ≤ 64

/-- The head of queue `e` has left it and is in execution: ISS has risen, the engine is occupied for `occ` cycles, and the command retires `lat`
cycles after issue, not before the engine's earlier ones (R58, R62, R81). -/
def TakenIntoExecution (s u : State) (c e : Nat) (ent : QEntry) (occ lat : Nat) : Prop :=
  (queueOf u c e).entries = (queueOf s c e).entries.tail ∧
  (queueOf u c e).iss = ((queueOf s c e).iss + 1) % 2 ^ 16 ∧
  (queueOf u c e).freeAt = coreCycle s c + occ ∧
  ∃ x : Exec, (queueOf u c e).exec = (queueOf s c e).exec ++ [x] ∧ x.desc = ent.desc ∧
    x.retire = (if e = 2 then coreCycle s c + lat else max (coreCycle s c + lat) (queueOf s c e).lastRetire)

/-! ## Entries of a frame program -/

/-- The segment position of a die's sequencer at this moment (R155). -/
def entryPlace (s : State) (die : Nat) : Frs :=
  advanceSeg (progBank s die) (baseTicks s die) (frameTick s die) ((progBank s die).segs.length + 1) (frsOf s die)

/-- The mesh cycle edge at which an entry of a die's program starts that starts now (R159). -/
def entryEdge (s : State) (die : Nat) : Time := frameEdge (frsOf s die) s.now

/-- The state at that edge. -/
def edgeState (s : State) (die : Nat) : State := { s with now := entryEdge s die }

/-- The next entry of a die's program is `e`, of operation `op`, and starts at the edge of this mesh cycle (R157, R159): frames run in step, the
sequencer is not halted, the entry's tick has come, its predecessor has started, and the base frame has not ended. -/
structure EntryStarts (s : State) (die op : Nat) (e : BitVec 128) : Prop where
  runs : frsRunning s die = true ∧ outOfStep s die = false ∧ isHalted s die 1 = false
  next : ((segEntries (progBank s die) (segOf (progBank s die) (entryPlace s die).seg)).drop (entryPlace s die).idx).head? = some e
  op : entOp e = op
  time : (frsOf s die).began + 64 * entAt e ≤ entryEdge s die ∧ (frsOf s die).startNext ≤ entryEdge s die ∧
    entryEdge s die < (frsOf s die).began + 64 * baseTicks s die

end Sys2Proof.Machine
end

