-- ==== Sys2Proof/Certificates/Slice0/Obligations.lean ====
section
/-!
DEFINITION. Sys2Proof/Certificates/Slice0/Obligations.lean: what is claimed of the module, for the provers.
-/
open Sys2Proof Sys2Proof.Machine

/-- A step performs the command at the front of the queue on the state with the rest of the queue; with none waiting its ports serve the link
positions that have started (the model's own choice, log entries 2 and 102), and with no port transmitting it idles (R10, R21). -/
def Obligations.StepPerformsTheFrontCommand : Prop :=
  (∀ (c : Instr) (rest : List Instr) (s : State), s.pending = c :: rest → step s = exec c { s with pending := rest }) ∧
  ∀ s : State, s.pending = [] → step s = .next (serveLinks s) ∧ ((∀ p < 42, transmits s p = false) → step s = .next s)

/-- Every command completes in every state, time never runs back, and the SVN floor never falls (R480). -/
def Obligations.EveryCommandCompletes : Prop :=
  ∀ (i : Instr) (s : State), ∃ u, exec i s = .next u ∧ u.pending = s.pending ∧ u.bench = s.bench ∧ s.now ≤ u.now ∧ s.svnFloor ≤ u.svnFloor

/-- The module begins in STANDBY with its auxiliary rail alone, every register at its reset value, and well-formed memories (R12, R390, R391,
R510, R511, R512, R535, R536). -/
def Obligations.ResetIsStandby : Prop :=
  State.reset.pending = [] ∧ powerStateNow State.reset = 1 ∧ railOn State.reset .aux = true ∧
  (∀ die page, reachable State.reset die page = true → die = 90) ∧ reachable State.reset 90 9 = true ∧
  (∀ k, getReg State.reset k = regReset false k) ∧
  (∀ die page, die < 100 → page < 256 → (pageBlock die page).isSome = true → reg State.reset die page 0x00C = 0x30#32 ∧ reg State.reset die page 0x008 = 0#32) ∧
  reg State.reset 0 8 0x0A0 = 2#32 ∧ reg State.reset 0 8 0x0AC = 0x1000#32 ∧ reg State.reset 99 8 0x0C0 = 0x101#32 ∧ reg State.reset 98 8 0x040 = 1#32 ∧
  reg State.reset 55 4 0x048 = 0x800#32 ∧ memoryWf State.reset = true ∧ scratchpadsWf State.reset = true ∧ routersWf State.reset = true

/-- Every step keeps the memories in canonical form, the scratchpads too, and every router with its five inputs (R31, R46, R276, R480). -/
def Obligations.StepsKeepTheStateWellFormed : Prop :=
  ∀ s u : State, step s = .next u →
    (memoryWf s = true → memoryWf u = true) ∧ (scratchpadsWf s = true → scratchpadsWf u = true) ∧ (routersWf s = true → routersWf u = true) ∧
      s.svnFloor ≤ u.svnFloor

/-- A register of the header acts as its access code states; a locked RW register discards a write (R10, R12, R15, R21). -/
def Obligations.RegisterWritesFollowTheirAccessCodes : Prop :=
  ∀ (t : Time) (who : Requester) (die : Die) (page : Fin 256) (v : Word) (s : State),
    let s1 := advance s t
    let d := die.val
    let p := page.val
    reachable s1 d p = true → sealedPage d p = false → ¬ (d = 9 ∧ p = 8 ∧ trunkOf who = none) →
    (whoReaches s1 who (barOff d p 0x014) = true →
      ∃ u, exec (.registerWrite t who (barOff d p 0x014) v) s = .next u ∧ reg u d p 0x014 = v &&& irqMask d p ∧
        RegsOnly (fun k => k = barOff d p 0x014) s1 u) ∧
    (∀ off ∈ [0x000, 0x004, 0x00C, 0x020, 0x024], whoReaches s1 who (barOff d p off) = true →
      ∃ u, exec (.registerWrite t who (barOff d p off) v) s = .next u ∧ RegsOnly (fun _ => False) s1 u) ∧
    (∀ off b, pageBlock d p = some b → 0x040 ≤ off → off < 0x1000 → off % 4 = 0 → regRw b d off = true →
      pageLocked s1 d p = true → whoReaches s1 who (barOff d p off) = true →
      ∃ u, exec (.registerWrite t who (barOff d p off) v) s = .next u ∧ ErrorTaken d p 0x1003 off s1 u ∧ RegsOnly (errRegs d p) s1 u)

/-- A register access that is not a naturally aligned word records 0x1001; a read of it returns all ones (R11). -/
def Obligations.MisalignedAccessIsRecordedAndDiscarded : Prop :=
  (∀ (t : Time) (die : Die) (page : Fin 256) (off : Fin 4096) (s : State), pageBlock die.val page.val = none →
    exec (.loReadLatch t die page off) s = .next { advance s t with lastRead := 0xFFFFFFFF#32 }) ∧
  ∀ (t : Time) (off size : Nat) (isWrite : Bool) (s : State), ¬ (size = 4 ∧ off % 4 = 0) → 1 ≤ size →
    let s1 := advance s t
    let d := off / 0x100000
    let p := off / 0x1000 % 256
    (d < 100 → reachable s1 d p = true →
      ∃ u, exec (.misalignedRegisterAccess t off size isWrite) s = .next u ∧
        ErrorTaken d p 0x1001 (off % 4096 + min (size - 1) 15 * 4096 + (if isWrite then 65536 else 0)) s1 u ∧
        SameRegsBut (errRegs d p) s1 u ∧ SameMemory s u ∧ u.lastRead = if isWrite then s.lastRead else 0xFFFFFFFF#32) ∧
    (¬ (d < 100 ∧ reachable s1 d p = true) →
      ∃ u, exec (.misalignedRegisterAccess t off size isWrite) s = .next u ∧
        u = { s1 with lastRead := if isWrite then s.lastRead else 0xFFFFFFFF#32 })

/-- SOFT_RESET clears the header's events and applies the rest of the write; it resets what R538 lists of an MVE and a DMR page (R13, R14, R538). -/
def Obligations.SoftResetClearsThePageHeader : Prop :=
  ∀ (t : Time) (die : Die) (page : Fin 256) (v : Word) (s : State),
    let s1 := advance s t
    let d := die.val
    let p := page.val
    reachable s1 d p = true → sealedPage d p = false → pageLocked s1 d p = false → tbit v 1 = true → fld v 4 4 ≤ 3 →
    ∃ u, exec (.softReset t die page v) s = .next u ∧
      reg u d p 0x010 = 0#32 ∧ reg u d p 0x020 = 0#32 ∧ reg u d p 0x024 = 0#32 ∧ tbit (reg u d p 0x00C) 2 = false ∧
      mapGet u.cnt (pageKey d p * 2) 0#64 = 0#64 ∧ mapGet u.cnt (pageKey d p * 2 + 1) 0#64 = 0#64 ∧
      tbit (reg u d p 0x008) 0 = tbit v 0 ∧ powerReq u d p = fld v 4 4 ∧
      (p = 0 → (router u d).bankA.runs = [] ∧ (router u d).bankB.runs = [] ∧ (router u d).protA.entries = [] ∧ (router u d).protB.entries = [] ∧
        reg u d p 0x040 = 0#32 ∧ reg u d p 0x044 = reg s1 d p 0x044) ∧
      (pageBlock d p = some .mve → (core u (pageCore d p)).mveHigh = 0 ∧ reg u d p 0x04C = 0#32 ∧
        SameMemory (settleCnt (traceRec s1 d 5 0) d p) u)

/-- POWER_REQ, PAGE_LOCK, counter clears and counter reads do what R14 to R17 say, at every page and value (R13 to R17, R172, R367, R418, R536, R537). -/
def Obligations.HeaderControlsActAsStated : Prop :=
  (∀ (t : Time) (die : Die) (page : Fin 256) (v : Word) (s : State),
    let s1 := advance s t
    let d := die.val
    let p := page.val
    let q := fld v 4 4
    let differs := decide (fld v 0 1 ≠ fld (reg s1 d p 0x008) 0 1) || tbit v 1
    let s2 := settleCnt (traceRec s1 d 5 0) d p
    exec (.powerReqWrite t die page v) s = exec (.softReset t die page v) s ∧
    (∀ i ∈ [Instr.powerReqWrite t die page v, .pageLock t die page v, .cntClr t die page v],
      (reachable s1 d p = false → exec i s = .next s1) ∧
      (reachable s1 d p = true → sealedPage d p = true → ∃ u, exec i s = .next u ∧ TurnedAway 9 8 0x8054 s1 u)) ∧
    (reachable s1 d p = true → sealedPage d p = false →
      (pageLocked s1 d p = false → tbit v 1 = false → q ≤ 3 →
        ∃ u, exec (.powerReqWrite t die page v) s = .next u ∧ powerReq u d p = q ∧ tbit (reg u d p 0x008) 0 = tbit v 0 ∧
          powerState u d p = powerState s1 d p ∧ SameRegsBut (fun k => k = barOff d p 0x008) s1 u ∧ SameMemory s u) ∧
      (pageLocked s1 d p = false → tbit v 1 = false → q > 3 →
        ∃ u, exec (.powerReqWrite t die page v) s = .next u ∧ CodeTaken d p 0x1002 s1 u ∧ powerReq u d p = powerReq s1 d p ∧
          tbit (reg u d p 0x008) 0 = tbit v 0 ∧ SameMemory s u) ∧
      (pageLocked s1 d p = false → tbit v 1 = true → q > 3 →
        ∃ u, exec (.powerReqWrite t die page v) s = .next u ∧ reg u d p 0x020 = 0x1002#32 ∧ powerReq u d p = powerReq s1 d p ∧
          tbit (reg u d p 0x008) 0 = tbit v 0) ∧
      (pageLocked s1 d p = true → differs = false → q ≤ 3 →
        ∃ u, exec (.powerReqWrite t die page v) s = .next u ∧ powerReq u d p = q ∧ powerState u d p = powerState s1 d p ∧
          SameRegsBut (fun k => k = barOff d p 0x008) s1 u ∧ SameMemory s u) ∧
      (pageLocked s1 d p = true → differs = false → q > 3 →
        ∃ u, exec (.powerReqWrite t die page v) s = .next u ∧ TurnedAway d p 0x1002 s1 u) ∧
      (pageLocked s1 d p = true → differs = true → q ≤ 3 →
        ∃ u, exec (.powerReqWrite t die page v) s = .next u ∧ CodeTaken d p 0x1003 s1 u ∧ powerReq u d p = q ∧
          SameRegsBut (fun k => k = barOff d p 0x008 ∨ errRegs d p k) s1 u ∧ SameMemory s u) ∧
      (pageLocked s1 d p = true → differs = true → q > 3 →
        ∃ u, exec (.powerReqWrite t die page v) s = .next u ∧ (errHeld s1 d p = false → reg u d p 0x020 = 0x1003#32) ∧
          RegsOnly (errRegs d p) s1 u) ∧
      (∃ u, exec (.pageLock t die page v) s = .next u ∧
        reg u d p 0x01C = (if tbit v 0 then 1#32 else reg s1 d p 0x01C) ∧ RegsOnly (fun k => k = barOff d p 0x01C) s1 u) ∧
      (∃ u, exec (.cntClr t die page v) s = .next u ∧ reg u d p 0x02C = v &&& 3#32 ∧
        (∀ n, n < 2 → mapGet u.cnt (pageKey d p * 2 + n) 0#64 = (if tbit v (4 + n) then 0#64 else mapGet s2.cnt (pageKey d p * 2 + n) 0#64) ∧
          tbit (reg u d p 0x010) (n + 1) =
            (tbit (reg s2 d p 0x010) (n + 1) &&
              !(tbit v (4 + n) && decide ((cntMark (pageMark s2 d p) n).wrap = some (pageCycle s2 d p))))) ∧
        (∀ b, b ≠ 1 → b ≠ 2 → tbit (reg u d p 0x010) b = tbit (reg s2 d p 0x010) b) ∧
        SameRegsBut (fun k => k = barOff d p 0x02C ∨ k = barOff d p 0x010) s2 u ∧ SameMemory s2 u))) ∧
  (∀ (t : Time) (die : Die) (page : Fin 256) (s : State),
    let s1 := advance s t
    let d := die.val
    let p := page.val
    (reachable s1 d p = true → inTransition s1 d p = true →
      ∃ u, exec (.powerTransitionComplete t die page) s = .next u ∧ powerState u d p = mapGet s1.trans (pageKey d p) (powerReq s1 d p) % 16 ∧
        powerReq u d p = powerReq s1 d p ∧ SameRegsBut (fun k => k = barOff d p 0x00C) s1 u ∧ SameMemory s u) ∧
    (reachable s1 d p = false ∨ inTransition s1 d p = false → exec (.powerTransitionComplete t die page) s = .next s1)) ∧
  (∀ (t : Time) (die : Die) (page : Fin 256) (off : Fin 4096) (s : State),
    let s1 := advance s t
    let d := die.val
    let p := page.val
    let reads (lo : Word) (f : State → Prop) : Prop := ∃ u, exec (.loReadLatch t die page off) s = .next u ∧ u.lastRead = lo ∧ f u
    (reachable s1 d p = false → exec (.loReadLatch t die page off) s = .next { s1 with lastRead := 0xFFFFFFFF#32 }) ∧
    (reachable s1 d p = true →
      (∀ n, n < 2 → off.val = 0x030 + 8 * n → pageBlock d p ≠ none →
        let s2 := settleCnt s1 d p
        let c := (counter s2 d p n).toNat
        reads (BitVec.ofNat 32 (c % 2 ^ 32)) (fun u => mapGet u.cntLatch (pageKey d p * 2 + n) 0#32 = BitVec.ofNat 32 (c / 2 ^ 32) ∧
          u = { s2 with lastRead := u.lastRead, cntLatch := u.cntLatch })) ∧
      (∀ n, n < 2 → d = 0 → p = 1 → off.val = 0x0D4 + 8 * n →
        let fr := frsOf s1 0
        let c := mapGet (if n = 0 then fr.acctSteps else fr.acctSlots) (fld (reg s1 0 1 0x0D0) 0 8) 0
        reads (BitVec.ofNat 32 c) (fun u => mapGet (frsOf u 0).acctLatch n 0#32 = BitVec.ofNat 32 (c / 2 ^ 32) ∧
          u = { s1 with lastRead := u.lastRead, frs := u.frs })) ∧
      (pageBlock d p = some .tcc → off.val = 0x0B0 →
        reads (reg s1 d 8 0x0B0) (fun u => reg u d 8 0x0B4 = BitVec.ofNat 32 ((nth s1.host.logN (dieOrd d) 0 - 1) / 2 ^ 32) ∧
          SameRegsBut (fun k => k = barOff d 8 0x0B4) s1 u ∧ SameMemory s u)) ∧
      (d = 90 → p = 9 → off.val = 0x0B0 →
        let e := s1.power.energy / 100
        reads (BitVec.ofNat 32 e) (fun u => reg u 90 9 0x0B4 = BitVec.ofNat 32 (e / 2 ^ 32) ∧
          SameRegsBut (fun k => k = barOff 90 9 0x0B4) s1 u ∧ SameMemory s u)) ∧
      (∀ n, n < 6 → d = 90 → p = 9 → off.val = 0x0C0 + 8 * n →
        reads (Config.freeWord 418 off.val s1.fresh) (fun u => reg u 90 9 (off.val + 4) = Config.freeWord 418 (off.val + 4) (s1.fresh + 1) ∧
          SameRegsBut (fun k => k = barOff 90 9 (off.val + 4)) s1 u ∧ SameMemory s u)))) ∧
  (∀ (s : State) (die page code n i : Nat), i < 2 → tbit (reg s die page 0x02C) i = true → fld (reg s die page 0x028) (8 * i) 8 = code →
    (cntMark (pageMark s die page) i).clr ≠ some (pageCycle s die page) → (pageMark s die page).cfgCyc ≠ some (pageCycle s die page) →
    let u := countOne s die page code n i
    let old := (mapGet s.cnt (pageKey die page * 2 + i) 0#64).toNat
    mapGet u.cnt (pageKey die page * 2 + i) 0#64 = BitVec.ofNat 64 (old + n) ∧
      (old + n ≥ 2 ^ 64 → tbit (reg u die page 0x010) (i + 1) = true))

/-- An IRQ_STATUS bit set in the cycle of a clear stays set; the enable masks only the output; IRQ_FORCE needs the permission (R18, R19). -/
def Obligations.StatusBitsStickAndForceNeedsPermission : Prop :=
  (∀ (s : State) (die page bit : Nat), bit < 32 → tbit (reg (setIrq s die page bit) die page 0x010) bit = true) ∧
  ∀ (t : Time) (die : Die) (page : Fin 256) (v : Word) (s : State),
    let s1 := advance s t
    let d := die.val
    let p := page.val
    (reg s1 d p 0x010 &&& reg s1 d p 0x014 = 0#32 → exec (.pageInterrupt t die page) s = .next s1) ∧
    (reachable s1 d p = true → sealedPage d p = false →
      ((pageMark s1 d p).irqCyc ≠ some (pageCycle s1 d p) →
        ∃ u, exec (.irqStatusClear t die page v) s = .next u ∧ reg u d p 0x010 = reg s1 d p 0x010 &&& ~~~v ∧
          (tbit v 0 = true → reg u d p 0x020 = 0#32 ∧ reg u d p 0x024 = 0#32) ∧ SameMemory s u) ∧
      ((pageMark s1 d p).irqCyc = some (pageCycle s1 d p) →
        ∃ u, exec (.irqStatusClear t die page v) s = .next u ∧
          reg u d p 0x010 = reg s1 d p 0x010 &&& ~~~(v &&& ~~~(pageMark s1 d p).irq)) ∧
      (hasService s1 d = true →
        ∃ u, exec (.irqForce t die page v) s = .next u ∧ reg u d p 0x010 = reg s1 d p 0x010 ||| (v &&& irqMask d p) ∧
          RegsOnly (fun k => k = barOff d p 0x010) s1 u) ∧
      (hasService s1 d = false → v &&& irqMask d p ≠ 0#32 →
        ∃ u, exec (.irqForce t die page v) s = .next u ∧ TurnedAway d p 0x8001 s1 u))

/-- The element-wise VXE commands write S0 op S1 element by element and leave all else of memory alone (R62, R66, R73, R81, R99, R540, R541). -/
def Obligations.VxeElementwiseResults : Prop :=
  ∀ p ∈ ([(.add, 0x40, fun a b _ => f32add a b), (.sub, 0x41, fun a b _ => f32sub a b), (.mul, 0x42, fun a b _ => f32mul a b),
      (.fma, 0x43, fun a b z => f32fma a b z), (.max, 0x44, fun a b _ => f32max a b), (.min, 0x45, fun a b _ => f32min a b),
      (.exp, 0x50, fun a _ _ => halfRate 0x50 a), (.recip, 0x51, fun a _ _ => halfRate 0x51 a), (.rsqrt, 0x52, fun a _ _ => halfRate 0x52 a),
      (.tanh, 0x53, fun a _ _ => halfRate 0x53 a), (.silu, 0x54, fun a _ _ => halfRate 0x54 a), (.gelu, 0x55, fun a _ _ => halfRate 0x55 a),
      (.convert, 0x48, fun a _ _ => a), (.scale, 0x46, fun a b _ => f32mul a b)] :
      List ((Time → PhysCore → Ecc → Instr) × Nat × (Word → Word → Word → Word))),
  ∀ (t : Time) (c : PhysCore) (ecc : Ecc) (ent : QEntry) (s : State),
    let s1 := settle (advance s t) c.val
    let d := ent.desc
    dOpcode d = p.2.1 → HeadIssues s1 c.val 1 ecc ent (fun u _ => vxeReady u c.val) vxeCoded vxeRanges (fun _ _ => false) →
    let x := core (applyEcc s1 c.val ecc) c.val
    let src := seenCore x (coreCycle s1 c.val)
    let dl := bankDelay (core s1 c.val) 2 ecc.met
    let base := ctxBase s1 c.val (dCtx d)
    let a := absTile (vxeS0 d) base
    let b := absTile (vxeS1 d) base
    let z := absTile (vxeD d) base
    let row (r : Nat) : RowOut :=
      convRow z.fmt z.sc (if p.2.1 = 0x48 then rndOf (vxeImm d).toNat else .nearestEven) (decide (p.2.1 = 0x48) && tbit (vxeImm d) 2)
        ((upFrom 0 (vxeC d)).map (fun i =>
          if colActive d (vxeG d) i = true then
            some (f32dec (p.2.2 (srcWord src a (bcastRow (s0Bcast d) r) i)
              (if p.2.1 = 0x46 then vxeImm d else srcWord src b (bcastRow (s1Bcast d) r) i) (srcWord src z r i)))
          else none))
    ∃ u, exec (p.1 t c ecc) s = .next u ∧
      TakenIntoExecution s1 u c.val 1 ent (vxeOcc d + dl) (2 + vxePipe d + vxeOcc d + dl) ∧
      (core u c.val).spm = (foldState (fun y r => writeRowOut y z r (row r) (vxeRowPoison d src a b z r)) x (vxeRows d)).spm ∧
      u.t1 = s.t1 ∧ u.t2 = s.t2 ∧ (core u c.val).acc0 = x.acc0 ∧ (core u c.val).acc1 = x.acc1

/-- The VXE reductions write one value a row, by the fixed tree order; NORM2 writes D[0][0] (R62, R74, R81, R541). -/
def Obligations.VxeReductionResults : Prop :=
  ∀ (t : Time) (c : PhysCore) (ecc : Ecc) (ent : QEntry) (s : State),
    let s1 := settle (advance s t) c.val
    let d := ent.desc
    HeadIssues s1 c.val 1 ecc ent (fun u _ => vxeReady u c.val) vxeCoded vxeRanges (fun _ _ => false) →
    let x := core (applyEcc s1 c.val ecc) c.val
    let src := seenCore x (coreCycle s1 c.val)
    let dl := bankDelay (core s1 c.val) 2 ecc.met
    let base := ctxBase s1 c.val (dCtx d)
    let a := absTile (vxeS0 d) base
    let z := absTile (vxeD d) base
    let one (o : Option Word) : RowOut := { codes := [o.map BitVec.toNat], scales := [], events := [] }
    let done (i : Instr) (f : Nat → RowOut) : Prop :=
      ∃ u, exec i s = .next u ∧ TakenIntoExecution s1 u c.val 1 ent (vxeOcc d + dl) (2 + vxePipe d + vxeOcc d + dl) ∧
        (core u c.val).spm = (foldState (fun y r => writeRowOut y z r (f r) (vxeRowPoison d src a (absTile (vxeS1 d) base) z r)) x (vxeRows d)).spm ∧
        u.t1 = s.t1 ∧ u.t2 = s.t2 ∧ (core u c.val).acc0 = x.acc0 ∧ (core u c.val).acc1 = x.acc1
    (dOpcode d = 0x58 → done (.rowSum t c ecc) (fun r => one (some ((reduceRow f32add (vxeLanes d) (srcRow d src a r)).getD 0#32)))) ∧
    (dOpcode d = 0x59 → done (.rowMax t c ecc) (fun r => one (some ((reduceRow f32max (vxeLanes d) (srcRow d src a r)).getD 0xFF800000#32)))) ∧
    (dOpcode d = 0x5A → done (.rowSqsum t c ecc)
      (fun r => one (some ((reduceRow f32add (vxeLanes d) ((srcRow d src a r).map (fun o => o.map (fun v => f32mul v v)))).getD 0#32)))) ∧
    (dOpcode d = 0x5B → done (.cumsum t c ecc)
      (fun r => { codes := (cumsumRow none (srcRow d src a r)).map (fun o => o.map BitVec.toNat), scales := [], events := [] })) ∧
    (dOpcode d = 0x5C →
      let sum := foldState (fun acc r => foldState (combine f32add) acc (groupResults f32add (vxeLanes d) (squares (srcRow d src a r)))) none (vxeRows d)
      ∃ u, exec (.norm2 t c ecc) s = .next u ∧ TakenIntoExecution s1 u c.val 1 ent (vxeOcc d + dl) (2 + vxePipe d + vxeOcc d + dl) ∧
        (core u c.val).spm =
          (writeRowOut x z 0 (one (some ((sum.map f32sqrt).getD 0#32)))
            ((vxeRows d).any (fun r => tileRowPoisoned src a (bcastRow (s0Bcast d) r) (vxeCols d)))).spm ∧
        u.t1 = s.t1 ∧ u.t2 = s.t2)

/-- TOPK, GATHER_ROWS, RNG, MATCH and the VXE's NOP write what R74, R75, R262 and R540 give (R62, R74, R75, R81, R262, R540). -/
def Obligations.VxeSelectionResults : Prop :=
  ∀ (t : Time) (c : PhysCore) (ecc : Ecc) (ent : QEntry) (s : State),
    let s1 := settle (advance s t) c.val
    let d := ent.desc
    HeadIssues s1 c.val 1 ecc ent (fun u _ => vxeReady u c.val) vxeCoded vxeRanges (fun _ _ => false) →
    let x := core (applyEcc s1 c.val ecc) c.val
    let src := seenCore x (coreCycle s1 c.val)
    let dl := bankDelay (core s1 c.val) 2 ecc.met
    let base := ctxBase s1 c.val (dCtx d)
    let a := absTile (vxeS0 d) base
    let b := absTile (vxeS1 d) base
    let z := absTile (vxeD d) base
    let cols := upFrom 0 (vxeC d)
    let done (i : Instr) (y : CoreSt) : Prop :=
      ∃ u, exec i s = .next u ∧ TakenIntoExecution s1 u c.val 1 ent (vxeOcc d + dl) (2 + vxePipe d + vxeOcc d + dl) ∧
        (core u c.val).spm = y.spm ∧ u.t1 = s.t1 ∧ u.t2 = s.t2
    let rows (f : Nat → RowOut) : CoreSt := foldState (fun y r => writeRowOut y z r (f r) (vxeRowPoison d src a b z r)) x (vxeRows d)
    (dOpcode d = 0x60 → done (.topk t c ecc) (rows (fun r =>
      { codes := (topkRow (vxeImm d).toNat ((cols.filter (colActive d (vxeG d))).map (fun i => (i, srcWord src a (bcastRow (s0Bcast d) r) i)))).map
          (fun w => some w.toNat), scales := [], events := [] }))) ∧
    (dOpcode d = 0x61 → done (.gatherRows t c ecc) (gatherRows d src a b z (applyEcc s1 c.val ecc).fresh (vxeRows d) { x := x, events := [], poison := false }).1.x) ∧
    (dOpcode d = 0x62 → done (.rng t c ecc) (rows (fun r =>
      convRow z.fmt z.sc .nearestEven false (cols.map (fun i =>
        if colActive d (vxeG d) i = true then some (f32dec (rngValue (rawWord src a r 0) (rawWord src a r 1) (rawWord src a r 2) i)) else none))))) ∧
    (dOpcode d = 0x63 → done (.matchEntries t c ecc) (rows (fun r =>
      convRow z.fmt z.sc .nearestEven false (cols.map (fun i =>
        if colActive d (vxeG d) i = true then
          some (f32dec (if (upFrom 0 (vxeImm d).toNat).any (fun j => decide (rawWord src b r j = rawWord src a (bcastRow (s0Bcast d) r) i))
            then f32ofNat 1 else 0#32))
        else none))))) ∧
    (dOpcode d = 0x7F → done (.vxeNop t c ecc) x)

/-- MMA accumulates the exact products group by group; ACC_ZERO clears a set; ACC_STORE writes the scaled, biased set (R62, R67, R69, R71, R72,
R81, R107). -/
def Obligations.MxeCommandResults : Prop :=
  ∀ (t : Time) (c : PhysCore) (ecc : Ecc) (ent : QEntry) (s : State),
    let s1 := settle (advance s t) c.val
    let d := ent.desc
    HeadIssues s1 c.val 0 ecc ent (fun u e => mxeReady u c.val e) mxeCoded mxeRanges (fun _ _ => false) →
    let x := core (applyEcc s1 c.val ecc) c.val
    let src := seenCore x (coreCycle s1 c.val)
    let dl := bankDelay (core s1 c.val) 1 ecc.met
    let base := ctxBase s1 c.val (dCtx d)
    let sel := accSel d
    let taken (u : State) : Prop := TakenIntoExecution s1 u c.val 0 ent (mxeOcc d + dl) (2 + mxePipe d + mxeOcc d + dl) ∧ u.t1 = s.t1 ∧ u.t2 = s.t2
    (dOpcode d = 0x00 → ∃ u, exec (.mma t c ecc) s = .next u ∧ taken u ∧ (core u c.val).spm = x.spm ∧
      (∀ r ∈ mxeRows d, ∀ n ∈ mxeCols d,
        accGet (core u c.val) sel r n = mmaGroups src (tileAt (mmaA d) base) (tileAt (mmaB d) base) r n (mmaGroup d) (mmaK d) (mmaK d + 1) 0
          (if tbit d (6 * 32 + 29) = true then 0#32 else accGet x sel r n)) ∧
      accOf (core u c.val) (!sel) = accOf x (!sel)) ∧
    (dOpcode d = 0x01 → ∃ u, exec (.accStore t c ecc) s = .next u ∧ taken u ∧ accOf (core u c.val) false = accOf x false ∧
      accOf (core u c.val) true = accOf x true ∧
      (storePaged d = false →
        (core u c.val).spm = (foldState (fun y r => writeRowOut y (tileAt (storeC d) base) r
          (convRow (df d 2 25 4) (df d 2 29 2) .nearestEven true ((upFrom 0 (mxeN d)).map (fun n =>
            if colActive d 1 n = true then
              some (f32dec (if tbit d (7 * 32 + 25) = true then f32add (f32mul (accGet x sel r n) (dw d 4)) (BitVec.ofNat 32 (spmNum src (base + df d 7 0 25 + 4 * n) 4))
                else f32mul (accGet x sel r n) (dw d 4)))
            else none)))
          (accPoisoned x sel || biasPoisoned d base src)) x (mxeRows d)).spm) ∧
      (storePaged d = true →
        (core u c.val).spm = (foldState (fun y r =>
          match pagedRow d base (ctxBound s1 c.val (dCtx d)) src r with
          | .dropped _ => y
          | .at e z =>
            (if df d 2 29 2 = 0 then writeCodes y (df d 2 25 4) e (storeRow d base src r).codes (accPoisoned x sel || biasPoisoned d base src)
             else spmWriteMask (writeCodes y (df d 2 25 4) e (storeRow d base src r).codes (accPoisoned x sel || biasPoisoned d base src)) z
               (scaleRowBytes (df d 2 29 2) (storeRow d base src r).scales) (accPoisoned x sel || biasPoisoned d base src))) x (mxeRows d)).spm)) ∧
    (dOpcode d = 0x02 → ∃ u, exec (.accZero t c ecc) s = .next u ∧ taken u ∧ (core u c.val).spm = x.spm ∧
      (∀ r n, accGet (core u c.val) sel r n = 0#32) ∧ accPoisoned (core u c.val) sel = false ∧ accOf (core u c.val) (!sel) = accOf x (!sel)) ∧
    (dOpcode d = 0x3F → ∃ u, exec (.mxeNop t c ecc) s = .next u ∧ taken u ∧ (core u c.val).spm = x.spm ∧
      accOf (core u c.val) false = accOf x false ∧ accOf (core u c.val) true = accOf x true)

/-- FILL and COPY of the MOU write LENGTH bytes at the destination and no other byte; NOP writes none; delays at the banks lengthen each (R47, R48, R49,
R62, R80, R81). -/
def Obligations.MouCommandResults : Prop :=
  ∀ (t : Time) (c : PhysCore) (ecc : Ecc) (ent : QEntry) (s : State),
    let s1 := settle (advance s t) c.val
    let d := ent.desc
    HeadIssues s1 c.val 3 ecc ent (fun u _ => mouReady u c.val) mouCoded mouRanges (fun _ _ => false) →
    let x := core (applyEcc s1 c.val ecc) c.val
    let src := seenCore x (coreCycle s1 c.val)
    let dl := bankDelay (core s1 c.val) 4 ecc.met
    let base := ctxBase s1 c.val (dCtx d)
    let n := mouLen d
    let done (i : Instr) (occ lat : Nat) (f : Nat → Byte) : Prop :=
      ∃ u, exec i s = .next u ∧ TakenIntoExecution s1 u c.val 3 ent (occ + dl) (lat + dl) ∧
        (∀ k, spmByteAt u c.val k = f k) ∧ u.t1 = s.t1 ∧ u.t2 = s.t2 ∧ (core u c.val).acc0 = x.acc0 ∧ (core u c.val).acc1 = x.acc1
    let inDest (k : Nat) : Prop := base + mouD d ≤ k ∧ k < base + mouD d + n
    (dOpcode d = 0xC0 → done (.fill t c ecc) (ceilDiv n 2048) (8 + ceilDiv n 2048) (fun k =>
      if base + mouD d ≤ k ∧ k < base + mouD d + n then BitVec.ofNat 8 (mouPattern d / 256 ^ ((k - (base + mouD d)) % 4)) else spmByteAt s1 c.val k)) ∧
    (dOpcode d = 0xC1 → done (.mouCopy t c ecc) (ceilDiv n 1024) (14 + ceilDiv n 1024) (fun k =>
      if base + mouD d ≤ k ∧ k < base + mouD d + n then spmGet src (base + mouS d + (k - (base + mouD d))) else spmByteAt s1 c.val k)) ∧
    (dOpcode d = 0xC1 → (core s1 c.val).before.cyc ≠ coreCycle s1 c.val → ecc.badWords = [] →
      ∀ k, inDest k → spmGet src (base + mouS d + (k - (base + mouD d))) = spmByteAt s1 c.val (base + mouS d + (k - (base + mouD d)))) ∧
    (dOpcode d = 0xFF → done (.mouNop t c ecc) 1 3 (fun k => spmByteAt s1 c.val k))

/-- Every MVE command is taken into execution at issue and moves no byte yet; requests follow (R62, R76, R77, R78, R81, R345, R353). -/
def Obligations.MveCommandsEnterExecution : Prop :=
  ∀ p ∈ ([(.copyIn, 0x80, none), (.copyOut, 0x81, none), (.gatherIn, 0x84, none), (.scatterOut, 0x85, none), (.load, 0x88, none), (.store, 0x89, none),
      (.fetchAdd, 0x8A, some 0), (.swap, 0x8A, some 1), (.compareAndSwap, 0x8A, some 2), (.signedMinimum, 0x8A, some 3), (.signedMaximum, 0x8A, some 4),
      (.unsignedMinimum, 0x8A, some 5), (.unsignedMaximum, 0x8A, some 6), (.fenceLocal, 0x8C, some 0), (.fenceNode, 0x8C, some 1),
      (.fenceGlobal, 0x8C, some 2), (.mveNop, 0xBF, none)] : List ((Time → PhysCore → Ecc → Instr) × Nat × Option Nat)),
  ∀ (t : Time) (c : PhysCore) (ecc : Ecc) (ent : QEntry) (s : State),
    let s1 := settle (advance s t) c.val
    let d := ent.desc
    dOpcode d = p.2.1 → (p.2.1 = 0x8A → p.2.2 = some (mveAtomicOp d)) → (p.2.1 = 0x8C → p.2.2 = some (mveScope d)) →
    HeadIssues s1 c.val 2 ecc ent (fun u _ => mveReady u c.val) mveCoded mveRanges (fun u e => mveRefused u c.val e) →
    ∃ u, exec (p.1 t c ecc) s = .next u ∧
      (queueOf u c.val 2).entries = (queueOf s1 c.val 2).entries.tail ∧ (queueOf u c.val 2).iss = ((queueOf s1 c.val 2).iss + 1) % 2 ^ 16 ∧
      (∃ x : Exec, (queueOf u c.val 2).exec.getLast? = some x ∧ x.desc = d ∧ x.retire = coreCycle s1 c.val + 3 ∧
        x.genDone = decide (p.2.1 = 0xBF) ∧ x.gen = 0) ∧
      (core u c.val).genNext = max (core s1 c.val).genNext (coreCycle s1 c.val + 2) ∧
      SameMemory s1 u

/-- A completed descriptor enters its queue, waking a stopped core, or is discarded with 0x1023 when the queue is full (R57, R58, R82). -/
def Obligations.DescriptorsEnterTheirQueue : Prop :=
  ∀ (t : Time) (who : Requester) (c : PhysCore) (q : Fin 4) (v : Word) (s : State),
    let s1 := advance s t
    let d := setWord (mapGet (core s1 c.val).stage (stageKey who q.val) 0#512) 15 v
    reachable s1 (coreDie c.val) (corePage c.val 0) = true →
    ((queueOf s1 c.val q.val).entries.length < 256 →
      ∃ u, exec (.descriptorEnqueue t who c q v) s = .next u ∧
        (∃ e : QEntry, (queueOf u c.val q.val).entries = (queueOf s1 c.val q.val).entries ++ [e] ∧ e.desc = d ∧
          e.stamps = [(core s1 c.val).q0.enq, (core s1 c.val).q1.enq, (core s1 c.val).q2.enq, (core s1 c.val).q3.enq]) ∧
        (queueOf u c.val q.val).enq = ((queueOf s1 c.val q.val).enq + 1) % 2 ^ 16 ∧
        (∀ k, k < 4 → k ≠ q.val → queueOf u c.val k = queueOf s1 c.val k) ∧
        ((core s1 c.val).clk.mode = .gated → (core u c.val).clk.mode = .waking ∧ (core u c.val).clk.wakeAt = s1.now + 512) ∧
        ((core s1 c.val).clk.mode = .run → (core u c.val).clk = (core s1 c.val).clk) ∧ SameMemory s u) ∧
    ((queueOf s1 c.val q.val).entries.length ≥ 256 →
      ∃ u, exec (.descriptorEnqueue t who c q v) s = .next u ∧ ErrorTaken (coreDie c.val) (corePage c.val 0) 0x1023 q.val s1 u ∧
        (∀ k, k < 4 → queueOf u c.val k = queueOf s1 c.val k) ∧ SameMemory s u)

/-- A command retires: its scoreboard entries are released, its notify count rises, its queue's executing list loses it (R62, R64). -/
def Obligations.CommandsRetire : Prop :=
  ∀ (t : Time) (c : PhysCore) (q : Fin 4) (e : Exec) (rest : List Exec) (s : State),
    let s1 := settle (advance s t) c.val
    q.val ≠ 2 → (queueOf s1 c.val q.val).exec = e :: rest → e.retire ≤ coreCycle s1 c.val → e.orphan = false → e.lateFault = 0 →
    (core s1 c.val).notifyTo = none → (mapFind s1.softWait (pageKey (coreDie c.val) (corePage c.val (q.val + 1)))).isNone = true →
    let k := 0x0C0 + 4 * dNotifyIdx e.desc
    ∃ u, exec (.commandRetire t c q) s = .next u ∧ (queueOf u c.val q.val).exec = rest ∧
      (core u c.val).sb = (core s1 c.val).sb.map (fun b =>
        if b.seq = e.seq ∧ b.freed = none then { b with freed := some (coreCycle s1 c.val) } else b) ∧
      reg u (coreDie c.val) (corePage c.val 0) k =
        (if dNotifyEn e.desc = true then reg s1 (coreDie c.val) (corePage c.val 0) k + 1#32 else reg s1 (coreDie c.val) (corePage c.val 0) k) ∧
      SameStores s1 u

/-- A context is assigned, released and given an owner only when R50 lets it; its zero-fill ends when R51 says (R50, R51, R82, R87). -/
def Obligations.TaskContextsFollowTheirRules : Prop :=
  ∀ (t : Time) (c : PhysCore) (n : Fin 16) (v : Word) (s : State),
    let s1 := settle (advance s t) c.val
    let d := coreDie c.val
    let p := corePage c.val 4
    reachable s1 d p = true → pageLocked s1 d p = false →
    let valid := tbit (ctxReg s1 c.val n.val 0xC) 0
    (tbit v 9 = false → tbit v 8 = true → valid = false → ctxBase s1 c.val n.val < ctxBound s1 c.val n.val →
        ctxBound s1 c.val n.val ≤ 24 * 2 ^ 20 → ctxOverlaps s1 c.val n.val (fld v 0 8) = false →
      ∃ u, exec (.contextAssign t c n v) s = .next u ∧ tbit (ctxReg u c.val n.val 0xC) 0 = true ∧ ctxOwner u c.val n.val = fld v 0 8 ∧
        (∃ f : Fill, (core u c.val).fills = (core s1 c.val).fills ++ [f] ∧ f.ctx = n.val ∧ f.lo = ctxBase s1 c.val n.val ∧
          f.hi = ctxBound s1 c.val n.val ∧ f.pos = f.lo) ∧ SameMemory s1 u) ∧
    (tbit v 9 = false → tbit v 8 = true → valid = true →
      ∃ u, exec (.contextAssign t c n v) s = .next u ∧ TurnedAway d p 0x1022 s1 u) ∧
    (tbit v 9 = true → valid = true → ctxRefs (core s1 c.val) n.val = 0 →
      ∃ u, exec (.contextRelease t c n v) s = .next u ∧ tbit (ctxReg u c.val n.val 0xC) 0 = false ∧
        RegsOnly (fun k => k = barOff d p (0x10C + 0x10 * n.val)) s1 u) ∧
    (tbit v 9 = true → valid = true → ctxRefs (core s1 c.val) n.val ≠ 0 →
      ∃ u, exec (.contextRelease t c n v) s = .next u ∧ TurnedAway d p 0x1022 s1 u) ∧
    (tbit v 9 = false → tbit v 8 = false → valid = false →
      ∃ u, exec (.contextOwnerWrite t c n v) s = .next u ∧ ctxOwner u c.val n.val = fld v 0 8 ∧
        RegsOnly (fun k => k = barOff d p (0x108 + 0x10 * n.val)) s1 u) ∧
    (tbit v 9 = false → tbit v 8 = false → valid = true →
      ∃ u, exec (.contextOwnerWrite t c n v) s = .next u ∧ TurnedAway d p 0x1022 s1 u) ∧
    ((∀ f ∈ (core (advance s t) c.val).fills, f.last < coreCycle (advance s t) c.val) →
      ∃ u, exec (.contextFillDone t c) s = .next u ∧ ctxFilling u c.val n.val (coreCycle u c.val) = false ∧ (core u c.val).fills = [])

/-- The high-water marks clear, MAP_NEXT arms a mapping change, and a crossbar access reads or writes the slot's bytes (R40, R45, R46, R47, R86,
R88). -/
def Obligations.CoreRegistersAndCrossbar : Prop :=
  ∀ (t : Time) (c : PhysCore) (v : Word) (s : State),
    let s1 := advance s t
    let d := coreDie c.val
    (reachable s1 d (corePage c.val 0) = true → tbit v 0 = true →
      ∃ u, exec (.sbHwClr t c v) s = .next u ∧ (core u c.val).sbHigh = 0 ∧ SameStores s1 u ∧ u.regs = s1.regs) ∧
    (reachable s1 d (corePage c.val 3) = true → tbit v 0 = true →
      ∃ u, exec (.mveHwClr t c v) s = .next u ∧ (core u c.val).mveHigh = 0 ∧ SameStores s1 u ∧ u.regs = s1.regs) ∧
    (reachable s1 d (corePage c.val 0) = true → pageLocked s1 d (corePage c.val 0) = false →
      (mapPending s1 c.val = false → takeOk s1 c.val (fld v 0 5) = true → tbit v 8 = true →
        ∃ u, exec (.mapNextArm t c v) s = .next u ∧ mapPending u c.val = true ∧ fld (reg u d (corePage c.val 0) 0x044) 0 5 = fld v 0 5 ∧
          logicalOf u c.val = logicalOf s1 c.val ∧ SameStores s1 u) ∧
      (mapPending s1 c.val = false → takeOk s1 c.val (fld v 0 5) = false → tbit v 8 = true →
        ∃ u, exec (.mapNextArm t c v) s = .next u ∧ TurnedAway 0 1 0x1015 s1 u) ∧
      (mapPending s1 c.val = false → tbit v 8 = false →
        ∃ u, exec (.mapNextArm t c v) s = .next u ∧ fld (reg u d (corePage c.val 0) 0x044) 0 5 = fld v 0 5 ∧
          RegsOnly (fun k => k = barOff d (corePage c.val 0) 0x044) s1 u) ∧
      (mapPending s1 c.val = true → ∃ u, exec (.mapNextArm t c v) s = .next u ∧ RegsOnly (fun _ => False) s1 u)) ∧
    (∀ (die : ComputeDie) (logical : Fin 16) (a : XbarAccess) (ecc : Ecc),
      let s0 := servePorts s1 (die.val * 18)
      let i := Instr.crossbarAccess t die logical a ecc
      (tripFor s0 (cpDie die.val) logical.val a = none → (a.write = true → a.data.length = a.len) →
        (a.off + a.len > 0x01800000 → ∃ u, exec i s = .next u ∧ u.lastResp.err = 0x4011 ∧ u = { s0 with lastResp := u.lastResp }) ∧
        (a.off + a.len ≤ 0x01800000 → physOf s0 (cpDie die.val) logical.val = none →
          ∃ u, exec i s = .next u ∧ u.lastResp.err = 0x4010 ∧ u = { s0 with lastResp := u.lastResp }) ∧
        (a.off + a.len ≤ 0x01800000 → physOf s0 (cpDie die.val) logical.val = some c.val →
          let s2 := settle s0 c.val
          let src := seenCore (core (applyEcc s2 c.val ecc) c.val) (coreCycle s2 c.val)
          (a.write = true → (core s2 c.val).fills = [] →
            ∃ u, exec i s = .next u ∧ u.lastResp.err = 0 ∧
              (∀ k, spmByteAt u c.val k = if a.off ≤ k ∧ k < a.off + a.len then (a.data.getD (k - a.off) 0#8) else spmByteAt s2 c.val k) ∧
              (∀ k, tier1Byte u k = tier1Byte s k) ∧ ∀ k, tier2Byte u k = tier2Byte s k) ∧
          (a.write = false →
            ∃ u, exec i s = .next u ∧ u.lastResp.err = 0 ∧
              u.lastResp.data = (List.range a.len).map (fun n => spmGet src (a.off + n)) ∧ SameMemory s2 u))) ∧
      (∀ who r tr, tripFor s0 (cpDie die.val) logical.val a = some (who, r, tr) →
        (tripReady s0 who tr = false → exec i s = .next s0) ∧
        (tripReady s0 who tr = true → ∃ u, exec i s = .next u ∧ u.lastResp = (tripPerform s0 tr ecc).2 ∧
          u = { keepAnswer (tripPerform s0 tr ecc).1 who r.slot u.lastResp with lastResp := u.lastResp })))

/-- The MVE sends its requests, takes their completions, completes fences and orphans what its deadline leaves (R46, R76, R77, R79, R84, R135, R146,
R343, R349, R353). -/
def Obligations.MveRequestsLiveAndEnd : Prop :=
  ∀ (t : Time) (c : PhysCore) (ecc : Ecc) (s : State),
    let s1 := advance s t
    let x := core s1 c.val
    let s0 := servePorts s1 c.val
    let s2 := settle s0 c.val
    let y := core s2 c.val
    (x.clk.mode ≠ .run ∨ isHalted s1 (coreDie c.val) (corePage c.val 0) = true → exec (.mveRequestGenerate t c ecc) s = .next s1) ∧
    (x.clk.mode = .run → isHalted s1 (coreDie c.val) (corePage c.val 0) = false →
        ecc = { entryBad := false, badWords := [], corrected := 0, met := [] } →
      ∀ e, generating y.q2 = some e → y.genNext ≤ coreCycle s2 c.val →
      (y.reqs.length ≥ 512 →
        ∃ u, exec (.mveRequestGenerate t c ecc) s = .next u ∧ (core u c.val).reqs = y.reqs ∧ (core u c.val).genNext = coreCycle s2 c.val + 1 ∧
          SameMemory s2 u) ∧
      (y.reqs.length < 512 → dOpcode e.desc ≠ 0x8C → mveIndexed (dOpcode e.desc) = false → mveNode e.desc = ownNode s2 → nodeX (mveNode e.desc) < 4 →
          0 < mveBytes e.desc →
        let row := e.gen / 2 ^ 20
        let byte := e.gen % 2 ^ 20
        let off := (rowOffset e.desc 0 row + byte) % 2 ^ 48
        let len := min (mveBytes e.desc - byte) (4096 - off % 4096)
        let op := if dOpcode e.desc = 0x8A then 3 else if mveInward (dOpcode e.desc) = true then 1 else 2
        (planWaits s2 c.val (formRequest s2 c.val e row byte len off 0 0) = true → exec (.mveRequestGenerate t c ecc) s = .next s2) ∧
        (planWaits s2 c.val (formRequest s2 c.val e row byte len off 0 0) = false →
          ∃ u r, exec (.mveRequestGenerate t c ecc) s = .next u ∧ (core u c.val).reqs = y.reqs ++ [r] ∧ r.slot = freeSlot y.reqs 512 0 ∧
            r.offset = off ∧ r.len = len ∧ r.inward = mveInward (dOpcode e.desc) ∧
            r.laddr = ctxBase s2 c.val (dCtx e.desc) + mveL e.desc + row * mveLPitch e.desc + byte ∧ r.seq = e.seq ∧
            (u.lastSent.map (fun m => (m.op, m.offset, m.len))) = some (op, off, len) ∧ (core u c.val).genNext = coreCycle s2 c.val + 1 ∧
            SameMemory s2 u))) ∧
    (∀ (slot : Fin 512) (p : Resp),
      ((core s0 c.val).reqs.find? (fun r => decide (r.slot = slot.val) && r.trip.isSome) = none →
        (∀ (r : MveReq) (rest : List MveReq), (core s0 c.val).reqs = r :: rest → r.slot = slot.val → r.fenceScope = 0 → r.orphanAt = none →
            r.generation = p.generation →
          ∃ u, exec (.mveRequestCompletion t c slot p) s = .next u ∧ (core u c.val).reqs = rest.filter (fun q => decide (q.slot ≠ slot.val)) ∧
            (p.err = 0 → ∀ k, spmByteAt u c.val k =
              if r.inward = true ∧ r.laddr ≤ k ∧ k < r.laddr + min r.len p.data.length then p.data.getD (k - r.laddr) 0#8 else spmByteAt s2 c.val k) ∧
            (p.err ≠ 0 → SameMemory s2 u ∧ (execBySeq y r.seq ≠ none → tbit (reg u (coreDie c.val) (corePage c.val 0) 0x010) 0 = true ∧
              (reg s2 (coreDie c.val) (corePage c.val 3) 0x04C = 0#32 →
                reg u (coreDie c.val) (corePage c.val 3) 0x04C = BitVec.ofNat 32 (p.err % 2 ^ 16))))) ∧
        ((∀ q ∈ (core s0 c.val).reqs, q.slot = slot.val → q.generation ≠ p.generation) →
          exec (.mveRequestCompletion t c slot p) s = .next s0)) ∧
      (∀ r tr, (core s0 c.val).reqs.find? (fun r => decide (r.slot = slot.val) && r.trip.isSome) = some r → r.trip = some tr →
        (tripReady s0 c.val tr = false → exec (.mveRequestCompletion t c slot p) s = .next s0) ∧
        (∀ q, tripReady s0 c.val tr = true → tr.ans = some q → r.orphanAt = none →
          exec (.mveRequestCompletion t c slot p) s = .next (completeRequest s2 c.val r { q with late := isLate s0 c.val r })))) ∧
    (∀ (f : MveReq), (x.reqs.filter (fun r => decide (r.fenceScope ≠ 0))).head? = some f →
        (∀ r ∈ x.reqs, r.fenceScope = 0 → r.seq < f.seq → r.orphanAt = none → inScope s1 c.val (f.fenceScope - 1) r = false) →
      ∃ u, exec (.fenceComplete t c) s = .next u ∧ (core u c.val).reqs = x.reqs.filter (fun r => decide (r.slot ≠ f.slot)) ∧ SameMemory s u) ∧
    (∃ u, exec (.requestDeadlineExpiry t c) s = .next u ∧ SameMemory s u ∧
      ((x.reqs.map (fun r => r.slot)).Nodup →
        (core u c.val).reqs = x.reqs.map (fun r =>
          if r.orphanAt = none ∧ r.fenceScope = 0 ∧ r.expiry ≤ s1.now then { r with orphanAt := some s1.now } else r))) ∧
    (∀ slot : Fin 512, ∃ u, exec (.orphanSlotRelease t c slot) s = .next u ∧ SameMemory s u ∧
      (core u c.val).reqs = x.reqs.filter (fun r => !(decide (r.slot = slot.val) && r.orphanAt.isSome && decide (r.expiry + 65536 * 64 ≤ s1.now))))

/-- A planned flit goes where the schedule names it, eight planned cycles later, once a cycle, poisoned on a CRC mismatch or a down edge; local injection
sends the next flit of its queue, or a poisoned one with 0x4023 (R29, R31, R32, R144, R146). -/
def Obligations.PlannedFlitsFollowTheSchedule : Prop :=
  ∀ (t : Time) (die : Die) (inp : Fin 5) (crcOk entryOk : Bool) (s : State), routersWf s = true →
    let s1 := advance s t
    let d := die.val
    let k := plannedIndex (frameCyc s1 d)
    let i := Instr.plannedFlit t die inp crcOk entryOk
    let on := tbit (reg s1 d 0 0x040) 0 = true ∧ isDynamic s1 d = false ∧ isHalted s1 d 0 = false
    let sends (n : Nat) (f : Flit) (err : State → Prop) : Prop :=
      (n = 4 → ∃ u, exec i s = .next u ∧ (router u d).lastFlit = some f ∧ err u ∧ SameMemory s u ∧ u.cores = s.cores) ∧
      (∀ e, neighbour d n = some e →
        ∃ u, exec i s = .next u ∧
          (router u e).hops = (router s1 e).hops ++
            [{ inp := facing n, due := k + 8, flit := if edgeUp s1 e (facing n) = true then f else { f with poison := true } }] ∧
          err u ∧ SameMemory s u ∧ u.cores = s.cores)
    (¬ on ∨ (entryOk = true ∧ ((schedBank s1 d).cycles ≤ k ∨ inp.val ∈ fedInputs s1 d k)) → exec i s = .next s1) ∧
    (on → entryOk = false → ∃ u, exec i s = .next u ∧ isHalted u d 0 = true ∧ CodeTaken d 0 0x3072 s1 u ∧ SameMemory s u) ∧
    (on → entryOk = true → k < (schedBank s1 d).cycles → inp.val ∉ fedInputs s1 d k →
      let due := (router s1 d).hops.filter (fun h => decide (h.inp = inp.val) && decide (h.due = k))
      (inp.val < 4 → due = [] → edgeUp s1 d inp.val = true → exec i s = .next s1) ∧
      (∀ o, outputsOf (schedBank s1 d) k inp.val = [o] →
        (∀ h, inp.val < 4 → due = [h] →
          sends o (if crcOk = true ∧ edgeUp s1 d inp.val = true then h.flit else { h.flit with poison := true }) (fun u =>
            (router u d).hops = (router s1 d).hops.filter (fun h => !(decide (h.inp = inp.val) && decide (h.due = k))) ∧
            inp.val ∈ fedInputs u d k ∧ (crcOk = false → CodeTaken d 0 0x4020 s1 u))) ∧
        (inp.val < 4 → due = [] → edgeUp s1 d inp.val = false → sends o badFlit (fun u => inp.val ∈ fedInputs u d k)) ∧
        (∀ f rest, inp.val = 4 → (injQ (router s1 d) o).flits = f :: rest → sends o f (fun u =>
          (injQ (router u d) o).flits = rest ++ (injQ (router s1 d) o).waiting.take 1 ∧ inp.val ∈ fedInputs u d k)) ∧
        (inp.val = 4 → o < 5 → (injQ (router s1 d) o).flits = [] → sends o badFlit (fun u =>
          (injQ (router u d) o).late = (injQ (router s1 d) o).late + 1 ∧ CodeTaken d 0 0x4023 s1 u))))

/-- A dynamic message moves one hop in a dynamic cycle; an intact one enters the next router, a failed flit stays to be sent again (R30, R31). -/
def Obligations.DynamicMessagesMoveOneHop : Prop :=
  ∀ (t : Time) (die dst : Die) (l : List Byte) (bad : List (Fin 4)) (s : State), routersWf s = true →
    let s1 := advance s t
    let d := die.val
    let r := router s1 d
    let cyc := meshCyc s1 s1.now
    let none5 : List (List DynMsg) := [[], [], [], [], []]
    (∃ u, exec (.dynamicMessage t die (.enter dst l)) s = .next u ∧ SameMemory s u ∧
      nth (router u d).inputs 0 [] = nth r.inputs 0 [] ++ [{ dst := dst.val, payload := l.take 256, entered := cyc, report := none }]) ∧
    (isDynamic s1 d = false ∨ cyc < r.dynNext → exec (.dynamicMessage t die (.forward bad)) s = .next s1) ∧
    (∀ m, isDynamic s1 d = true → r.dynNext ≤ cyc → tbit (reg s1 d 0 0x040) 1 = true → r.flits = none5 → r.inputs = [[m], [], [], [], []] →
        m.entered < cyc → m.payload.length ≤ 256 → m.report = none →
      (dynRoute s1 d m.dst = 4 → ∃ u, exec (.dynamicMessage t die (.forward bad)) s = .next u ∧ (router u d).lastMsg = some m ∧
        (router u d).inputs = none5 ∧ (router u d).flits = none5 ∧ SameMemory s u) ∧
      (∀ e o, dynRoute s1 d m.dst = o → o < 4 → neighbour d o = some e → edgeUp s1 d o = true →
        ((∀ b ∈ bad, b.val ≠ o) → ∃ u, exec (.dynamicMessage t die (.forward bad)) s = .next u ∧ (router u d).inputs = none5 ∧
          (router u d).flits = none5 ∧
          nth (router u e).inputs (facing o + 1) [] = nth (router s1 e).inputs (facing o + 1) [] ++ [{ m with entered := cyc }] ∧
          nth (router u e).fails (facing o) 9 = 0 ∧ SameMemory s u) ∧
        ((∃ b ∈ bad, b.val = o) → nth (router s1 e).fails (facing o) 0 < 7 →
          ∃ u, exec (.dynamicMessage t die (.forward bad)) s = .next u ∧ (router u d).inputs = none5 ∧ nth (router u d).flits o [] = [m] ∧
            (router u e).inputs = (router s1 e).inputs ∧
            nth (router u e).fails (facing o) 0 = nth (router s1 e).fails (facing o) 0 + 1 ∧ SameMemory s u) ∧
        ((∃ b ∈ bad, b.val = o) → nth (router s1 e).fails (facing o) 0 = 7 →
          ∃ u, exec (.dynamicMessage t die (.forward bad)) s = .next u ∧ edgeUp u e (facing o) = false ∧ edgeUp u d o = false ∧
            CodeTaken e 0 0x4022 s1 u)))

/-- An edge goes down at both ends; schedule swaps are armed or refused; injection queues take 32 flits and drop late ones (R32, R33, R34, R146). -/
def Obligations.EdgesBanksAndInjection : Prop :=
  ∀ (t : Time) (die : Die) (edge : Fin 4) (v : Word) (o : Fin 5) (f : Flit) (s : State), routersWf s = true →
    let s1 := advance s t
    let d := die.val
    let q := injQ (router s1 d) o.val
    (edgeUp s1 d edge.val = true →
      ∃ u, exec (.edgeMarkedDown t die edge) s = .next u ∧ edgeUp u d edge.val = false ∧
        (∀ e, neighbour d edge.val = some e → edgeUp u e (facing edge.val) = false) ∧ CodeTaken d 0 0x4022 s1 u ∧
        (∃ m, nth (router u d).inputs 0 [] = nth (router s1 d).inputs 0 [] ++ [m] ∧ m.dst = 0 ∧ m.report = some (d, edge.val))) ∧
    (edgeUp s1 d edge.val = false → exec (.edgeMarkedDown t die edge) s = .next s1) ∧
    (reachable s1 d 0 = true → pageLocked s1 d 0 = false → tbit (reg s1 d 0 0x04C) 1 = false →
      ∃ u, exec (.schedSwapArm t die v) s = .next u ∧ fld (reg u d 0 0x048) 0 1 = fld v 0 1 ∧
        tbit (reg u d 0 0x04C) 1 = tbit v 1 ∧ tbit (reg u d 0 0x04C) 0 = tbit (reg s1 d 0 0x04C) 0 ∧ SameMemory s u ∧ u.routers = s.routers) ∧
    (reachable s1 d 0 = true → pageLocked s1 d 0 = false → tbit (reg s1 d 0 0x04C) 1 = true →
      ∃ u, exec (.schedSwapArm t die v) s = .next u ∧ TurnedAway d 0 0x1011 s1 u) ∧
    (q.late = 0 → q.flits.length < 32 → q.waiting = [] →
      ∃ u, exec (.injectionEnqueue t die o f) s = .next u ∧ (injQ (router u d) o.val).flits = q.flits ++ [f] ∧
        (injQ (router u d) o.val).enq = q.enq + 1 ∧ u = { s1 with routers := u.routers }) ∧
    (q.late = 0 → q.flits.length ≥ 32 ∨ q.waiting ≠ [] →
      ∃ u, exec (.injectionEnqueue t die o f) s = .next u ∧ (injQ (router u d) o.val).flits = q.flits ∧
        (injQ (router u d) o.val).waiting = q.waiting ++ [f] ∧ u = { s1 with routers := u.routers }) ∧
    (q.late = 0 → exec (.lateInjectionFlit t die o) s = .next s1) ∧
    (q.late > 0 →
      ∃ u, exec (.lateInjectionFlit t die o) s = .next u ∧ (injQ (router u d) o.val).flits = q.flits ∧ (injQ (router u d) o.val).late = q.late - 1 ∧
        SameMemory s u)

/-- A sync pulse begins an epoch at every die in step, and a pulse out of place or sixteen missing ones set OUT_OF_STEP (R149, R181). -/
def Obligations.SyncPulsesBeginEpochs : Prop :=
  ∀ (t : Time) (s : State),
    let s1 := advance s t
    (∃ u, exec (.syncPulse t) s = .next u ∧ SameMemory s u ∧ u.cores = s.cores ∧
      ∀ d ∈ frsDies, reachable s1 d 1 = true →
        ((frsOf s1 d).synced = false ∨ epochTick s1 d = 0 →
          (frsOf u d).synced = true ∧ (frsOf u d).missing = 0 ∧ (frsOf u d).epochBegan = s1.now / 64 * 64) ∧
        ((frsOf s1 d).synced = true → epochTick s1 d ≠ 0 → outOfStep u d = true)) ∧
    (∃ u, exec (.syncPulseMissing t) s = .next u ∧ SameMemory s u ∧ u.cores = s.cores ∧
      ∀ d ∈ frsDies, reachable s1 d 1 = true → (frsOf s1 d).synced = true →
        (frsOf u d).missing = (frsOf s1 d).missing + 1 ∧ ((frsOf s1 d).missing = 15 → outOfStep u d = true))

/-- RUN arms a start, disarms it and stops frames; swaps of the program bank are armed or refused (R34, R188, R189). -/
def Obligations.RunArmsAndStopsFrames : Prop :=
  ∀ (t : Time) (die : Die) (v : Word) (s : State),
    let s1 := advance s t
    let d := die.val
    reachable s1 d 1 = true → pageLocked s1 d 1 = false →
    (tbit v 24 = true → tbit (reg s1 d 1 0x040) 24 = false → frsRunning s1 d = false → startArmed s1 d = false →
      (syncEpoch s1 d < (reg s1 d 1 0x05C).toNat →
        ∃ u, exec (.frameRunArm t die v) s = .next u ∧ tbit (reg u d 1 0x040) 24 = true ∧ startArmed u d = true ∧
          fld (reg u d 1 0x040) 0 24 = fld v 0 24 ∧ SameMemory s u ∧ u.frs = s.frs) ∧
      (syncEpoch s1 d ≥ (reg s1 d 1 0x05C).toNat →
        ∃ u, exec (.frameRunArm t die v) s = .next u ∧ ErrorTaken d 1 0x1041 0x040 s1 u ∧ tbit (reg u d 1 0x040) 24 = false ∧ startArmed u d = false)) ∧
    (tbit v 24 = false → startArmed s1 d = true →
      ∃ u, exec (.frameRunDisarm t die v) s = .next u ∧ tbit (reg u d 1 0x040) 24 = false ∧ startArmed u d = false ∧
        frsRunning u d = frsRunning s1 d ∧ u.frs = s.frs) ∧
    (tbit v 24 = false → startArmed s1 d = false → frsRunning s1 d = true →
      ∃ u, exec (.frameStop t die v) s = .next u ∧ tbit (reg u d 1 0x040) 24 = false ∧ frsRunning u d = true ∧ (frsOf u d).stop = true) ∧
    (tbit (reg s1 d 1 0x064) 1 = false →
      ∃ u, exec (.progSwapArm t die v) s = .next u ∧ fld (reg u d 1 0x060) 0 1 = fld v 0 1 ∧ tbit (reg u d 1 0x064) 1 = tbit v 1 ∧ u.frs = s.frs) ∧
    (tbit (reg s1 d 1 0x064) 1 = true →
      ∃ u, exec (.progSwapArm t die v) s = .next u ∧ ErrorTaken d 1 0x1041 0x060 s1 u ∧ RegsOnly (errRegs d 1) s1 u)

/-- Frames start at frame 0 at the tick of their armed start, advance by one at the end of each frame, whenever its command comes, and stop at the
boundary after RUN 0 (R27, R150, R151, R152, R189). -/
def Obligations.FramesStartAdvanceAndStop : Prop :=
  ∀ (t : Time) (s : State), s.plan = none → s.planNext = none → s.gop.capture = none → s.gop.resetAt = none →
    let s1 := advance s t
    (∃ u, exec (.frameSequencerStart t) s = .next u ∧ u.now = s1.now ∧
      ∀ d ∈ frsDies, startDue s1 d = true →
        frsRunning u d = true ∧ frameNum u d = 0 ∧ (frsOf u d).began = tickStart s1 d ∧ startArmed u d = false) ∧
    ((∀ d ∈ frsDies, frsRunning s1 d = false) → startDue s1 0 = true →
      ∃ u, exec (.frameSequencerStart t) s = .next u ∧ u.meshOff = tickStart s1 0 % 5) ∧
    (∃ u, exec (.frameBoundary t) s = .next u ∧ u.now = s1.now ∧
      ∀ d ∈ frsDies, frsRunning s1 d = true →
        ((frsOf s1 d).ends ≤ s1.now → isHalted s1 d 1 = false → (frsOf s1 d).stop = false →
          frameNum u d = (frameNum s1 d + 1) % 2 ^ 32 ∧ frsRunning u d = true ∧ (frsOf u d).began = (frsOf s1 d).ends ∧
          (frsOf u d).ends = (frsOf s1 d).ends + 64 * (extTicks (baseTicks u d) (frsOf u d).s + if (frsOf u d).gap = true then 5 else 0)) ∧
        ((frsOf s1 d).ends ≤ s1.now → isHalted s1 d 1 = false → (frsOf s1 d).stop = true →
          frsRunning u d = false ∧ frameNum u d = frameNum s1 d) ∧
        (s1.now < (frsOf s1 d).ends ∨ isHalted s1 d 1 = true → frameNum u d = frameNum s1 d ∧ (frsOf u d).began = (frsOf s1 d).began))

/-- SLOT, PUSH, JUMP, REPORT and EXCHANGE entries do what R157 to R179 give them when they start (R155, R157, R160, R161, R162, R175, R179). -/
def Obligations.ProgramEntriesAct : Prop :=
  ∀ (t : Time) (die : Die) (e : BitVec 128) (s : State),
    let s1 := advance s t
    let d := die.val
    let g := segOf (progBank s1 d) (entryPlace s1 d).seg
    (EntryStarts s1 d 1 e → ∃ u, exec (.slot t die true) s = .next u ∧ (frsOf u d).slotTypes = fld e 32 6 ∧
      (frsOf u d).slotEnd = entAt e + fld e 40 24 ∧ (frsOf u d).idx = (entryPlace s1 d).idx + 1 ∧ SameMemory s u) ∧
    (EntryStarts s1 d 2 e → ∀ c, physOf s1 d (fld e 56 4) = some c → c < 1152 →
      ∃ u, exec (.push t die true) s = .next u ∧
        (frsOf u d).held.map (fun h => (h.core, h.queue, h.desc)) = (frsOf s1 d).held.map (fun h => (h.core, h.queue, h.desc)) ++
          (pushDescs (frsOf s1 d) (progBank s1 d) e).map (fun x => (c, fld e 60 2, x)) ∧ SameMemory s u) ∧
    (EntryStarts s1 d 7 e → jumpHolds (edgeState s1 d) d e = true →
      ∃ u, exec (.jump t die true) s = .next u ∧ SameMemory s u ∧
        (if inLastSlot (progBank s1 d) g (entAt e) = true ∨ g.start + g.len ≥ baseTicks s1 d then (frsOf u d).deferred = some (fld e 40 8)
         else (frsOf u d).nextSeg = fld e 40 8)) ∧
    (EntryStarts s1 d 7 e → jumpHolds (edgeState s1 d) d e = false →
      ∃ u, exec (.jump t die true) s = .next u ∧ (frsOf u d).deferred = (frsOf s1 d).deferred ∧
        (frsOf u d).nextSeg = (entryPlace s1 d).nextSeg ∧ (frsOf u d).idx = (entryPlace s1 d).idx + 1 ∧ SameMemory s u) ∧
    (EntryStarts s1 d 8 e →
      ∃ u, exec (.report t die true) s = .next u ∧ (frsOf u d).reported = some (frameNum s1 d, dieLevelNow (edgeState s1 d) d) ∧ SameMemory s u) ∧
    (EntryStarts s1 0 9 e → ∀ b : Int,
      ∃ u x, exec (.exchange t true b) s = .next u ∧ (frsOf u 0).sent = some (frameNum s1 0, x) ∧ x.node = fld (reg s1 90 8 0x040) 0 16 ∧
        x.level = moduleLevel (edgeState s1 0) ∧ x.changes = (frsOf s1 0).chgQueue.take 16 ∧ x.boundary = b ∧ SameMemory s u) ∧
    (∀ (cd : ComputeDie) (k : Fin 18) (h : HeldDesc) (rest : List HeldDesc),
      let c := cd.val * 18 + k.val
      takeHeld c (frsOf s1 (cpDie cd.val)).held = some (h, rest) → h.queue < 4 → (core s1 c).clk.mode = .run → h.earliest ≤ coreCycle s1 c →
      mapGet (frsOf s1 (cpDie cd.val)).pushNext c 0 ≤ coreCycle s1 c → (queueOf s1 c h.queue).entries.length < 256 →
      ∃ u x, exec (.pushDescriptorEnter t cd k) s = .next u ∧ (queueOf u c h.queue).entries = (queueOf s1 c h.queue).entries ++ [x] ∧ x.desc = h.desc ∧
        (frsOf u (cpDie cd.val)).held = rest ∧ SameMemory s u)

/-- WAKE and GATE entries start and stop unit clocks; woken units run after their latency; TEST and REFRESH entries act (R163, R164, R285, R395,
R396, R445). -/
def Obligations.ClockEntriesAct : Prop :=
  ∀ (t : Time) (die : Die) (e : BitVec 128) (s : State),
    let s1 := advance s t
    let d := die.val
    (EntryStarts s1 d 3 e → dieType d = .memory → ∀ k, k < 2 → fld e 32 32 / 2 ^ k % 2 = 1 → memUnit s1 (dieOrd d) k = .gated →
      ∃ u, exec (.wake t die true) s = .next u ∧ memUnit u (dieOrd d) k = .waking ∧ SameMemory s u) ∧
    (EntryStarts s1 d 3 e → dieType d = .compute → ∀ c, maskCores s1 d (fld e 32 32) = [c] → coreDie c = d → (core s1 c).clk.mode = .gated →
      ∃ u, exec (.wake t die true) s = .next u ∧ (core u c).clk.mode = .waking ∧ (core u c).clk.wakeAt = entryEdge s1 d + 512 ∧ SameMemory s u) ∧
    (EntryStarts s1 d 4 e → dieType d = .compute → ∀ c, maskCores s1 d (fld e 32 32) = [c] → coreDie c = d → (core s1 c).clk.mode = .run →
      ∃ u, exec (.gate t die true) s = .next u ∧ SameMemory s u ∧
        (if coreWorks (core s1 c) = true then
          (core u c).clk.mode = .run ∧ (core u c).clk.gateIdle = true ∧ (frsOf u d).gateWaits = (frsOf s1 d).gateWaits + 1
         else (core u c).clk.mode = stopMode s1 c ∧ (frsOf u d).gateWaits = (frsOf s1 d).gateWaits)) ∧
    (EntryStarts s1 d 4 e → dieType d = .memory → ∀ k, k < 2 → fld e 32 32 / 2 ^ k % 2 = 1 → memUnit s1 (dieOrd d) k = .run →
      ∃ u, exec (.gate t die true) s = .next u ∧ SameMemory s u ∧
        (if memWorks s1 (dieOrd d) k = true then memUnit u (dieOrd d) k = .run ∧ mapGet u.memGates (dieOrd d * 2 + k) false = true
         else memUnit u (dieOrd d) k = .gated)) ∧
    (EntryStarts s1 d 5 e → dieType d = .memory →
      ∃ u, exec (.refresh t die true) s = .next u ∧
        (mbcOf u (dieOrd d)).refAt = refreshSets (mbcOf s1 (dieOrd d)).refAt (fld e 32 16) (entryEdge s1 d) ∧ SameMemory s u) ∧
    (EntryStarts s1 d 6 e → tbit (bstReg s1 d 0x040) 0 = true → reachable s1 d 3 = true → fld e 32 16 ≠ 0xFFFF → fld e 48 16 ≠ 0xFFFF →
        sliceMay s1 d (fld e 32 16) (fld e 48 16) = true →
      ∃ u, exec (.test t die true) s = .next u ∧ (bstOf u d).running = some (fld e 48 16) ∧ SameMemory s u) ∧
    (∀ (n : Fin 18), dieType d = .compute →
      let c := dieOrd d * 18 + n.val
      ((core s1 c).clk.mode = .waking → (core s1 c).clk.wakeAt ≤ s1.now →
        ∃ u, exec (.unitWakeComplete t die n) s = .next u ∧
          (core u c).clk.mode = (if (core s1 c).clk.mhz ≤ smMhz s1 c then .run else .synOff) ∧ (core u c).clk.segT = s1.now ∧
          SameStores s u ∧ u.regs = s.regs) ∧
      ((core s1 c).clk.mode ≠ .waking ∨ s1.now < (core s1 c).clk.wakeAt → exec (.unitWakeComplete t die n) s = .next s1)) ∧
    (∀ c : PhysCore, (core s1 c.val).clk.gateIdle = true → coreWorks (core s1 c.val) = false → (core s1 c.val).clk.mode = .run →
      ∃ u, exec (.coreGatedWhenIdle t c) s = .next u ∧ (core u c.val).clk.mode = stopMode s1 c.val ∧ (core u c.val).clk.gateIdle = false ∧ SameStores s u)

/-- Levels, agreements and slot changes travel as R168, R175 and R179 say (R168, R175, R179, R186, R190). -/
def Obligations.AgreementsAndSlotChanges : Prop :=
  ∀ (t : Time) (die : Die) (level : Fin 32) (frame : Nat) (xs : List Xchg) (v : Word) (s : State),
    let s1 := advance s t
    let rack := fld (reg s1 90 8 0x040) 8 8
    (frsRunning s1 0 = true →
      ∃ u, exec (.reportReceived t die level) s = .next u ∧ mapFind (frsOf u 0).dieLevel die.val = some (frameNum s1 0, level.val) ∧
        u = { s1 with frs := u.frs }) ∧
    (frsRunning s1 die.val = true →
      ∃ u a, exec (.agreementResult t die frame xs) s = .next u ∧ (frsOf u die.val).agreements = (frsOf s1 die.val).agreements ++ [a] ∧
        a.frame = frame ∧ (∀ x ∈ xs, x.level ≤ a.target) ∧ (xs ≠ [] → ∃ x ∈ xs, x.level = a.target) ∧ a.changes.length ≤ 16 ∧
        (∀ x ∈ a.changes, ∀ y ∈ a.changes, x.job = y.job → x.slot = y.slot → x = y) ∧
        (∀ c ∈ a.changes, ∃ x ∈ xs, c ∈ x.changes) ∧
        a.gap = decide (rackLead (sortXchgs xs) rack ≥ 5) ∧ (rackLead (sortXchgs xs) rack > 80 → outOfStep u die.val = true) ∧ SameMemory s u) ∧
    (reachable s1 0 1 = true → (frsOf s1 0).chgQueue.length < 64 →
      ∃ u, exec (.slotChangeSubmit t v) s = .next u ∧ u.regs = s.regs ∧ (frsOf u 0).chgQueue = (frsOf s1 0).chgQueue ++
        [{ node := fld (reg s1 90 8 0x040) 0 16, job := fld (reg s1 0 1 0x0C0) 12 8, slot := fld (reg s1 0 1 0x0C0) 0 12,
           newState := fld (reg s1 0 1 0x0C0) 20 2, len := fld v 0 23 }]) ∧
    (reachable s1 0 1 = true → (frsOf s1 0).chgQueue.length ≥ 64 →
      ∃ u, exec (.slotChangeSubmit t v) s = .next u ∧ TurnedAway 0 1 0x1043 s1 u)

/-- A norm verdict consumes its sample and steps the fallback state; notices and jump reports reach sequencers and trackers (R110, R111, R112,
R115, R121, R182, R183). -/
def Obligations.NormWatchSteps : Prop :=
  ∀ (t : Time) (cd : ComputeDie) (n : Fin 16) (fp32 : Bool) (die : Die) (sn : StepNote) (r : JumpRep) (v : Word) (s : State),
    let s1 := advance s t
    let d := cpDie cd.val
    (verdictDue s1 d n.val = true →
      let sm := readSample s1 d n.val
      let st := nwReg s1 d n.val 0x854
      let left := decide (fld st 0 2 = 3) || decide (fld st 9 8 > 0)
      ∃ u, exec (.normVerdict t cd n fp32) s = .next u ∧ verdictDue u d n.val = false ∧ SameMemory sm.2 u ∧
        (∀ w, sm.1 = .value w → (!left && ratioJump (reg s1 d 1 0x804) (reg s1 d 1 0x808) (nwReg s1 d n.val 0x84C) w) = false →
          nwReg u d n.val 0x850 = w ∧
          nwReg u d n.val 0x84C = meanAfter (fld (reg s1 d 1 0x800) 1 3) left (nwReg s1 d n.val 0x84C) w ∧
          fld (nwReg u d n.val 0x854) 0 2 = (verdictStep (fld st 0 2) (fld st 2 7) (fld st 9 8 - 1) false
            (tbit (frsOf s1 d).replay (fld (nwReg s1 d n.val 0x840) 18 8))
            (decide (mapGet (frsOf s1 d).jumps n.val 0 = jobStep (frsOf s1 d) (fld (nwReg s1 d n.val 0x840) 18 8) + 1)) fp32).state) ∧
        (sm.1 = .missing → tbit (reg u d 1 0x010) 0 = true ∧ tbit (reg u d 1 0x80C) n.val = true)) ∧
    (frsRunning s1 die.val = true → frameNum s1 die.val ≤ sn.frame →
      ∃ u, exec (.stepNotice t die sn) s = .next u ∧ (frsOf u die.val).notices = (frsOf s1 die.val).notices ++ [sn] ∧ SameMemory s u) ∧
    (frsRunning s1 die.val = true → sn.frame < frameNum s1 die.val →
      ∃ u, exec (.stepNotice t die sn) s = .next u ∧ outOfStep u die.val = true ∧ SameMemory s u) ∧
    (dieType die.val = .trunk → reachable s1 die.val 9 = true →
        tbit (rq s1 (dieOrd die.val) (0x300 + 4 * (r.job.val / 32))) (r.job.val % 32) = true →
      ∃ u, exec (.jumpReport t die r) s = .next u ∧
        (tracker u (dieOrd die.val)).jumps = (tracker s1 (dieOrd die.val)).jumps ++
          (if (tracker s1 (dieOrd die.val)).jumps.contains r = true then [] else [r]) ∧ SameMemory s u) ∧
    (reachable s1 d 1 = true → pageLocked s1 d 1 = false → fld v 1 3 = 0 →
      ∃ u, exec (.nwCtrlWrite t cd v) s = .next u ∧ ErrorTaken d 1 0x1030 0xF s1 u ∧ RegsOnly (errRegs d 1) s1 u) ∧
    (reachable s1 d 1 = true → pageLocked s1 d 1 = false → fld v 1 3 ≠ 0 → tbit (reg s1 d 1 0x800) 0 = false →
      ∃ u, exec (.nwCtrlWrite t cd v) s = .next u ∧ reg u d 1 0x800 = v &&& 0x0000FF0F#32 ∧ SameMemory s u ∧
        (tbit v 0 = false → RegsOnly (fun k => k = barOff d 1 0x800) s1 u))

/-- Planned accesses read and write the lines of Tier 1: order of a cycle, poison, partial writes, parity regions, late data, initialisation (R210,
R222, R280, R281, R285, R290, R291, R292, R293). -/
def Obligations.PlannedAccessesFollowTheirLines : Prop :=
  ∀ (t : Time) (stack : Stack) (inp : Fin 5) (addr len : Nat) (data : List Byte) (poison ready : Bool) (s : State),
    let s1 := advance s t
    let st := stack.val
    let off := st * stackSize + addr
    let l := off / 64
    let x := mbcOf s1 st
    let clear : LineEcc := { bad := [], corrected := [] }
    let access (write : Bool) : Instr := .tier1PlannedAccess t stack inp addr write len data poison { ready := ready, lines := clear }
    addr < stackSize →
    (∀ write, isHalted s1 (mmDie st) 8 = true ∨ (initialising x = false ∧ inOrder s1 st inp.val = false) → exec (access write) s = .next s1) ∧
    (∀ write, isHalted s1 (mmDie st) 8 = false → initialising x = true →
      ∃ u a, exec (access write) s = .next u ∧
        (mbcOf u st).waiting = x.waiting ++ [a] ∧ a.addr = addr ∧ a.write = write ∧ a.since = s1.now ∧ SameMemory s u) ∧
    (isHalted s1 (mmDie st) 8 = false → initialising x = false → inOrder s1 st inp.val = true →
      (addr % 64 = 0 → data.length = 64 → xorRegion s1 st addr = none →
        ∃ u, exec (access true) s = .next u ∧
          (∀ a, tier1Byte u a = if off ≤ a ∧ a < off + 64 then data.getD (a - off) 0#8 else tier1Byte s a) ∧
          lineSt u l = (if poison then .error else .clean) ∧ (∀ k, k ≠ l → lineSt u k = lineSt s k) ∧
          (∀ a, tier2Byte u a = tier2Byte s a) ∧ u.cores = s.cores ∧
          (mbcOf u st).planCyc = meshCyc s1 s1.now ∧ (mbcOf u st).planIn = inputRank inp.val) ∧
      (addr % 64 + data.length ≤ 64 → 0 < data.length → poison = false → (xorRegion s1 st addr).isSome = true → lineSt s1 l = .clean →
        ∃ u, exec (access true) s = .next u ∧
          (∀ a, tier1Byte u a = if off ≤ a ∧ a < off + data.length then tier1Byte s a ^^^ data.getD (a - off) 0#8 else tier1Byte s a) ∧
          u.t1line = s.t1line) ∧
      (addr % 64 + data.length ≤ 64 → 0 < data.length → data.length < 64 → xorRegion s1 st addr = none → lineSt s1 l = .never →
        ∃ u, exec (access true) s = .next u ∧ CodeTaken (mmDie st) 8 0x2061 s1 u ∧ SameMemory s u ∧ u.t1line = s.t1line) ∧
      (addr % 64 + len ≤ 64 → 0 < len →
        let timely := ready && !refreshLate x addr len s1.now
        (lineSt s1 l = .clean → timely = true →
          ∃ u, exec (access false) s = .next u ∧
            u.lastResp.err = 0 ∧ u.lastResp.poison = [] ∧ u.lastResp.data = (List.range len).map (fun i => tier1Byte s (off + i)) ∧
            SameMemory s u ∧ u.t1line = s.t1line) ∧
        (lineSt s1 l = .never → timely = true →
          ∃ u, exec (access false) s = .next u ∧
            u.lastResp.poison ≠ [] ∧ CodeTaken (mmDie st) 8 0x2060 s1 u ∧ SameMemory s u ∧ u.t1line = s.t1line) ∧
        (lineSt s1 l = .clean → timely = false →
          ∃ u, exec (access false) s = .next u ∧
            u.lastResp.poison ≠ [] ∧ CodeTaken (mmDie st) 8 0x3051 s1 u ∧ SameMemory s u ∧ u.t1line = s.t1line)))

/-- Arbiters grant by waiting time, priority and turn, a grant stands until its accesses start, and none starts in a refresh; home queues admit held
requests; an uncorrectable entry halts the unit (R283, R284, R285, R302, R306, R346, R405, R442). -/
def Obligations.ArbitersGrantAndQueuesAdmit : Prop :=
  ∀ (t : Time) (die : Die) (others : List (Fin 4)) (ecc : LineEcc) (s : State),
    let s1 := advance s t
    let d := die.val
    let st := dieOrd d
    let x := mbcOf s1 st
    let i := Instr.arbitrationGrant t die others ecc true
    (isHalted s1 d 8 = true ∨ ¬ (dieType d = .memory ∨ d = 98) → exec i s = .next s1) ∧
    (isHalted s1 d 8 = false →
      (dieType d = .memory →
        (initialising x = true ∨ (∃ p, x.grant = some p ∧ p ≠ 0 ∧ portWaits s1 st p = true) → exec i s = .next s1) ∧
        (initialising x = false → x.grant = none → (homeQ s1 d).q = [] →
          let ports := waitingPorts s1 st (others.map (fun p => p.val))
          let free := paced s1 x.arb ports
          (free = [] → ports ≠ [] →
            ∃ u, exec i s = .next u ∧ (mbcOf u st).grant = none ∧ (mbcOf u st).arb.last = x.arb.last ∧
              (∀ p ∈ ports, nth (mbcOf u st).arb.waits p 0 = nth x.arb.waits p 0 + 1) ∧ SameMemory s u) ∧
          (∀ p ∈ free,
            ∃ u g, exec i s = .next u ∧ g ∈ free ∧
              (nth x.arb.waits p 0 ≥ 1024 → nth x.arb.waits g 0 ≥ 1024 ∧ g ≤ p) ∧
              ((∀ q ∈ free, nth x.arb.waits q 0 < 1024) → prioOf s1 d 0x060 p ≤ prioOf s1 d 0x060 g) ∧
              (mbcOf u st).arb.last = g ∧ nth (mbcOf u st).arb.waits g 9 = 0 ∧
              (∀ q ∈ ports, q ≠ g → nth (mbcOf u st).arb.waits q 0 = nth x.arb.waits q 0 + 1) ∧
              (mbcOf u st).grant = (if g = 3 then none else some g) ∧ SameMemory s u)) ∧
        (initialising x = false → x.grant = none → others = [] → ∀ h rest, (homeQ s1 d).q = h :: rest →
          (refreshingAt x (h.msg.offset % stackSize) (max h.msg.len h.msg.data.length) s1.now = true →
            ∃ u, exec i s = .next u ∧ (mbcOf u st).grant = some 0 ∧ (homeQ u d).q = h :: rest ∧ SameMemory s u) ∧
          (refreshingAt x (h.msg.offset % stackSize) (max h.msg.len h.msg.data.length) s1.now = false →
              h.msg.op = 2 → h.msg.data.length = 64 → h.msg.offset % 64 = 0 → h.msg.offset < t1Size →
              xorRegion (putMbc s1 st { x with regionsOf := h.regions }) (h.msg.offset / stackSize) (h.msg.offset % stackSize) = none →
            ∃ u m, exec i s = .next u ∧ (homeQ u d).q = rest ∧ (mbcOf u st).grant = none ∧
              (∀ a, tier1Byte u a = if h.msg.offset ≤ a ∧ a < h.msg.offset + 64 then h.msg.data.getD (a - h.msg.offset) 0#8 else tier1Byte s a) ∧
              lineSt u (h.msg.offset / 64) = (if marked h.msg.poison 0 64 = true then .error else .clean) ∧
              u.lastSent = some m ∧ m.op = 9 ∧ m.dest = h.msg.src ∧ m.tag = h.msg.tag ∧ (∀ a, tier2Byte u a = tier2Byte s a)))) ∧
      (d = 98 → s1.mover.grant = true → (tileWanted s1).isSome = true → exec i s = .next s1) ∧
      (d = 98 → others = [] → (s1.mover.grant && (tileWanted s1).isSome) = false → ∀ h rest, (homeQ s1 98).q = h :: rest →
        ∃ u, exec i s = .next u ∧ (homeQ u 98).q = rest ∧ u.mover.run = s.mover.run ++ [h] ∧ SameMemory s u) ∧
      (d = 98 → (1 : Fin 4) ∈ others → s1.mover.grant = false → (tileWanted s1).isSome = true → (homeQ s1 98).q = [] → paceAllows s1 1 s1.mover.arb.held = true →
        ∃ u, exec i s = .next u ∧ u.mover.grant = true ∧ u.mover.arb.last = 1 ∧ SameMemory s u) ∧
      (dieType d = .memory ∨ d = 98 →
        ∃ u, exec (.arbitrationGrant t die others ecc false) s = .next u ∧ isHalted u d 8 = true ∧ CodeTaken d 0 0x3072 s1 u ∧ SameMemory s u)) ∧
    (∀ (inp : Fin 5),
      ((homeQ s1 d).q.length ≥ homeDepth d ∨ takeHeldOf inp.val (homeQ s1 d).held = none → exec (.homeQueueAdmit t die inp) s = .next s1) ∧
      (∀ h rest, takeHeldOf inp.val (homeQ s1 d).held = some (h, rest) → (homeQ s1 d).q.length < homeDepth d →
        ∃ u h1, exec (.homeQueueAdmit t die inp) s = .next u ∧ (homeQ u d).q = (homeQ s1 d).q ++ [h1] ∧ h1.msg = h.msg ∧ (homeQ u d).held = rest ∧
          SameMemory s u))

/-- Memory dies refresh on their own where R287 and R288 say; initialisation leaves never-written poison or clean zeros (R287, R288, R293, R306,
R465). -/
def Obligations.MemoryDiesRefreshAndInitialise : Prop :=
  ∀ (t : Time) (stack : Stack) (v : Word) (s : State),
    let s1 := advance s t
    let st := stack.val
    let d := mmDie st
    let k := frameTick s1 d
    (frsRunning s1 d = true → baseTicks s1 d ≤ k → (k - baseTicks s1 d) % 96 = 0 → (frsOf s1 d).began + 64 * (k + 96) ≤ (frsOf s1 d).ends →
      ∃ u, exec (.extensionRefreshRound t stack) s = .next u ∧ (∀ j, j < 16 → nth (mbcOf u st).refAt j 0 = s1.now + 1536 * (j / 4)) ∧ SameMemory s u) ∧
    (frsRunning s1 d = false ∨ k < baseTicks s1 d →
      ∃ u, exec (.extensionRefreshRound t stack) s = .next u ∧ u = s1) ∧
    (frsRunning s1 d = false → tbit (mbcReg s1 st 0x044) 2 = false → (startArmed s1 d = true → 24 ≤ ticksToStart s1 d) →
      let due (j : Nat) : Prop :=
        let r := nth (mbcOf s1 st).refAt j 0
        r = 0 ∨ r + 39040 ≤ s1.now ∨ r < (frsOf s1 d).ends
      ((∃ j, j < 16 ∧ due j) →
        ∃ u, exec (.autonomousRefresh t stack) s = .next u ∧
          (∀ j, j < 16 → (due j → nth (mbcOf u st).refAt j 0 = s1.now) ∧ (¬ due j → nth (mbcOf u st).refAt j 0 = nth (mbcOf s1 st).refAt j 0)) ∧
          tbit (mbcReg u st 0x044) 1 = true ∧ SameMemory s u) ∧
      ((∀ j, j < 16 → ¬ due j) → exec (.autonomousRefresh t stack) s = .next s1)) ∧
    (frsRunning s1 d = true → ∃ u, exec (.autonomousRefresh t stack) s = .next u ∧ u = s1) ∧
    (reachable s1 d 8 = true → frsRunning s1 d = false → tbit v 0 = true →
      ∃ u, exec (.poisonInit t stack v) s = .next u ∧ (mbcOf u st).initAt = some s1.now ∧ tbit (mbcReg u st 0x044) 4 = true ∧ SameMemory s u) ∧
    (reachable s1 d 8 = true → frsRunning s1 d = true →
      ∃ u, exec (.poisonInit t stack v) s = .next u ∧ ErrorTaken d 8 0x1080 0x048 s1 u ∧ u.mbc = s.mbc ∧ SameMemory s u) ∧
    (∀ t0, (mbcOf s1 st).initAt = some t0 → t0 + 168000000 ≤ s1.now →
      ∃ u, exec (.poisonInitDone t stack) s = .next (runWaiting u st (mbcOf s1 st).waiting) ∧ (mbcOf u st).waiting = [] ∧ (mbcOf u st).initAt = none ∧ tbit (mbcReg u st 0x044) 4 = false ∧
        tbit (mbcReg u st 0x044) 0 = true ∧ (∀ l, lineStack l = st → lineSt u l = .never) ∧
        (∀ l, lineStack l ≠ st → lineSt u l = lineSt s l) ∧
        (∀ a, tier1Byte u a = if st * stackSize ≤ a ∧ a < (st + 1) * stackSize then 0#8 else tier1Byte s a) ∧
        (∀ a, tier2Byte u a = tier2Byte s a) ∧ u.cores = s.cores) ∧
    (reachable s1 d 8 = true → frsRunning s1 d = false → tbit v 0 = true →
      ∃ u, exec (.zeroInit t stack v) s = .next u ∧ (mbcOf u st).zeroAt = some s1.now ∧ tbit (mbcReg u st 0x044) 4 = true ∧ SameMemory s u) ∧
    (reachable s1 d 8 = true → frsRunning s1 d = true →
      ∃ u, exec (.zeroInit t stack v) s = .next u ∧ ErrorTaken d 8 0x1080 0x500 s1 u ∧ u.mbc = s.mbc ∧ SameMemory s u) ∧
    (∀ t0, (mbcOf s1 st).zeroAt = some t0 →
      (s1.now < t0 + 168000000 → exec (.zeroInitDone t stack) s = .next s1) ∧
      (t0 + 168000000 ≤ s1.now →
        ∃ u, exec (.zeroInitDone t stack) s = .next (runWaiting u st (mbcOf s1 st).waiting) ∧ (mbcOf u st).waiting = [] ∧ (mbcOf u st).zeroAt = none ∧ tbit (mbcReg u st 0x044) 4 = false ∧
          tbit (mbcReg u st 0x044) 0 = true ∧ (∀ l, lineStack l = st → lineSt u l = .clean) ∧ (∀ l, lineStack l ≠ st → lineSt u l = lineSt s l) ∧
          (∀ a, tier1Byte u a = if st * stackSize ≤ a ∧ a < (st + 1) * stackSize then 0#8 else tier1Byte s a)))

/-- The scrubber passes line by line and reports a late pass; a repair poisons its row or fails; parity regions are checked (R223, R290, R291,
R295, R297, R306). -/
def Obligations.ScrubRepairAndRegions : Prop :=
  ∀ (t : Time) (stack : Stack) (ecc : LineEcc) (v : Word) (s : State),
    let s1 := advance s t
    let st := stack.val
    let d := mmDie st
    let x := mbcOf s1 st
    let l := st * stackLines + x.scrubLine
    (tbit (mbcReg s1 st 0x050) 0 = false ∨ initialising x = true ∨ x.grant ≠ some 2 ∨ refreshingAt x (x.scrubLine * 64) 64 s1.now = true →
      exec (.scrubRead t stack ecc) s = .next s1) ∧
    (tbit (mbcReg s1 st 0x050) 0 = true → initialising x = false → x.grant = some 2 → refreshingAt x (x.scrubLine * 64) 64 s1.now = false →
        x.scrubLine + 1 < stackLines →
      ∃ u, exec (.scrubRead t stack ecc) s = .next u ∧ (mbcOf u st).scrubLine = x.scrubLine + 1 ∧ (mbcOf u st).grant = none ∧ SameMemory s u ∧
        fld (mbcReg u st 0x054) 0 24 = (x.scrubLine + 1) / 64 % 2 ^ 24 ∧
        lineSt u l = (if lineSt s l = .clean ∧ x.scrubLine ∈ ecc.bad then .error else lineSt s l) ∧
        (lineSt s l = .clean → x.scrubLine ∈ ecc.bad → CodeTaken d 8 0x3050 s1 u) ∧
        (∀ k, k ≠ l → lineSt u k = lineSt s k)) ∧
    (tbit (mbcReg s1 st 0x050) 0 = true → x.scrubLate = false → s1.now > x.scrubStart + fld (mbcReg s1 st 0x050) 8 8 * hour →
      ∃ u, exec (.scrubBehind t stack) s = .next u ∧ tbit (mbcReg u st 0x044) 3 = true ∧
        ErrorTaken d 8 0x3053 (fld (mbcReg s1 st 0x050) 8 8) s1 u ∧ SameMemory s u ∧ (mbcOf u st).scrubLate = true) ∧
    (reachable s1 d 8 = true → pageLocked s1 d 8 = false → tbit v 30 = true →
      (frsRunning s1 d = true ∨ (homeQ s1 d).q ≠ [] ∨ (homeQ s1 d).held ≠ [] ∨ x.grant.isSome = true ∨ x.ppr.isSome = true ∨ initialising x = true →
        ∃ u, exec (.pprStart t stack v) s = .next u ∧ ErrorTaken d 8 0x1080 0x068 s1 u ∧ u.mbc = s.mbc ∧ SameMemory s u) ∧
      (frsRunning s1 d = false → (homeQ s1 d).q = [] → (homeQ s1 d).held = [] → x.grant = none → x.ppr = none → initialising x = false →
        ∃ u, exec (.pprStart t stack v) s = .next u ∧ (mbcOf u st).ppr = some (fld v 0 26) ∧ tbit (mbcReg u st 0x06C) 0 = true ∧ SameMemory s u)) ∧
    (∀ p, x.ppr = some p →
      (mapGet s1.rowsUsed (bankKey st p) 0 < 2 →
        ∃ u, exec (.pprComplete t stack) s = .next u ∧ tbit (mbcReg u st 0x06C) 0 = false ∧ (mbcOf u st).ppr = none ∧
          mapGet u.rowsUsed (bankKey st p) 0 = mapGet s.rowsUsed (bankKey st p) 0 + 1 ∧ (∀ k ∈ rowLines st p, lineSt u k = .never) ∧
          (∀ k, k ∉ rowLines st p → lineSt u k = lineSt s k) ∧ (∀ a, a / 64 ∉ rowLines st p → tier1Byte u a = tier1Byte s a)) ∧
      (mapGet s1.rowsUsed (bankKey st p) 0 ≥ 2 →
        ∃ u, exec (.pprComplete t stack) s = .next u ∧ tbit (mbcReg u st 0x06C) 0 = false ∧ tbit (mbcReg u st 0x06C) 1 = true ∧
          mapGet u.badRows (st * 2 ^ 26 + p % 2 ^ 26) false = true ∧ SameMemory s u ∧ u.t1line = s.t1line)) ∧
    (∀ n : Fin 8, reachable s1 d 8 = true → pageLocked s1 d 8 = false →
      (∃ u, exec (.parityRegionWrite t stack n false v) s = .next u ∧ mbcReg u st (0x300 + 8 * n.val) = v &&& 0x00FFFFFF#32 ∧ SameMemory s u ∧
        SameRegsBut (fun k => k = barOff d 8 (0x300 + 8 * n.val)) s1 u) ∧
      (tbit v 31 = false ∨ regionOverlaps s1 st n.val (fld (mbcReg s1 st (0x300 + 8 * n.val)) 0 24) (fld v 0 24) = false →
        ∃ u, exec (.parityRegionWrite t stack n true v) s = .next u ∧ mbcReg u st (0x304 + 8 * n.val) = v &&& 0x80FFFFFF#32 ∧ SameMemory s u ∧
          SameRegsBut (fun k => k = barOff d 8 (0x304 + 8 * n.val)) s1 u) ∧
      (tbit v 31 = true → regionOverlaps s1 st n.val (fld (mbcReg s1 st (0x300 + 8 * n.val)) 0 24) (fld v 0 24) = true →
        ∃ u, exec (.parityRegionWrite t stack n true v) s = .next u ∧ TurnedAway d 8 0x1051 s1 u))

/-- Segments map the pool; die 98 performs or fails what it was granted; a passed deadline completes with 0x3060 (R42, R294, R301, R302, R345,
R347). -/
def Obligations.PoolRequestsAreAnswered : Prop :=
  ∀ (t : Time) (k : Fin 256) (v : Word) (out : CxlOut) (h : HomeReq) (rest : List HomeReq) (s : State),
    let s1 := advance s t
    let m := h.msg
    (reachable s1 98 8 = false → exec (.segmentWrite t k v) s = .next s1) ∧
    (reachable s1 98 8 = true → pageLocked s1 98 8 = true →
      ∃ u, exec (.segmentWrite t k v) s = .next u ∧ TurnedAway 98 8 0x1003 s1 u) ∧
    (reachable s1 98 8 = true → pageLocked s1 98 8 = false →
      (tbit v 31 = false ∨ (baseTaken s1 k.val (fld v 0 12) = false ∧ fld v 0 12 < fld (hlk s1 0x050) 0 13) →
        ∃ u, exec (.segmentWrite t k v) s = .next u ∧ hlk u (0x800 + 4 * k.val) = v &&& 0x80000FFF#32 ∧
          SameRegsBut (fun r => r = barOff 98 8 (0x800 + 4 * k.val)) s1 u ∧ SameMemory s u) ∧
      (tbit v 31 = true → baseTaken s1 k.val (fld v 0 12) = true ∨ fld (hlk s1 0x050) 0 13 ≤ fld v 0 12 →
        ∃ u, exec (.segmentWrite t k v) s = .next u ∧ TurnedAway 98 8 0x1082 s1 u)) ∧
    (s1.mover.run = h :: rest →
      (h.pool = none →
        ∃ u r, exec (.tier2Access t out) s = .next u ∧ u.mover.run = rest ∧ u.lastSent = some r ∧ r.op = 0xB ∧ r.status = 0x4013 ∧
          r.tag = m.tag ∧ r.dest = m.src ∧ SameMemory s u ∧ u.regs = s.regs) ∧
      (∀ a, h.pool = some a → out.fail = true ∨ cxlUp s1 = false →
        ∃ u r, exec (.tier2Access t out) s = .next u ∧ u.mover.run = rest ∧ u.lastSent = some r ∧ r.op = 0xB ∧ r.status = 0x3061 ∧
          CodeTaken 98 8 0x3061 s1 u ∧ SameMemory s u) ∧
      (∀ a, h.pool = some a → out.fail = false → cxlUp s1 = true →
        (m.op = 2 →
          ∃ u r, exec (.tier2Access t out) s = .next u ∧ u.mover.run = rest ∧ u.lastSent = some r ∧ r.op = 9 ∧ r.status = 0 ∧
            (∀ b, tier2Byte u b = if a ≤ b ∧ b < a + m.data.length then m.data.getD (b - a) 0#8 else tier2Byte s b) ∧
            (∀ b, tier1Byte u b = tier1Byte s b) ∧ u.cores = s.cores ∧ u.regs = s.regs) ∧
        (m.op = 3 →
          let n := atomicBytes m
          let old := ofLE ((List.range n).map (fun i => tier2Byte s (a + i)))
          let new := atomicStore m old
          (poolRangeBad s1 out a n = true →
            ∃ u r, exec (.tier2Access t out) s = .next u ∧ u.mover.run = rest ∧ u.lastSent = some r ∧ r.op = 0xB ∧ r.status = 0x3052 ∧
              CodeTaken 98 8 0x2062 s1 u ∧ SameMemory s u) ∧
          (poolRangeBad s1 out a n = false →
            ∃ u r, exec (.tier2Access t out) s = .next u ∧ u.mover.run = rest ∧ u.lastSent = some r ∧ r.op = 0xA ∧ r.data = atomicReply old ∧
              (∀ b, tier2Byte u b = if a ≤ b ∧ b < a + n then new.getD (b - a) 0#8 else tier2Byte s b) ∧ u.cores = s.cores ∧ u.regs = s.regs)) ∧
        (m.op = 1 → poolRangeBad s1 out a m.len = false →
          ∃ u r, exec (.tier2Access t out) s = .next u ∧ u.lastSent = some r ∧ r.op = 8 ∧ r.status = 0 ∧ r.poison = [] ∧
            r.data = (List.range m.len).map (fun i => tier2Byte s (a + i)) ∧ SameMemory s u ∧ u.regs = s.regs) ∧
        (m.op = 1 → poolRangeBad s1 out a m.len = true →
          ∃ u r, exec (.tier2Access t out) s = .next u ∧ u.lastSent = some r ∧ r.op = 8 ∧ r.poison ≠ [] ∧
            CodeTaken 98 8 0x2062 s1 u ∧ SameMemory s u)) ∧
      (expired s1 m = true →
        ∃ u r, exec (.tier2DeadlineExpiry t) s = .next u ∧ u.mover.run = rest ∧ u.lastSent = some r ∧ r.op = 0xB ∧ r.status = 0x3060 ∧ r.tag = m.tag ∧
          CodeTaken 98 8 0x3060 s1 u ∧ SameMemory s u)) ∧
    (s1.mover.run = [] → exec (.tier2Access t out) s = .next s1) ∧
    (s1.mover.run.find? (fun h => expired s1 h.msg) = none →
      ((homeQ s1 98).q.find? (fun h => expired s1 h.msg) = none → exec (.tier2DeadlineExpiry t) s = .next s1) ∧
      (∀ g, (homeQ s1 98).q.find? (fun h => expired s1 h.msg) = some g →
        ∃ u r, exec (.tier2DeadlineExpiry t) s = .next u ∧ (homeQ u 98).q = (homeQ s1 98).q.erase g ∧ u.mover.run = s.mover.run ∧
          u.lastSent = some r ∧ r.op = 0xB ∧ r.status = 0x3060 ∧ r.tag = g.msg.tag ∧ CodeTaken 98 8 0x3060 s1 u ∧ SameMemory s u))

/-- Tier moves queue, run tile by tile, end with their status, and host links go down and up as R303 to R307 and R501 say (R301, R303, R304,
R305, R307, R501, R511). -/
def Obligations.TierMovesRunAndEnd : Prop :=
  ∀ (t : Time) (v : Word) (out : CxlOut) (s : State),
    let s1 := advance s t
    let clear : LineEcc := { bad := [], corrected := [] }
    (reachable s1 98 8 = true →
      let m := moveOf s1 (fld v 0 16)
      (s1.mover.queue.length < 64 → moveBad m = false →
        ∃ u, exec (.tierMoveQueue t v) s = .next u ∧ u.mover = { s1.mover with queue := s1.mover.queue ++ [m] } ∧ u.regs = s.regs ∧ SameMemory s u) ∧
      (s1.mover.queue.length ≥ 64 ∨ moveBad m = true →
        ∃ u, exec (.tierMoveQueue t v) s = .next u ∧ TurnedAway 98 8 0x1081 s1 u)) ∧
    (∀ m, s1.mover.cur = some m → m.moved < m.tiles → s1.mover.done.length < 64 →
      (cxlUp s1 = true → mayMove s1 = true → tileGranted s1 m = true → out = { fail := false, poison := [] } → m.inward = false → m.t1 % 4096 = 0 →
        (∀ i, i < 64 → lineSt s1 (m.t1 / 64 + m.moved * 64 + i) = .clean) → ∀ a, poolAddr s1 (m.t2 + m.moved * 4096) = some a → a % 4096 = 0 →
        ∃ w, exec (.tierMoveTile t out clear) s = .next (serveAll w) ∧ w.mover.cur = some { m with moved := m.moved + 1 } ∧ w.mover.grant = false ∧
          (∀ b, tier2Byte w b = if a ≤ b ∧ b < a + 4096 then tier1Byte s (m.t1 + m.moved * 4096 + (b - a)) else tier2Byte s b) ∧
          (∀ b, tier1Byte w b = tier1Byte s b) ∧ w.cores = s.cores) ∧
      (cxlUp s1 = true → mayMove s1 = true → tileGranted s1 m = true → poolAddr s1 (m.t2 + m.moved * 4096) = none →
        ∃ w d, exec (.tierMoveTile t out clear) s = .next (serveAll w) ∧ w.mover.cur = none ∧ w.mover.done = s1.mover.done ++ [d] ∧
          d.tag = m.tag ∧ d.status = 0x4013 ∧ d.moved = m.moved ∧ CodeTaken 98 8 0x4013 s1 w ∧ SameMemory s w) ∧
      (cxlUp s1 = true → mayMove s1 = false →
        ∃ w, exec (.tierMoveTile t out clear) s = .next (serveAll w) ∧ w.mover.waitSince.isSome = true ∧ w.mover.cur = some m ∧ SameMemory s w) ∧
      (cxlUp s1 = false →
        ∃ w d, exec (.tierMoveTile t out clear) s = .next (serveAll w) ∧ w.mover.cur = none ∧ w.mover.done = s1.mover.done ++ [d] ∧
          d.tag = m.tag ∧ d.status = 0x3061 ∧ d.moved = m.moved ∧ ErrorTaken 98 8 0x3061 (m.tag % 2 ^ 24) s1 w ∧ SameMemory s w)) ∧
    (∀ m, s1.mover.cur = some m → m.tiles ≤ m.moved →
      ∃ w d, exec (.tierMoveComplete t) s = .next (serveAll w) ∧ w.mover.cur = none ∧ w.mover.done = s1.mover.done ++ [d] ∧
        d.tag = m.tag ∧ d.status = m.status ∧ d.moved = m.moved ∧ d.late = decide (meshCyc s1 m.due ≤ meshCyc s1 s1.now) ∧
        (m.srcPoison = false → SameMemory s w) ∧
        (m.srcPoison = true → ∀ l, m.t1 / 64 ≤ l → l < m.t1 / 64 + m.tiles * 64 → m.t1 + m.tiles * 4096 ≤ t1Size → lineStack l = lineStack (m.t1 / 64) →
          lineStack (m.t1 / 64 + m.tiles * 64 - 1) = lineStack l → lineSt w l = .never)) ∧
    (∀ m, s1.mover.cur = some m → m.moved < m.tiles → m.due ≤ s1.now → s1.mover.queue = [] →
      ∃ w d, exec (.tierMoveDeadline t) s = .next (serveAll w) ∧ w.mover.cur = none ∧ w.mover.done = s1.mover.done ++ [d] ∧
        d.tag = m.tag ∧ d.status = 0x3060 ∧ d.moved = m.moved ∧ d.late = false ∧ SameMemory s w) ∧
    (reachable s1 98 8 = true →
      (∀ d rest, s1.mover.done = d :: rest →
        ∃ u, exec (.tmDoneRead t) s = .next u ∧ u.mover.done = rest ∧ fld u.lastRead 0 16 = d.tag % 2 ^ 16 ∧
          (d.tag < 2 ^ 16 → tbit u.lastRead 16 = true ∧ tbit u.lastRead 17 = d.late) ∧
          (d.status < 2 ^ 16 → d.moved < 2 ^ 16 → fld (hlk u 0x620) 0 16 = d.status ∧ fld (hlk u 0x620) 16 16 = d.moved) ∧ SameMemory s u) ∧
      (s1.mover.done = [] → ∃ u, exec (.tmDoneRead t) s = .next u ∧ u = { s1 with lastRead := 0#32 })) ∧
    (∀ hl : Fin 2, tbit (reg s1 (hlDie hl.val) 8 0x044) 9 = true → s1.mover.cur = none → s1.mover.run = [] →
      ∃ w, exec (.hostLinkDown t hl) s = .next (serveAll w) ∧ tbit (reg w (hlDie hl.val) 8 0x044) 9 = false ∧
        CodeTaken (hlDie hl.val) 8 0x5030 s1 w ∧ SameMemory s w) ∧
    (∀ (hl : Fin 2) (rate : Fin 8) (width : Fin 32), tbit (reg s1 (hlDie hl.val) 8 0x044) 9 = false → reachable s1 (hlDie hl.val) 8 = true →
        linkHeld s1 (hlDie hl.val) = false →
      ∃ u, exec (.hostLinkUp t hl rate width) s = .next u ∧ tbit (reg u (hlDie hl.val) 8 0x044) 9 = true ∧
        fld (reg u (hlDie hl.val) 8 0x044) 0 3 = rate.val ∧ fld (reg u (hlDie hl.val) 8 0x044) 3 5 = width.val ∧ SameMemory s u)

/-- A submission that fails a check is read and completed with that check's error (R253, R254, R255, R257, R259, R266, R271). -/
def Obligations.SubmissionsThatFailAreCompleted : Prop :=
  ∀ (t : Time) (k : Fin 2) (entry param manifest : List Byte) (graft : Option (List Nat)) (sigOk staged : Bool) (m : Fin 32) (s : State),
    let s1 := advance s t
    let op := leAt entry 0 1
    let job := leAt entry 1 1
    let six : List Instr := [.generate t k entry param graft, .cancel t k entry, .park t k entry,
      .canopyLoad t k entry param manifest sigOk staged, .canopyPin t k entry m, .canopyUnpin t k entry m]
    let refused (u : State) (code info : Nat) : Prop :=
      ErrorTaken (trDie k.val) 9 code info s1 u ∧ rq u k.val 0x058 = rq s1 k.val 0x058 + 1#32 ∧ SameMemory s u ∧
        CompletionPosted s1 u k.val (completion (leAt entry 8 8) code (if op ≥ 0x10 then 0 else 7) false false 0 0 0)
    (takesSubmission s1 k.val = false → ∀ i ∈ six, ∃ u, exec i s = .next u ∧ u = s1) ∧
    (takesSubmission s1 k.val = true →
      (malformed entry = true → ∀ i ∈ six, ∃ u, exec i s = .next u ∧ refused u 0xA040 op) ∧
      (malformed entry = false → op ≤ 3 → tracks s1 k.val job = false → ∀ i ∈ six, ∃ u, exec i s = .next u ∧ refused u 0xA041 job) ∧
      (malformed entry = false → op = 1 → tracks s1 k.val job = true →
        ((tracker s1 k.val).reqs.any (fun r => decide (r.id % 2 ^ 32 = leAt entry 8 4)) = true →
          ∃ u, exec (.generate t k entry param graft) s = .next u ∧ refused u 0xA042 job) ∧
        ((tracker s1 k.val).reqs.any (fun r => decide (r.id % 2 ^ 32 = leAt entry 8 4)) = false → ∀ o, paramFault param = some o →
          ∃ u, exec (.generate t k entry param graft) s = .next u ∧ refused u 0xA045 o)) ∧
      (malformed entry = false → op = 2 → tracks s1 k.val job = true → findReq s1 k.val (leAt entry 8 8) job = none →
        ∃ u, exec (.cancel t k entry) s = .next u ∧ refused u 0xA047 job))

/-- A valid GENERATE opens its request; CANCEL ends one, PARK drains one; a deadline ends one (R191, R215, R254, R255, R256, R257, R266, R298). -/
def Obligations.RequestsOpenAndEnd : Prop :=
  ∀ (t : Time) (k : Fin 2) (entry param : List Byte) (graft : Option (List Nat)) (s : State),
    let s1 := advance s t
    let job := leAt entry 1 1
    let n := (tracker s1 k.val).reqs
    (takesSubmission s1 k.val = true → malformed entry = false → tracks s1 k.val job = true →
      (leAt entry 0 1 = 1 → (∀ r ∈ n, r.id % 2 ^ 32 ≠ leAt entry 8 4) → paramFault param = none → leAt param 0x16 1 / 4 % 2 = 0 →
          leAt param 0x08 4 ≠ 0 → leAt param 0x28 4 = 0xFFFFFFFF →
          (if isOrigin s1 then jobResident s1 job || jobLoading s1 job else !jobSkipped s1 job) = true →
        ∃ w r, exec (.generate t k entry param graft) s = .next (serveAll w) ∧ (tracker w k.val).reqs = n ++ [r] ∧ r.id = leAt entry 8 8 ∧
          r.job = job ∧ r.ring = leAt entry 2 1 ∧ r.prompt = leAt param 0x08 4 ∧ r.maxNew = leAt param 0x0C 4 ∧ r.session = leAt param 0x30 8 ∧
          r.spread = decide (262144 < leAt param 0x08 4 + leAt param 0x0C 4) ∧ r.phase = 0 ∧ r.graft = none ∧
          rq w k.val 0x058 = rq s1 k.val 0x058 + 1#32 ∧ SameMemory s w) ∧
      (∀ r, findReq s1 k.val (leAt entry 8 8) job = some r → r.phase = 2 → (frsOf s1 0).chgQueue.length < 64 →
          r.job < 256 → r.slot < 4096 →
        (leAt entry 0 1 = 2 →
          ∃ w, exec (.cancel t k entry) s = .next (serveAll w) ∧ (tracker w k.val).reqs = n.filter (fun q => !decide (q = r)) ∧
            sessionOf w r.session = none ∧ ChangeQueued s1 w r.job r.slot 3 0 ∧
            (r.home = k.val → CompletionPosted s1 w k.val (completion r.id 0 5 r.anomaly r.seedChosen r.written r.seed (reqLen s1 r)))) ∧
        (leAt entry 0 1 = 3 → hasFeature s1 4 = true →
          ∃ u, exec (.park t k entry) s = .next u ∧ (tracker u k.val).reqs = n.map (fun q => if q = r then { r with phase := 3 } else q) ∧
            ChangeQueued s1 u r.job r.slot 3 0 ∧ SameMemory s u))) ∧
    (∀ r d, trackerActs s1 k.val = true → n = [r] → r.due = some d → d ≤ s1.power.slowMs → r.phase = 2 → r.home = k.val →
        (frsOf s1 0).chgQueue.length < 64 → r.job < 256 → r.slot < 4096 →
      ∃ w x, exec (.requestDeadline t k) s = .next (serveAll w) ∧ (tracker w k.val).reqs = [] ∧ ChangeQueued s1 w r.job r.slot 3 0 ∧
        sessionOf w r.session = some x ∧ x.len = reqLen s1 r ∧ x.st = 0 ∧ x.due = r.stepMs + r.ttl * 1000 ∧
        CompletionPosted s1 w k.val (completion r.id 0 4 r.anomaly r.seedChosen r.written r.seed (reqLen s1 r)))

/-- A waiting request is admitted to the lowest free slot of its class; sessions expire when their time has elapsed (R168, R191, R216, R256,
R298, R299, R300). -/
def Obligations.AdmissionAndExpiry : Prop :=
  ∀ (t : Time) (k : Fin 2) (s : State),
    let s1 := advance s t
    (∀ r n, trackerActs s1 k.val = true → (tracker s1 k.val).reqs = [r] → r.phase = 0 → r.resume = false → r.graft = none → r.prompt ≠ 0 →
        modelReady s1 r.job = true → evicting s1 = false → (frsOf s1 0).chgQueue.length < 64 → freeJobSlot s1 r.job r.spread = some n →
        r.job < 256 → n < 4096 → r.prompt < 2 ^ 23 →
      ∃ w, exec (.requestAdmit t k) s = .next (serveAll w) ∧
        (tracker w k.val).reqs = [{ r with phase := 2, slot := n, base := 0, poolEnt := 0, at0 := r.next, stepMs := s1.power.slowMs, stepNo := s1.serv.commits }] ∧
        mapGet w.serv.samplers (slotKey r.job n) none = some (newSampler r.param r.seed r.next) ∧
        mapGet w.serv.prompts (slotKey r.job n) (0, 0) = (leAt r.param 0 8, r.prompt) ∧
        ChangeQueued s1 w r.job n 1 r.prompt ∧ occupied s1 r.job n = false ∧ slotSpread s1 r.job n = r.spread ∧
        (∀ j, j < n → slotSpread s1 r.job j = r.spread → occupied s1 r.job j = true) ∧ SameMemory s w) ∧
    (fwRuns s1 = true → mapWf (fun _ => (none : Option Session)) s.serv.sessions = true →
      (∃ u, exec (.parkTtlExpiry t) s = .next u ∧ SameMemory s u ∧ u.regs = s.regs ∧ ∀ id, sessionOf u id =
        (sessionOf s id).map (fun x =>
          if x.st = 1 ∧ x.due < s.power.slowMs ∧ resumeWaits s id = false then { x with st := 4, ext := [], keys := [] } else x)) ∧
      (∃ w, exec (.retainedSessionExpiry t) s = .next (serveAll w) ∧ SameMemory s w ∧ w.regs = s.regs ∧ ∀ id, sessionOf w id =
        (sessionOf s id).filter (fun x => !(decide (x.st = 0) && decide (x.due ≤ s.power.slowMs)))))

/-- A released token is posted to its stream in order; held entries drain in order while their ring has room (R253, R257, R258, R259, R260,
R265). -/
def Obligations.TokensAndHeldEntriesReachTheHost : Prop :=
  ∀ (t : Time) (k : Fin 2) (n : Fin 16) (s : State),
    let s1 := advance s t
    (∀ (x : TokenRec) (r : Request) (y : Sampler), trackerActs s1 k.val = true → (tracker s1 k.val).reqs = [r] → x.poison = false →
        mapGet s1.serv.samplers (slotKey x.job.val x.slot.val) none = some y → y.stopped = false → producesToken s1 x.job.val x.slot.val = true →
        tbit (frsOf s1 0).replay x.job.val = false → r.job = x.job.val → r.slot = x.slot.val → r.phase = 2 → r.next ≤ y.index → r.home = k.val →
        r.due = none → r.ring < 16 → streamRoom s1 k.val r.ring = true → heldStream s1 k.val r.ring = [] → (tracker s1 k.val).jumps = [] →
        jobRebuilding s1 r.job = false → mapGet (tracker s1 k.val).replayed r.job false = false →
      let z := sampleStep y x.logits
      let r1 : Request := { r with next := y.index + 1, token := z.1.1, anomaly := r.anomaly || z.1.2.2.2 }
      let r2 : Request := { r1 with written := r.written + 1 }
      (z.1.2.2.1 = 0 →
        ∃ w, exec (.tokenRelease t k [x] []) s = .next (serveAll w) ∧
          RingTook s1 w k.val (streamOff r.ring) (streamOff r.ring + 8) (streamOff r.ring + 0xC)
            (streamEntry (r.id % 2 ^ 32) z.1.1 y.index z.1.2.2.2 false false) ∧
          (tracker w k.val).reqs = [r2] ∧ mapGet w.serv.samplers (slotKey x.job.val x.slot.val) none = some z.2 ∧ SameMemory s w) ∧
      (z.1.2.2.1 ≠ 0 → (frsOf s1 0).chgQueue.length < 64 →
        ∃ w, exec (.tokenRelease t k [x] []) s = .next (serveAll w) ∧
          (let shown := decide (z.1.2.2.1 = 3) || r.inclStop
           let q := if shown then r2 else r1
           rq w k.val (streamOff r.ring + 0xC) = rq s1 k.val (streamOff r.ring + 0xC) + (if shown then 1#32 else 0#32) ∧
           CompletionPosted s1 w k.val (completion r.id 0 z.1.2.2.1 q.anomaly r.seedChosen q.written r.seed (reqLen s1 q))) ∧
          (tracker w k.val).reqs = [] ∧ ChangeQueued s1 w r.job r.slot 3 0 ∧ z.2.stopped = true ∧ SameMemory s w)) ∧
    (ringsServed s1 k.val = true →
      ((heldStream s1 k.val n.val).length ≤ 1024 →
        ∃ u m, exec (.streamHoldDrain t k n) s = .next u ∧ heldStream u k.val n.val = (heldStream s1 k.val n.val).drop m ∧ m ≤ (heldStream s1 k.val n.val).length ∧
          rq u k.val (streamOff n.val + 0xC) = rq s1 k.val (streamOff n.val + 0xC) + BitVec.ofNat 32 m ∧
          (heldStream u k.val n.val = [] ∨ streamRoom u k.val n.val = false) ∧ SameMemory s u) ∧
      ((tracker s1 k.val).holdC.length ≤ 4096 → (tracker s1 k.val).holdS = [] →
        ∃ u m, exec (.completionHoldDrain t k) s = .next u ∧ (tracker u k.val).holdC = (tracker s1 k.val).holdC.drop m ∧ m ≤ (tracker s1 k.val).holdC.length ∧
          rq u k.val 0x06C = rq s1 k.val 0x06C + BitVec.ofNat 32 m ∧ ((tracker u k.val).holdC = [] ∨ cqRoom u k.val = false) ∧ SameMemory s u))

/-- Canopy commands load, pin and unpin models as R270 and R271 say; a graft verdict keeps or zeroes the step factor (R247, R252, R257, R269,
R270, R271). -/
def Obligations.CanopyCommandsAndGraftVerdicts : Prop :=
  ∀ (t : Time) (k : Fin 2) (entry param manifest : List Byte) (sigOk staged : Bool) (m : Fin 32) (s : State),
    let s1 := advance s t
    let id := leAt entry 8 8
    (takesSubmission s1 k.val = true → malformed entry = false →
      (servesCanopy s1 k.val = false → leAt entry 0 1 ≥ 0x10 → ∀ i ∈ ([.canopyLoad t k entry param manifest sigOk staged, .canopyPin t k entry m,
          .canopyUnpin t k entry m] : List Instr),
        ∃ u, exec i s = .next u ∧ ErrorTaken (trDie k.val) 9 0xA041 0 s1 u ∧ CompletionPosted s1 u k.val (completion id 0xA041 0 false false 0 0 0)) ∧
      (servesCanopy s1 k.val = true →
        (leAt entry 0 1 = 0x10 → leAt param 0 1 < 32 → leAt param 1 1 ≤ 1 → zeroAt param 2 6 = true → zeroAt param 20 44 = true →
          ((modelOf s1 (leAt param 0 1)).st ∈ [2, 3, 4] →
            ∃ u, exec (.canopyLoad t k entry param manifest sigOk staged) s = .next u ∧ u.serv = s.serv ∧
              CompletionPosted s1 u k.val (completion id 0 0 false false 0 0 0) ∧ SameMemory s u) ∧
          ((modelOf s1 (leAt param 0 1)).st = 0 → hasFeature s1 5 = true → hasFeature s1 6 = true → manifestFault s1 manifest sigOk = none →
            ∃ w x, exec (.canopyLoad t k entry param manifest sigOk staged) s = .next (serveAll w) ∧ w.serv.loads = s.serv.loads ++ [x] ∧
              x.id = id ∧ x.model = leAt param 0 1 ∧ x.manifest = manifest ∧ SameMemory s w)) ∧
        (leAt entry 0 1 = 0x11 → (modelOf s1 m.val).st ∈ [3, 4] →
          ∃ u, exec (.canopyPin t k entry m) s = .next u ∧ (modelOf u m.val).st = 4 ∧ CompletionPosted s1 u k.val (completion id 0 0 false false 0 0 0) ∧
            SameMemory s u) ∧
        (leAt entry 0 1 = 0x12 → (modelOf s1 m.val).st ∈ [3, 4] → latencyPinned s1 (placedJob s1 m.val) = false →
          ∃ u, exec (.canopyUnpin t k entry m) s = .next u ∧ (modelOf u m.val).st = 3 ∧ CompletionPosted s1 u k.val (completion id 0 0 false false 0 0 0) ∧
            SameMemory s u) ∧
        ((modelOf s1 m.val).st ∉ [3, 4] →
          (leAt entry 0 1 = 0x11 → ∃ u, exec (.canopyPin t k entry m) s = .next u ∧ ErrorTaken (trDie k.val) 9 0xA043 m.val s1 u ∧ u.serv = s.serv) ∧
          (leAt entry 0 1 = 0x12 → ∃ u, exec (.canopyUnpin t k entry m) s = .next u ∧ ErrorTaken (trDie k.val) 9 0xA043 m.val s1 u ∧ u.serv = s.serv)))) ∧
    (∀ (g : Fin 65536) (sample : Word) (factor : Option Word),
      ((fwRuns s1 = false ∨ inCtl s1 0 = false ∨ (trainingOf s1 g.val).stopped = true) → exec (.graftVerdict t g sample factor) s = .next s1) ∧
      (∀ (pl : PlanInfo) (e : Envelope), s.plan = some pl → pl.env = some e → fwRuns s1 = true → inCtl s1 0 = true →
        let x := trainingOf s1 g.val
        let jump := sampleBad sample || (!decide (x.seen < e.warmup) && f32lt (f32mul (BitVec.ofNat 32 e.thresh) x.mean) sample)
        x.stopped = false →
        (jump = true →
          ∃ u, exec (.graftVerdict t g sample factor) s = .next u ∧ (trainingOf u g.val).factor = 0#32 ∧
            (trainingOf u g.val).jumps = x.jumps + 1 ∧ (trainingOf u g.val).mean = x.mean ∧
            ((trainingOf u g.val).stopped = true ↔ e.stop ≤ x.jumps + 1) ∧
            (e.stop ≤ x.jumps + 1 → ErrorTaken (trDie (trackerOf s1 (graftJob s1 g.val))) 9 0xA033 g.val s1 u) ∧ SameMemory s u) ∧
        (jump = false →
          ∃ u, exec (.graftVerdict t g sample factor) s = .next u ∧ (trainingOf u g.val).factor = factor.getD 0#32 ∧
            (trainingOf u g.val).jumps = 0 ∧ (trainingOf u g.val).seen = x.seen + 1 ∧ (trainingOf u g.val).stopped = false ∧
            (x.seen = 0 → (trainingOf u g.val).mean = sample) ∧ u.regs = s.regs ∧ SameMemory s u)))

/-- Sealing a page raises its SEALED_LIMIT word, a page not sealed in time ends its request, an overlong local sequence drains (R192, R196, R197,
R198). -/
def Obligations.PagesAreSealedOrTheirRequestEnds : Prop :=
  ∀ (t : Time) (job : Fin 256) (slot : Fin 4096) (layer : Fin 1024) (group : Fin 64) (page : Fin 16384) (s : State),
    let s1 := advance s t
    (∀ k, kvOf s1 job.val = some k → sealsNow s1 k slot.val layer.val group.val = false →
      exec (.sealPage t job slot layer group page true) s = .next s1) ∧
    (∀ k r c, kvOf s1 job.val = some k → ringRec s1 k layer.val group.val slot.val = some (r, c) →
        sealsNow s1 k slot.val layer.val group.val = true →
      let limit := 256 * (page.val + 1)
      let key := sealKey k.job slot.val layer.val group.val
      let b := sealBytes s1 k r c slot.val page.val
      (parityRec k slot.val layer.val group.val = none →
        ∃ u, exec (.sealPage t job slot layer group page true) s = .next u ∧
          mapGet u.serv.sealedTo key 0 = limit ∧ mapGet u.serv.sealedCopy (2 * key + (frameNum s1 0 + 1) % 2) 0#32 = limitWord limit ∧
          (∀ a, tier2Byte u a = tier2Byte s a) ∧
          (∀ fr j, frameRec k layer.val slot.val = some fr → pageOrdinal s1 k layer.val slot.val page.val = some j →
            ∀ a, a < frameAt k fr slot.val group.val j ∨ frameAt k fr slot.val group.val j + b.2.1.length ≤ a → tier1Byte u a = tier1Byte s a) ∧
          (pageOrdinal s1 k layer.val slot.val page.val = none → (∀ a, tier1Byte u a = tier1Byte s a) ∧ u.lastBytes = b.2.1)) ∧
      (∀ p, parityRec k slot.val layer.val group.val = some p → frsRunning s1 0 = true →
        ∃ u, exec (.sealPage t job slot layer group page true) s = .next u ∧ mapGet u.serv.sealedTo key 0 = limit ∧
          u.serv.parityWait = s.serv.parityWait ++ [{ job := k.job, slot := slot.val, group := group.val, layer := layer.val, page := page.val,
                                                      step := jobStep (frsOf s1 0) k.job + 2 }])) ∧
    (∀ j r, slotRequest s1 job.val slot.val = some (j, r) → r.phase = 2 → (frsOf s1 0).chgQueue.length < 64 →
      ∃ u, exec (.sealPage t job slot layer group page false) s = .next u ∧
        ErrorTaken (trDie j) 9 0xA021 (slot.val + job.val * 4096) s1 u ∧ sessionOf u r.session = none ∧ r ∉ (tracker u j).reqs ∧
        ChangeQueued s1 u job.val slot.val 3 0 ∧ SameMemory s u) ∧
    (∀ j r, slotRequest s1 job.val slot.val = some (j, r) → r.phase = 2 → slotSpread s1 job.val slot.val = false → 262143 ≤ reqLen s1 r →
        (frsOf s1 0).chgQueue.length < 64 →
      ∃ u, exec (.localSequenceNotExtended t job slot) s = .next u ∧ { r with phase := 4 } ∈ (tracker u j).reqs ∧
        ChangeQueued s1 u job.val slot.val 3 0 ∧ SameMemory s u)

/-- Ports detect, train, authenticate, quarantine and retrain as R317 to R321 say (R317, R318, R319, R320, R321, R323, R335, R337, R484, R520). -/
def Obligations.PortsReachAndLeaveActive : Prop :=
  ∀ (t : Time) (p : Port) (v : Word) (s : State),
    let s1 := advance s t
    let q := p.val
    let st := portState s1 q
    let why (u : State) : Nat := fld (lnk u q 0x044) 4 4
    (st ≠ 1 ∨ (portOf s1 q).noCable = true → exec (.portSignalDetected t p) s = .next s1) ∧
    (st ≠ 1 ∨ s1.now < (portOf s1 q).since + 100 * ms → exec (.portDetectTimeout t p) s = .next s1) ∧
    (st ≠ 2 → ∀ tr : Train, exec (.portTrainingComplete t p tr) s = .next s1) ∧
    (st ≠ 3 → (∀ n, exec (.hello t p n) s = .next s1) ∧ ∀ pf : Proof, exec (.proof t p pf) s = .next s1) ∧
    (st ≠ 5 → exec (.lpiEntry t p) s = .next s1) ∧ (st ≠ 6 → exec (.portLpiExit t p) s = .next s1) ∧
    ((portOf s1 q).nonce = none → exec (.nonceStale t p) s = .next s1) ∧
    (st ≠ 4 ∨ mayRetry s1 q = false → exec (.portRetry t p) s = .next s1) ∧
    (st = 1 →
      ((portOf s1 q).noCable = false → ∃ u, exec (.portSignalDetected t p) s = .next u ∧ portState u q = 2 ∧ (portOf u q).since = s1.now ∧ SameMemory s u) ∧
      ((portOf s1 q).since + 100 * ms ≤ s1.now →
        ∃ u, exec (.portDetectTimeout t p) s = .next u ∧ portState u q = 4 ∧ why u = 1 ∧ ErrorTaken (portDie q) (portPage q) 0x5010 1 s1 u ∧ SameMemory s u)) ∧
    (st = 2 → ∀ tr : Train,
      (nodeValid s1 = true → widthOf tr.locked = 2 → dCap tr.t1 (decide (portDir s1 q % 16 = 6) || decide (portDir s1 q % 16 = 7)) ≤ 31 → tr.uncorr = false →
        ∃ u, exec (.portTrainingComplete t p tr) s = .next u ∧ portState u q = 3 ∧ fld (lnk u q 0x044) 13 2 = 2 ∧
          (∃ n, (portOf u q).nonce = some (n, s1.now)) ∧ (portOf u q).peerNonce = none ∧ fld (lnk u q 0x04C) 0 16 = tr.t1 % 2 ^ 16 ∧ SameMemory s u) ∧
      (nodeValid s1 = false → ∃ u, exec (.portTrainingComplete t p tr) s = .next u ∧ portState u q = 4 ∧ why u = 2 ∧ SameMemory s u) ∧
      (nodeValid s1 = true → widthOf tr.locked = 0 → (portOf s1 q).wasActive = false →
        ∃ u, exec (.portTrainingComplete t p tr) s = .next u ∧ portState u q = 4 ∧ why u = 3 ∧ SameMemory s u)) ∧
    (st = 3 →
      (∀ n, ∃ u, exec (.hello t p n) s = .next u ∧ (portOf u q).peerNonce = some n ∧ portState u q = 3 ∧ u = { s1 with ports := u.ports }) ∧
      (∀ (pf : Proof) (n : Nat) (t0 : Time), (portOf s1 q).nonce = some (n, t0) → s1.now < t0 + 100 * ms → pf.nonce = n → pf.membershipOk = true → pf.chainOk = true →
          pf.sigOk = true → s.svnFloor ≤ pf.svn → partnerOf s1 (portDir s1 q) = (pf.isSwitch, pf.node) →
        ∃ u, exec (.proof t p pf) s = .next u ∧ portState u q = 5 ∧ tbit (lnk u q 0x048) 31 = true ∧ fld (lnk u q 0x048) 0 16 = pf.node % 2 ^ 16 ∧
          fld (lnk u q 0x048) 16 6 = pf.port % 64 ∧ fld (lnk u q 0x044) 16 2 = 0 ∧ (portOf u q).nonce = none ∧ SameMemory s u) ∧
      (∀ pf : Proof, pf.sigOk = false ∨ (portOf s1 q).nonce = none →
        (fld (lnk s1 q 0x044) 16 2 < 2 →
          ∃ u, exec (.proof t p pf) s = .next u ∧ portState u q = 4 ∧ why u = 5 ∧ fld (lnk u q 0x044) 16 2 = fld (lnk s1 q 0x044) 16 2 + 1 ∧
            tbit (reg u (portDie q) (portPage q) 0x010) 0 = true ∧ SameMemory s u) ∧
        (fld (lnk s1 q 0x044) 16 2 = 2 →
          ∃ u, exec (.proof t p pf) s = .next u ∧ portState u q = 7 ∧ ErrorTaken (portDie q) (portPage q) 0x8030 5 s1 u ∧ SameMemory s u))) ∧
    (∀ n t0, (portOf s1 q).nonce = some (n, t0) → t0 + 100 * ms ≤ s1.now →
      ∃ u, exec (.nonceStale t p) s = .next u ∧ (portOf u q).nonce = none ∧ u = { s1 with ports := u.ports }) ∧
    (st = 4 → why s1 = 1 → (portOf s1 q).since + sec ≤ s1.now →
      ∃ u, exec (.portRetry t p) s = .next u ∧ portState u q = 1 ∧ fld (lnk u q 0x044) 18 8 = min 255 (fld (lnk s1 q 0x044) 18 8 + 1) ∧ SameMemory s u) ∧
    (st = 5 → tbit (lnk s1 q 0x040) 2 = true → ∃ u, exec (.lpiEntry t p) s = .next u ∧ portState u q = 6 ∧ SameMemory s u) ∧
    (st = 6 → ∃ u, exec (.portLpiExit t p) s = .next u ∧ portState u q = 5 ∧ SameMemory s u) ∧
    (reachable s1 (portDie q) (portPage q) = true → pageLocked s1 (portDie q) (portPage q) = false →
      (tbit v 0 = true → tbit v 1 = false → st ∈ [1, 2, 3, 5, 6] →
        ∃ u, exec (.retrain t p v) s = .next u ∧ portState u q = 1 ∧ fld (lnk u q 0x044) 18 8 = min 255 (fld (lnk s1 q 0x044) 18 8 + 1) ∧ SameMemory s u) ∧
      (tbit v 1 = true → st ∈ [1, 2, 3, 5, 6] →
        ∃ u, exec (.forceQuarantine t p v) s = .next u ∧ portState u q = 4 ∧ why u = 7 ∧ tbit (lnk u q 0x040) 1 = true ∧ SameMemory s u) ∧
      (fld v 0 2 = 0 → st = 5 → ∃ u, exec (.lpiReq t p v) s = .next u ∧ tbit (lnk u q 0x040) 2 = tbit v 2 ∧ portState u q = 5 ∧ SameMemory s u) ∧
      (fld v 0 3 = 0 → st = 6 → ∃ u, exec (.lpiReq t p v) s = .next u ∧ portState u q = 5 ∧ SameMemory s u)) ∧
    (9 ≤ q → q < 33 → reachable s1 (portDie q) (portPage q) = true → st ∈ [1, 2, 3, 5, 6] →
      ∃ u, exec (.cablePresentChange t p false) s = .next u ∧ portState u q = 4 ∧ why u = 1 ∧ (portOf u q).noCable = true ∧ SameMemory s u)

/-- An ACTIVE port leaves ACTIVE on the causes of R314 and R330; its slot bank swap is armed or refused (R34, R314, R318, R329, R330, R337). -/
def Obligations.PortsDegradeAndRetrain : Prop :=
  ∀ (t : Time) (p : Port) (v : Word) (s : State),
    let s1 := advance s t
    let q := p.val
    let d := portDie q
    let g := portPage q
    (portState s1 q = 5 →
      (∀ (l : List Nat) (fixed n : Nat), fld (lnk s1 q 0x058) 0 16 < n →
        ∃ u, exec (.linkErrorWindow t p l { fixed := fixed, uncorr := n }) s = .next u ∧ portState u q = 1 ∧ (portOf u q).wasActive = true ∧ tbit (reg u d g 0x010) 17 = true ∧ SameMemory s u) ∧
      (∀ (l : List Nat) (fixed n : Nat), n ≤ fld (lnk s1 q 0x058) 0 16 →
        ∃ u, exec (.linkErrorWindow t p l { fixed := fixed, uncorr := n }) s = .next u ∧ portState u q = 5 ∧ SameMemory s u ∧
          ∀ i, i < 8 → (tbit (lnk u q 0x054) (8 + i) = true ↔ tbit (lnk s1 q 0x054) (8 + i) = true ∨ 2 ^ fld (lnk s1 q 0x058) 24 5 < nth l i 0)) ∧
      (∀ lane : Fin 8, ∃ u, exec (.laneLockLoss t p lane) s = .next u ∧ portState u q = 1 ∧ tbit (lnk u q 0x054) lane.val = false ∧
        ErrorTaken d g 0x5021 1 s1 u ∧ SameMemory s u) ∧
      (∃ u, exec (.noFlitTimeout t p) s = .next u ∧ portState u q = 1 ∧ ErrorTaken d g 0x5021 2 s1 u ∧
        fld (lnk u q 0x044) 18 8 = min 255 (fld (lnk s1 q 0x044) 18 8 + 1) ∧ SameMemory s u) ∧
      (∀ ovf : Bool, portDir s1 q % 16 = 6 ∨ portDir s1 q % 16 = 7 →
        ∃ u, exec (.elasticBufferFault t p ovf) s = .next u ∧ portState u q = 1 ∧ tbit (reg u d g 0x010) 0 = true ∧
          (tbit (reg s1 d g 0x010) 0 = false → reg u d g 0x020 = 0x5023#32) ∧ SameMemory s u)) ∧
    (portState s1 q ≠ 5 → exec (.noFlitTimeout t p) s = .next s1 ∧ (∀ lane : Fin 8, exec (.laneLockLoss t p lane) s = .next s1) ∧
      (∀ (l : List Nat) (fixed n : Nat), exec (.linkErrorWindow t p l { fixed := fixed, uncorr := n }) s = .next s1) ∧ ∀ ovf : Bool, exec (.elasticBufferFault t p ovf) s = .next s1) ∧
    (portDir s1 q % 16 ≠ 6 → portDir s1 q % 16 ≠ 7 → ∀ ovf : Bool, exec (.elasticBufferFault t p ovf) s = .next s1) ∧
    (reachable s1 d g = true → pageLocked s1 d g = false →
      (tbit (lnk s1 q 0x064) 1 = false →
        ∃ u, exec (.linkSlotSwapArm t p v) s = .next u ∧ fld (lnk u q 0x060) 0 1 = fld v 0 1 ∧ tbit (lnk u q 0x064) 1 = tbit v 1 ∧
          tbit (lnk u q 0x064) 0 = tbit (lnk s1 q 0x064) 0 ∧ SameMemory s u ∧ u.ports = s.ports) ∧
      (tbit (lnk s1 q 0x064) 1 = true → ∃ u, exec (.linkSlotSwapArm t p v) s = .next u ∧ TurnedAway d g 0x1011 s1 u))

/-- Planned flits wait for their delivery slot, replays repair them, missing ones are reported, dynamic flits keep their order (R312, R317, R322,
R323, R324, R325, R327, R337, R442). -/
def Obligations.LinkFlitsAreKeptReplayedAndDelivered : Prop :=
  ∀ (t : Time) (p : Port) (f : LinkFlit) (s : State),
    let s1 := advance s t
    let q := p.val
    let d := portDie q
    let x := portOf s1 q
    (portState s1 q = 5 → ∀ n : Nat, runsCover (linkBank s1 q).rx n = true →
      (flitOk f = true → f.kind = 1 → f.frame % 256 = frameNum s1 d % 256 →
        ∃ u, exec (.plannedLinkFlit t p n true f) s = .next u ∧ mapFind (portOf u q).rx n = some f ∧
          (∀ k, k ≠ n → mapFind (portOf u q).rx k = mapFind x.rx k) ∧ SameMemory s u) ∧
      (∃ u, exec (.plannedLinkFlit t p n false f) s = .next u ∧ (portOf u q).rx = x.rx ∧ (portOf u q).nakOut = some (0, n, frameNum s1 d % 256) ∧ SameMemory s u) ∧
      (flitOk f = true → f.kind = 1 → f.frame % 256 ≠ frameNum s1 d % 256 →
        ∃ u, exec (.plannedLinkFlit t p n true f) s = .next u ∧ portOf u q = x ∧ SameMemory s u)) ∧
    (portState s1 q = 1 → x.discN = 0 → ∀ n, ∃ u, exec (.plannedLinkFlit t p n true f) s = .next u ∧ (portOf u q).rx = x.rx ∧ (portOf u q).discN = 1 ∧ SameMemory s u) ∧
    (portState s1 q = 5 → flitOk f = true → runsCover (linkBank s1 q).rx f.seq = true → f.frame % 256 = frameNum s1 d % 256 →
        x.slotNext ≤ f.seq / 13 + linkDelay s1 q →
      ∃ u, exec (.plannedReplay t p true f) s = .next u ∧ mapFind (portOf u q).rx f.seq = some f ∧ SameMemory s u) ∧
    (planRuns s1 q = false ∨ isHalted s1 d (portPage q) = true → ∀ (o : Fin 5) (entryOk : Bool), exec (.plannedDelivery t p o entryOk) s = .next s1) ∧
    (planRuns s1 q = true → isHalted s1 d (portPage q) = false → ∀ (o : Fin 5),
      (∃ u, exec (.plannedDelivery t p o false) s = .next u ∧ isHalted u d (portPage q) = true ∧ CodeTaken d 0 0x3072 s1 u ∧ SameMemory s u) ∧
      (∀ n, duePositions s1 q = [n] →
        (∀ g : LinkFlit, mapFind x.rx n = some g → g.first = true → routersWf s = true → (injQ (router s1 d) o.val).late = 0 →
            (injQ (router s1 d) o.val).waiting = [] → (injQ (router s1 d) o.val).flits.length < 32 →
          ∃ u, exec (.plannedDelivery t p o true) s = .next u ∧ mapFind (portOf u q).rx n = none ∧
            (injQ (router u d) o.val).flits = (injQ (router s1 d) o.val).flits ++ [{ poison := g.poison, bytes := g.payload }] ∧ SameMemory s u) ∧
        (mapFind x.rx n = none → x.reqLeft = 0 → n < 2 ^ 24 →
          ∃ u, exec (.plannedDelivery t p o true) s = .next u ∧ ErrorTaken d (portPage q) 0x5020 n s1 u ∧ (portOf u q).skip = true ∧ u.routers = s.routers ∧ SameMemory s u))) ∧
    (portState s1 q = 5 →
      (flitOk f = true → f.seq = x.dynNext → x.dynHeld = [] → x.dynNext < 2 ^ 24 →
        ∃ u, exec (.dynamicLinkFlit t p true f none) s = .next u ∧ (portOf u q).dynNext = (x.dynNext + 1) % 2 ^ 24 ∧ (portOf u q).lastDyn = [f.payload] ∧ SameMemory s u) ∧
      (flitOk f = true → x.dynNext < f.seq → f.seq < x.dynNext + 2 ^ 23 → f.seq < 2 ^ 24 → x.dynHeld.length < 32 →
        ∃ u, exec (.dynamicLinkFlit t p true f none) s = .next u ∧ (portOf u q).dynNext = x.dynNext ∧ mapFind (portOf u q).dynHeld f.seq = some f.payload ∧
          (portOf u q).nakOut = some (1, x.dynNext, frameNum s1 d % 256) ∧ SameMemory s u) ∧
      (∃ u, exec (.dynamicLinkFlit t p false f none) s = .next u ∧ (portOf u q).dynNext = x.dynNext ∧
        (portOf u q).nakOut = some (1, x.dynNext, frameNum s1 d % 256) ∧ SameMemory s u) ∧
      (flitOk f = true → ∀ n : Nat,
        (∃ u, exec (.dynamicLinkFlit t p true f (some (false, n))) s = .next u ∧
          (portOf u q).tx.replays = (if x.resent.contains n then x.tx.replays else x.tx.replays ++ [(s1.now, n)]) ∧ SameMemory s u) ∧
        (∃ u, exec (.dynamicLinkFlit t p true f (some (true, n))) s = .next u ∧ (portOf u q).tx.resends = x.tx.resends ++ [(s1.now, n)] ∧
          SameMemory s u)))

/-- A selected flit is dropped, corrupted, held for a swap or delayed by fault injection; others leave unchanged (R333, R334). -/
def Obligations.InjectionChangesSelectedFlits : Prop :=
  ∀ (t : Time) (p : Port) (cls : Fin 3) (f : LinkFlit) (s : State),
    let s1 := advance s t
    let q := p.val
    let c := lnk s1 q 0x080
    let x := portOf s1 q
    hasService s1 (portDie q) = true → tbit (lnk s1 q 0x084) 16 = true → x.swapped = [] → x.delayed = [] →
    ((x.injSeen + 1) % 2 ^ fld c 6 5 = 0 → tbit c (3 + cls.val) = true →
      (fld c 0 3 = 1 → ∃ u, exec (.injectDrop t p cls f) s = .next u ∧ (∃ g : LinkFlit, (portOf u q).lastTx = [g] ∧ g.kind = 0 ∧ g.payload = []) ∧
        (portOf u q).injSel = x.injSel + 1 ∧ fld (lnk u q 0x084) 0 16 = min 65535 (fld (lnk s1 q 0x084) 0 16 + 1) ∧ SameMemory s u) ∧
      (fld c 0 3 = 2 → ∃ u, exec (.injectCorrupt t p cls f) s = .next u ∧
        (∃ g : LinkFlit, (portOf u q).lastTx = [g] ∧ { g with payload := f.payload } = f ∧ g.payload.length = f.payload.length ∧
          ∀ i, i < f.payload.length → g.payload.getD i 0#8 = if i = 17 then ~~~ (f.payload.getD i 0#8) else f.payload.getD i 0#8) ∧ SameMemory s u) ∧
      (fld c 0 3 = 3 → ∃ u, exec (.injectReorder t p cls f) s = .next u ∧ (portOf u q).lastTx = [] ∧ (portOf u q).swapped = [(cls.val, f)] ∧ SameMemory s u) ∧
      (fld c 0 3 = 4 → ∃ u, exec (.injectDelay t p cls f) s = .next u ∧ (portOf u q).lastTx = [] ∧
        (portOf u q).delayed = [(s1.now + fld c 11 5 * 320, f)] ∧ SameMemory s u)) ∧
    (tbit c (3 + cls.val) = false →
      ∀ i ∈ ([.injectDrop t p cls f, .injectCorrupt t p cls f, .injectReorder t p cls f, .injectDelay t p cls f] : List Instr),
        ∃ u, exec i s = .next u ∧ (portOf u q).lastTx = [f] ∧ (portOf u q).injSel = x.injSel ∧ SameMemory s u)

/-- Requests at their home are performed, queued or answered with the error of their offset; others go on or answer 0x4015 (R42, R43, R280, R339,
R340, R344, R345, R346, R463). -/
def Obligations.RequestsReachTheirHome : Prop :=
  ∀ (t : Time) (p : Port) (inp : Fin 5) (ecc : Ecc) (m : FabMsg) (s : State),
    let s1 := advance s t
    let rows : List (Nat × Instr) := [(1, .fabricRead t (some p) inp ecc m), (2, .fabricWrite t (some p) inp ecc m), (3, .fabricAtomic t (some p) inp ecc m)]
    (portActive s1 p.val = false → ∀ r ∈ rows, exec r.2 s = .next s1) ∧ (
    let answered (u : State) (code : Nat) : Prop := u.lastResp.err = code ∧
      ∃ r : FabMsg, u.lastSent = some r ∧ r.op = 0xB ∧ r.status = code ∧ r.dest = m.src ∧ r.tag = m.tag ∧ r.data = []
    portActive s1 p.val = true →
    (fencedSrc s1 p.val m.src = true → ∀ r ∈ rows, ∃ u, exec r.2 s = .next u ∧ u.homeQ = s.homeQ ∧ u.lastSent = s.lastSent ∧ SameMemory s u) ∧
    (fencedSrc s1 p.val m.src = false → m.hops < 255 →
      (m.dest = ownNode s1 →
        (∀ st b, homeOf m.offset = .tier1 st b → m.cls % 4 ≠ 0 → (homeQ s1 (mmDie st)).q.length < homeDepth (mmDie st) → (homeQ s1 (mmDie st)).held = [] →
          ∀ r ∈ rows, ∃ u h, exec r.2 s = .next u ∧ (homeQ u (mmDie st)).q = (homeQ s1 (mmDie st)).q ++ [h] ∧ h.msg = { m with op := r.1 } ∧
            u.regs = s.regs ∧ SameMemory s u) ∧
        (∀ b, homeOf m.offset = .tier2 b → (homeQ s1 98).q.length < homeDepth 98 → (homeQ s1 98).held = [] →
          ∀ r ∈ rows, ∃ u h, exec r.2 s = .next u ∧ (homeQ u 98).q = (homeQ s1 98).q ++ [h] ∧ h.msg = { m with op := r.1 } ∧ h.pool = poolAddr s1 m.offset ∧
            u.regs = s.regs ∧ SameMemory s u) ∧
        (homeOf m.offset = .hole → ∀ r ∈ rows, ∃ u, exec r.2 s = .next u ∧ answered u 0x4011 ∧ u.regs = s.regs ∧ SameMemory s u) ∧
        (homeOf m.offset = .unmapped → ∀ r ∈ rows, ∃ u, exec r.2 s = .next u ∧ answered u 0x4010 ∧ CodeTaken (portDie p.val) 0 0x4010 s1 u ∧ SameMemory s u) ∧
        (∀ bar, homeOf m.offset = .regs bar → bar / 0x100000 < 100 →
          ∃ u, exec (.fabricAtomic t (some p) inp ecc m) s = .next u ∧ answered u 0x4016 ∧ SameMemory s u) ∧
        (∀ st b, homeOf m.offset = .tier1 st b → m.cls % 4 = 0 → isHalted s1 (mmDie st) 8 = false → initialising (mbcOf s1 st) = false → inOrder s1 st inp.val = true →
            m.offset % 64 = 0 → m.data.length = 64 → xorRegion s1 (m.offset / stackSize) (m.offset % stackSize) = none →
          ∃ u r, exec (.fabricWrite t (some p) inp ecc m) s = .next u ∧ u.lastSent = some r ∧ r.op = 9 ∧ r.cls = m.cls + 2 ∧ r.dest = m.src ∧ u.lastResp.err = 0 ∧
            (∀ a, tier1Byte u a = if m.offset ≤ a ∧ a < m.offset + 64 then m.data.getD (a - m.offset) 0#8 else tier1Byte s a) ∧
            lineSt u (m.offset / 64) = (if marked m.poison 0 64 then .error else .clean) ∧ (∀ a, tier2Byte u a = tier2Byte s a) ∧ u.cores = s.cores)) ∧
      (m.dest ≠ ownNode s1 →
        (∀ q, routeTo s1 (portDie p.val) m.dest (m.cls % 4) m.offset = some q →
          ∀ r ∈ rows, ∃ u, exec r.2 s = .next u ∧ SentBy s1 u q { m with op := r.1, hops := m.hops + 1 }) ∧
        (routeTo s1 (portDie p.val) m.dest (m.cls % 4) m.offset = none →
          ∀ r ∈ rows, ∃ u, exec r.2 s = .next u ∧ answered u 0x4015 ∧ CodeTaken (portDie p.val) 8 0x4015 s1 u ∧ SameMemory s u))))

/-- Responses go on to their requester or complete its slot; control messages act at their die; protection banks swap as armed (R34, R340, R341,
R343, R350, R358, R361, R362, R364). -/
def Obligations.ResponsesAndControlMessages : Prop :=
  ∀ (t : Time) (p : Port) (m : FabMsg) (s : State),
    let s1 := advance s t
    let rows : List (Nat × Instr) := [(8, .readResponse t (some p) m), (9, .writeCompletion t (some p) m), (0xA, .atomicResponse t (some p) m),
      (0xB, .errorResponse t (some p) m)]
    (portActive s1 p.val = false → ∀ r ∈ rows, exec r.2 s = .next s1) ∧
    (portActive s1 p.val = true → fencedSrc s1 p.val m.src = false → m.hops < 255 →
      (m.dest ≠ ownNode s1 → ∀ q, routeTo s1 (portDie p.val) m.dest (m.cls % 4) m.offset = some q →
        ∀ r ∈ rows, ∃ u, exec r.2 s = .next u ∧ SentBy s1 u q { m with op := r.1, hops := m.hops + 1 }) ∧
      (m.dest = ownNode s1 → ∀ c r, tagCore m = some c → (core s1 c).reqs = [r] → r.slot = m.tag % 512 → r.fenceScope = 0 → r.trip = none →
          r.orphanAt = none →
        (r.generation = m.tag / 2 ^ 21 % 2 ^ 11 → m.status = 0 → coreCycle s1 c < clkCycleUp (core s1 c).clk r.expiry →
          ∀ w ∈ rows, ∃ u, exec w.2 s = .next u ∧ (core u c).reqs = [] ∧
            ∀ k, spmByteAt u c k = if r.inward = true ∧ r.laddr ≤ k ∧ k < r.laddr + min r.len m.data.length then m.data.getD (k - r.laddr) 0#8
              else spmByteAt (settle s1 c) c k) ∧
        (r.generation ≠ m.tag / 2 ^ 21 % 2 ^ 11 → ∀ w ∈ rows, exec w.2 s = .next s1))) ∧
    (∀ (n frame : Nat), reachable s1 0 8 = false →
      exec (.controlMessage t (.capture n frame)) s = .next s1 ∧ exec (.controlMessage t (.resetAt n frame)) s = .next s1) ∧
    (∀ (n frame : Nat), reachable s1 0 8 = true →
      (∃ u, exec (.controlMessage t (.capture n frame)) s = .next u ∧ u.gop.capture = some frame ∧ reg u 0 8 0x50C = BitVec.ofNat 32 frame ∧
        SameRegsBut (fun k => k = barOff 0 8 0x50C) s1 u ∧ SameMemory s u) ∧
      (∃ u, exec (.controlMessage t (.resetAt n frame)) s = .next u ∧ u.gop.resetAt = some frame ∧ SameMemory s u)) ∧
    (∀ (die : Die) (l : List Byte), reachable s1 die.val 0 = false → exec (.controlMessage t (.plain die l)) s = .next s1) ∧
    (∀ (die : Die) (l : List Byte), reachable s1 die.val 0 = true →
      ∃ u x, exec (.controlMessage t (.plain die l)) s = .next u ∧ (router u die.val).lastMsg = some x ∧ x.payload = l ∧ x.dst = die.val ∧
        u = { s1 with routers := u.routers }) ∧
    (∀ (die : Die) (v : Word), hasProt die.val = true → reachable s1 die.val 0 = true → pageLocked s1 die.val 0 = false →
      (tbit (reg s1 die.val 0 0x104) 1 = false →
        ∃ u, exec (.protSwapArm t die v) s = .next u ∧ fld (reg u die.val 0 0x100) 0 1 = fld v 0 1 ∧ tbit (reg u die.val 0 0x104) 1 = tbit v 1 ∧
          tbit (reg u die.val 0 0x104) 0 = tbit (reg s1 die.val 0 0x104) 0 ∧ SameMemory s u) ∧
      (tbit (reg s1 die.val 0 0x104) 1 = true → ∃ u, exec (.protSwapArm t die v) s = .next u ∧ TurnedAway die.val 0 0x10A0 s1 u))

/-- Global operations start, queue behind one of their kind, are refused when full, and end with their status (R360, R362, R364, R367). -/
def Obligations.GlobalOperationsStartAndEnd : Prop :=
  ∀ (t : Time) (v : Word) (frame : Nat) (s : State),
    let s1 := advance s t
    let rows : List (Nat × Instr) := [(1, .barrier t v), (2, .broadcast t v), (3, .snapshot t v), (4, .resetOp t v frame)]
    (reachable s1 0 8 = false → ∀ (op : Fin 5) (seq : Fin 256) (data : List Byte) (late : Option (Fin 65536)),
      exec (.barrierRelease t op seq data late) s = .next s1) ∧ (
    reachable s1 0 8 = true →
    (∀ r ∈ rows, fld v 0 3 = 0 ∨ 4 < fld v 0 3 → ∃ u, exec r.2 s = .next u ∧ u.gop = s.gop ∧ SameMemory s u) ∧
    (∀ (op : Fin 5) (seq : Fin 256) (data : List Byte) (late : Option (Fin 65536)), op.val ≠ 2 → findGop s1 op.val seq.val = none →
      exec (.barrierRelease t op seq data late) s = .next s1) ∧
    (∀ r ∈ rows, fld v 0 3 = r.1 →
      (s1.gop.flight = [] →
        ∃ u g, exec r.2 s = .next u ∧ u.gop.flight = [g] ∧ g.op = r.1 ∧ g.seq = fld v 8 8 ∧ g.since = s1.now ∧ tbit (reg u 0 8 0x504) 3 = true ∧
          (r.1 = 3 → isRoot s1 = true → u.gop.capture = some (captureFrame s1) ∧ reg u 0 8 0x50C = BitVec.ofNat 32 (captureFrame s1)) ∧
          (r.1 = 4 → isRoot s1 = true → u.gop.resetAt = some frame) ∧ SameMemory s u) ∧
      (inFlight s1 r.1 = true → (s1.gop.queue.filter (fun x => decide (x.1 = r.1))).length < 4 →
        ∃ u, exec r.2 s = .next u ∧ u.gop = { s1.gop with queue := s1.gop.queue ++ [(r.1, fld v 8 8)] } ∧ SameMemory s u) ∧
      (inFlight s1 r.1 = true → (s1.gop.queue.filter (fun x => decide (x.1 = r.1))).length ≥ 4 →
        ∃ u, exec r.2 s = .next u ∧ TurnedAway 0 8 0x4050 s1 u)) ∧
    (∀ (op : Fin 5) (seq : Fin 256) (g : GopRun), findGop s1 op.val seq.val = some g → (∀ x ∈ s1.gop.queue, x.1 ≠ op.val) →
      (∀ data, ∃ u, exec (.barrierRelease t op seq data none) s = .next u ∧ inFlight u op.val = false ∧
        fld (reg u 0 8 0x504) 8 8 = seq.val ∧ fld (reg u 0 8 0x504) 16 16 = 0 ∧ SameMemory s u) ∧
      (∀ (data : List Byte) (n : Fin 65536), ∃ u, exec (.barrierRelease t op seq data (some n)) s = .next u ∧ inFlight u op.val = false ∧
        fld (reg u 0 8 0x504) 16 16 = 0x4053 ∧ CodeTaken 0 8 0x4053 s1 u ∧ SameMemory s u)) ∧
    (∀ (seq : Fin 256) (data : List Byte), ∃ u, exec (.barrierRelease t 2 seq data none) s = .next u ∧
      ∀ i, i < 64 → reg u 0 8 (0x510 + 4 * i) = BitVec.ofNat 32 (ofLE ((data.drop (4 * i)).take 4))))

/-- Shards are queued, land with their bytes or their error, and expire; completions are read oldest first (R376, R377, R378, R379, R384, R386). -/
def Obligations.ShardsAreLoaded : Prop :=
  ∀ (t : Time) (v : Word) (s : State),
    let s1 := advance s t
    let x := shardOfRegs s1 (fld v 0 16)
    (reachable s1 1 8 = false → exec (.shardQueue t v) s = .next s1 ∧ exec (.ldDoneRead t) s = .next s1) ∧
    (s1.loader.queue = [] → ∀ data err, exec (.loadShardComplete t data err) s = .next s1) ∧
    (reachable s1 1 8 = true →
      (s1.loader.queue.length < 32 → shardOff (shardOfRegs s1 0) % 4096 = 0 →
        ((x.isSealed = false ∨ (mapGet s1.loader.keys (decryptorDie x) none).isSome = true) →
          ∃ u, exec (.shardQueue t v) s = .next u ∧ u.loader = { s1.loader with queue := s1.loader.queue ++ [x] } ∧ u.regs = s.regs ∧ SameMemory s u) ∧
        (x.isSealed = true → mapGet s1.loader.keys (decryptorDie x) none = none →
          ∃ u, exec (.shardQueue t v) s = .next u ∧ u.loader.queue = s1.loader.queue ∧ u.loader.done = s1.loader.done ++ [(x.tag, 0x8041)] ∧
            CodeTaken 1 8 0x8041 s1 u ∧ SameMemory s u)) ∧
      (32 ≤ s1.loader.queue.length ∨ shardOff (shardOfRegs s1 0) % 4096 ≠ 0 →
        ∃ u, exec (.shardQueue t v) s = .next u ∧ TurnedAway 1 8 0x10B2 s1 u) ∧
      (∀ tag st rest, s1.loader.done = (tag, st) :: rest → tag < 2 ^ 16 → st < 2 ^ 16 →
        ∃ u, exec (.ldDoneRead t) s = .next u ∧ u.loader.done = rest ∧ fld u.lastRead 0 16 = tag ∧ tbit u.lastRead 16 = true ∧
          reg u 1 8 0xC1C = BitVec.ofNat 32 st ∧ SameMemory s u) ∧
      (s1.loader.done = [] → ∃ u, exec (.ldDoneRead t) s = .next u ∧ u = { s1 with lastRead := 0#32 })) ∧
    (∀ y rest data, s1.loader.queue = y :: rest →
      let off := shardOff y
      let n := shardTiles y * 4096
      (y.isSealed = false → shardNode y = ownNode s1 → off % 4096 = 0 → off + n ≤ t1Size → data.length = n → 0 < n →
          (∀ a, off ≤ a → a < off + n → xorRegion s1 (a / stackSize) (a % stackSize) = none) →
        ∃ w, exec (.loadShardComplete t data 0) s = .next (serveCanopy (takeLanded w)) ∧ w.loader.queue = rest ∧
          w.loader.done = s1.loader.done ++ [(y.tag, 0)] ∧
          (∀ a, tier1Byte w a = if off ≤ a ∧ a < off + n then data.getD (a - off) 0#8 else tier1Byte s a) ∧
          (∀ l, off / 64 ≤ l → l < (off + n) / 64 → lineSt w l = .clean) ∧ (∀ a, tier2Byte w a = tier2Byte s a) ∧ w.cores = s.cores) ∧
      (∀ err : Fin 65536, err.val ≠ 0 →
        ∃ w, exec (.loadShardComplete t data err) s = .next (serveCanopy (takeLanded w)) ∧ w.loader.queue = rest ∧
          w.loader.done = s1.loader.done ++ [(y.tag, err.val)] ∧ (err.val = 0x4060 → CodeTaken 1 8 0x4060 s1 w) ∧ SameMemory s w) ∧
      (y.isSealed = true → openShard s1 y data = none →
        ∃ w, exec (.loadShardComplete t data 0) s = .next (serveCanopy (takeLanded w)) ∧ w.loader.queue = rest ∧
          w.loader.done = s1.loader.done ++ [(y.tag, 0x8042)] ∧ CodeTaken (decryptorDie y) 8 0x8042 s1 w ∧
          (∀ a, a < off ∨ off + n ≤ a → off % 64 = 0 → tier1Byte w a = tier1Byte s a))) ∧
    (∃ w, exec (.ldDeadlineExpiry t) s = .next (serveCanopy (takeLanded w)) ∧
      w.loader.queue = s1.loader.queue.filter (fun y => !decide (y.due ≤ s1.now)) ∧
      w.loader.done = s1.loader.done ++ (s1.loader.queue.filter (fun y => decide (y.due ≤ s1.now))).map (fun y => (y.tag, 0x4060)) ∧ SameMemory s w)

/-- A digest starts, ends with its value and a match or 0x2070, and present shards are digested again (R380, R381, R383, R385). -/
def Obligations.DigestsRunAndEnd : Prop :=
  ∀ (t : Time) (stack : Stack) (v : Word) (rest : Option (List Byte)) (s : State),
    let s1 := advance s t
    let st := stack.val
    let d := mmDie st
    let b := sourceBytes s1 (dgSrc s1 st) (dgTiles s1 st)
    let h := (Config.sha384 b.1).toNat
    let legal := 1 ≤ dgTiles s1 st ∧ dgTiles s1 st ≤ 65536 ∧ dgSource st (dgSrc s1 st) (dgTiles s1 st) = true
    let ended (u : State) : Prop := tbit (mbcReg u st 0x410) 0 = false ∧ tbit (mbcReg u st 0x410) 1 = true ∧
      (tbit (mbcReg u st 0x410) 2 = true ↔ b.2 = false ∧ h = dgExpect s1 st) ∧ tbit (mbcReg u st 0x410) 3 = b.2 ∧
      (∀ i, i < 12 → mbcReg u st (0x480 + 4 * i) = BitVec.ofNat 32 (h / 2 ^ (32 * i))) ∧
      (¬ (b.2 = false ∧ h = dgExpect s1 st) → CodeTaken d 8 0x2070 s1 u) ∧ SameMemory s u
    (reachable s1 d 8 = false → exec (.digestStart t stack v) s = .next s1) ∧
    (reachable s1 d 8 = true → pageLocked s1 d 8 = true → ∃ u, exec (.digestStart t stack v) s = .next u ∧ TurnedAway d 8 0x1003 s1 u) ∧
    (reachable s1 d 8 = true → pageLocked s1 d 8 = false →
      (tbit (mbcReg s1 st 0x410) 0 = false → legal →
        ∃ u, exec (.digestStart t stack v) s = .next u ∧ tbit (mbcReg u st 0x410) 0 = true ∧ tbit (mbcReg u st 0x40C) 1 = tbit v 1 ∧
          (mbcOf u st).dgAt = some s1.now ∧ (mbcOf u st).dgRan = 0 ∧ (tbit v 1 = false → (mbcOf u st).dgSince = some s1.now) ∧ SameMemory s u) ∧
      (tbit (mbcReg s1 st 0x410) 0 = true ∨ ¬ legal →
        ∃ u, exec (.digestStart t stack v) s = .next u ∧ ErrorTaken d 8 0x1080 0x40C s1 u ∧ RegsOnly (errRegs d 8) s1 u)) ∧
    (digestDue s1 st = true →
      ((mbcOf s1 st).dgFor = none → ∃ u, exec (.digestComplete t stack rest) s = .next u ∧ ended u) ∧
      (∀ m i, (mbcOf s1 st).dgFor = some (m, i) →
        ∃ w ok, exec (.digestComplete t stack rest) s = .next (serveCanopy (shardDigested w m i ok rest)) ∧ (ok = true ↔ b.2 = false ∧ h = dgExpect s1 st) ∧
          ended w)) ∧
    (digestDue s1 st = false → exec (.digestComplete t stack rest) s = .next s1) ∧
    (∀ (m : Fin 32) (i : Nat),
      ((modelOf s1 m.val).shards.find? (fun y => decide (y.index = i)) = none → exec (.periodicDigest t m i) s = .next s1) ∧
      (∀ x : Shard, (modelOf s1 m.val).shards.find? (fun y => decide (y.index = i)) = some x →
        (x.st ≠ 3 ∨ x.rebuild = true ∨ x.node ≠ ownNode s1 ∨ tbit (mbcReg s1 (shardStack x.off) 0x410) 0 = true →
          exec (.periodicDigest t m i) s = .next s1) ∧
        (x.st = 3 → x.rebuild = false → x.node = ownNode s1 → shardStack x.off = st → tbit (mbcReg s1 st 0x410) 0 = false →
          ∃ u, exec (.periodicDigest t m i) s = .next u ∧ tbit (mbcReg u st 0x410) 0 = true ∧ tbit (mbcReg u st 0x40C) 1 = true ∧
            (mbcOf u st).dgFor = some (m.val, i) ∧ mbcReg u st 0x400 = BitVec.ofNat 32 x.off ∧ mbcReg u st 0x408 = BitVec.ofNat 32 x.tiles ∧
            SameMemory s u)))

/-- Synthesisers are programmed, lock, arm and switch as R395 and R397 say; reference loss and droop change the clocks (R394, R395, R397, R399,
R413, R423). -/
def Obligations.ClocksSwitchStretchAndHold : Prop :=
  ∀ (t : Time) (c : PhysCore) (v : Word) (cd : ComputeDie) (k : Fin 18) (s : State),
    let s1 := advance s t
    let d := coreDie c.val
    let off := 0x180 + 4 * coreOnDie c.val
    let x := core s1 c.val
    (reachable s1 d 2 = true → pageLocked s1 d 2 = false →
      (tbit v 8 = false → 40 ≤ fld v 0 7 → fld v 0 7 ≤ 92 → fld v 0 7 * 25 ≤ smMhz s1 c.val →
        ∃ u, exec (.nextFreq t c v) s = .next u ∧ (core u c.val).clk = { x.clk with nextMhz := fld v 0 7 * 25, lockAt := s1.now + 400000 } ∧
          reg u d 2 off = BitVec.ofNat 32 (fld v 0 7) ∧ SameStores s u) ∧
      (fld v 0 7 < 40 ∨ 92 < fld v 0 7 ∨ smMhz s1 c.val < fld v 0 7 * 25 →
        ∀ i ∈ ([.nextFreq t c v, .fsynArm t c v] : List Instr), ∃ u, exec i s = .next u ∧ TurnedAway d 2 0x10C1 s1 u) ∧
      (tbit v 8 = true → 40 ≤ fld v 0 7 → fld v 0 7 ≤ 92 → fld v 0 7 * 25 ≤ smMhz s1 c.val →
        (x.clk.lockAt = 0 → x.clk.nextMhz = fld v 0 7 * 25 →
          ∃ u, exec (.fsynArm t c v) s = .next u ∧ (core u c.val).clk.armed = true ∧ (core u c.val).clk.mhz = x.clk.mhz ∧ SameStores s u) ∧
        (x.clk.lockAt ≠ 0 ∨ x.clk.nextMhz ≠ fld v 0 7 * 25 →
          ∃ u, exec (.fsynArm t c v) s = .next u ∧ TurnedAway d 2 0x10C1 s1 u))) ∧
    (x.clk.nextMhz = 0 ∨ s1.now < x.clk.lockAt → exec (.synthLocked t c) s = .next s1) ∧
    (x.clk.nextMhz ≠ 0 → x.clk.lockAt ≤ s1.now →
      ∃ u, exec (.synthLocked t c) s = .next u ∧ nextLocked (core u c.val).clk = true ∧ SameStores s u ∧ u.regs = s.regs) ∧
    (x.clk.armed = true → nextLocked x.clk = true → ownsStage s1 c.val = false → takesStage s1 c.val = false → coreExecutes x = false →
      ∃ u, exec (.synthSwitch t c) s = .next u ∧ (core u c.val).clk.mhz = min x.clk.nextMhz (smMhz s1 c.val) ∧ (core u c.val).clk.armed = false ∧
        (smMhz s1 c.val < x.clk.nextMhz → (core u c.val).clk.mode = .synOff) ∧ (core u c.val).clk.nextMhz = 0 ∧
        coreCycle u c.val = coreCycle s1 c.val ∧ SameStores s u) ∧
    (x.clk.armed = false ∨ nextLocked x.clk = false ∨ ownsStage s1 c.val = true ∨ takesStage s1 c.val = true ∨ coreExecutes x = true →
      exec (.synthSwitch t c) s = .next s1) ∧
    (∃ u, exec (.referenceClockLoss t) s = .next u ∧ SameStores s u ∧ CodeTaken 90 2 0x6030 s1 u ∧
      ∀ e, e < 100 → reachable s1 e 2 = true → tbit (reg u e 2 0x040) 0 = false ∧ tbit (reg u e 2 0x040) 2 = true) ∧
    (∃ u, exec (.referenceClockReturn t) s = .next u ∧ SameStores s u ∧ u.cores = s.cores ∧
      ∀ e, e < 100 → reachable s1 e 2 = true → tbit (reg u e 2 0x040) 0 = true ∧ tbit (reg u e 2 0x040) 2 = tbit (reg s1 e 2 0x040) 2) ∧
    (tbit (reg s1 (cpDie cd.val) 2 0x050) 8 = true → reachable s1 (cpDie cd.val) 0x10 = true → mapFind s1.droop cd.val = none →
      ∃ u, exec (.droop t cd) s = .next u ∧ mapFind u.droop cd.val = some s1.now ∧ SameStores s u ∧
        ∀ p, p < 18 → (core u (cd.val * 18 + p)).clk.slow = true ∧ coreCycle u (cd.val * 18 + p) = coreCycle s1 (cd.val * 18 + p)) ∧
    (tbit (reg s1 (cpDie cd.val) 2 0x050) 8 = false ∨ reachable s1 (cpDie cd.val) 0x10 = false ∨ (mapFind s1.droop cd.val).isSome = true →
      exec (.droop t cd) s = .next s1) ∧
    (mapFind s1.droop cd.val = none → exec (.droopTimeout t cd k) s = .next s1 ∧ exec (.droopRecovery t cd) s = .next s1) ∧
    (∀ t0, mapFind s1.droop cd.val = some t0 →
      (droopCycles s1 (cd.val * 18 + k.val) t0 ≤ 4096 → exec (.droopTimeout t cd k) s = .next s1) ∧
      (4096 < droopCycles s1 (cd.val * 18 + k.val) t0 →
        ∃ u, exec (.droopTimeout t cd k) s = .next u ∧ TurnedAway (cpDie cd.val) 2 0x6020 s1 u ∧ ErrorTaken (cpDie cd.val) 2 0x6020 k.val s1 u) ∧
      (∃ u, exec (.droopRecovery t cd) s = .next u ∧ mapFind u.droop cd.val = none ∧ SameStores s u ∧
        ∀ p, p < 18 → (core u (cd.val * 18 + p)).clk.slow = false))

/-- Power is sampled and capped each millisecond; blades, input and temperature faults act; the auxiliary rail goes and comes (R389, R403, R406,
R412, R414, R419, R420, R424, R437). -/
def Obligations.PowerAndThermalRules : Prop :=
  ∀ (t : Time) (s : State),
    let s1 := advance s t
    let p := s1.power
    let p1 := if p.samples.isEmpty then 0 else sumList p.samples / p.samples.length
    (railOn s1 .aux = true →
      (∀ (w : Nat) (i j : BladeIn), ∃ u, exec (.powerSample t { watts := w, bladeA := i, bladeB := j }) s = .next u ∧
        u = { s1 with power := { p with samples := (w :: p.samples).take 100, energy := p.energy + w, bladeA := u.power.bladeA, bladeB := u.power.bladeB } } ∧
        (∀ q ∈ [(i, p.bladeA, u.power.bladeA), (j, p.bladeB, u.power.bladeB)],
          (q.1.sense = false → q.2.2.on = false) ∧
          (q.1.sense = true → q.2.1.on = true → q.2.2.on = true ∧ q.2.2.amps ≤ 1400) ∧
          (q.1.sense = true → q.2.1.on = false →
            (∀ t0, q.2.1.since = some t0 → 4000 ≤ q.1.volts → q.1.volts ≤ 6000 → t0 + 10 * ms ≤ s1.now →
              q.2.2.on = true ∧ (q.1.charged = false → q.2.2.amps ≤ 250)) ∧
            (q.1.volts < 4000 ∨ 6000 < q.1.volts → q.2.2.on = false ∧ q.2.2.since = none)))) ∧
      (∀ m : MsIn, ∃ u, exec (.controllerMillisecond t m) s = .next u ∧ u.power.slowMs = p.slowMs + 1 ∧ u.power.samples = [] ∧ u.power.pPrev = p1 ∧
        fld (pwr u 0x044) 0 16 = min 65535 p1 ∧ SameMemory s u ∧
        (p.cap < p1 → p.filler = 0 →
          (∀ d, d < 3 → nth p.pace d 0 = 3) → (p.thrPower < 16 → u.power.thrPower = p.thrPower + 1) ∧ (16 ≤ p.thrPower → u.power.thrPower = p.thrPower)) ∧
        (p.cap < p1 → p.filler = 0 → p.pace.length = 3 → ∀ d, (shedOrder s1).find? (fun e => decide (nth p.pace e 0 < 3)) = some d →
          nth u.power.pace d 0 = nth p.pace d 0 + 1 ∧ u.power.thrPower = p.thrPower)) ∧
      (∀ high : Bool, powerStateNow s1 ≠ 1 → shutCommitted s1 = false → shutPending s1 = false →
        ∃ u, exec (.inputFault t high) s = .next u ∧ ErrorTaken 90 9 0x6011 (if high then 1 else 0) s1 u ∧ shutPending u = true ∧ tbit (tpr u 0x110) 2 = true ∧
          fld (tpr u 0x110) 3 2 = 1 ∧ u.start.commitAt = s1.now + 10 * ms ∧ CodeTaken 90 8 0x6050 s1 u ∧ SameMemory s u) ∧
      (∀ (die : Die) (r : Int), 1760 ≤ r → starting s1 = false →
        ∃ u, exec (.thermalTrip t die r) s = .next u ∧ ErrorTaken 90 0x0A 0x7011 die.val s1 u ∧ powerStateNow u = 1 ∧ railOn u .aux = true ∧ railOn u .ctl = false ∧
          railOn u (.core 0) = false ∧ u.t1 = [] ∧ u.cores = [] ∧ (∀ a, tier2Byte u a = tier2Byte s a)) ∧
      (∀ (die : Die) (r : Int), r < 1760 → exec (.thermalTrip t die r) s = .next s1) ∧
      (∀ slot : Fin 4, exec (.auxPowerOn t slot) s = .next s1)) ∧
    (railOn s1 .aux = false →
      (∀ (w : Nat) (i j : BladeIn), exec (.powerSample t { watts := w, bladeA := i, bladeB := j }) s = .next s1) ∧ (∀ m : MsIn, exec (.controllerMillisecond t m) s = .next s1) ∧
      (∀ high : Bool, exec (.inputFault t high) s = .next s1) ∧ ∀ (die : Die) (r : Int), exec (.thermalTrip t die r) s = .next s1) ∧
    (∀ b : Fin 2, tbit (pwr s1 0x040) 8 = false →
      ∃ u, exec (.bladeCurrentLoss t b) s = .next u ∧ tbit (pwr u 0x040) 8 = true ∧ tbit (pwr u 0x040) (4 + b.val) = false ∧
        ErrorTaken 90 9 0x6012 b.val s1 u ∧ SameMemory s u) ∧
    (∀ b : Fin 2, tbit (pwr s1 0x040) 8 = true →
      ∃ u, exec (.bladeCurrentLoss t b) s = .next u ∧ tbit (pwr u 0x040) (4 + b.val) = false ∧ tbit (pwr u 0x040) 8 = true ∧
        SameRegsBut (fun k => k = barOff 90 9 0x040) s u ∧ SameMemory s u) ∧
    (∀ volts, 4000 ≤ volts → exec (.inputUndervoltage t volts) s = .next s1) ∧
    (∀ volts, volts < 4000 →
      ∃ u, exec (.inputUndervoltage t volts) s = .next u ∧ u.power.thrInput = 16 ∧ u.power.sprint = false ∧ SameMemory s u ∧
        (p.excursion = false → ErrorTaken 90 9 0x6010 volts s1 u) ∧ (p.excursion = true → u.regs = s.regs)) ∧
    (∃ u, exec (.auxRailLoss t) s = .next u ∧ u.rails = [] ∧ u.svnFloor = s.svnFloor ∧ u.rowsUsed = s.rowsUsed ∧ (∀ a, tier1Byte u a = 0#8) ∧
      (∀ a, tier2Byte u a = tier2Byte s a)) ∧
    (∀ slot : Fin 4, railOn s1 .aux = false →
      ∃ u, exec (.auxPowerOn t slot) s = .next u ∧ railOn u .aux = true ∧ railOn u .ctl = false ∧ powerStateNow u = 1 ∧ fld (tpr u 0x044) 0 2 = slot.val ∧
        u.start.standbyAt = s1.now)

/-- Starts, shutdowns and die resets are taken where R425 to R439 allow them, do what those rules say, and are refused elsewhere (R425, R426,
R427, R428, R429, R434, R435, R436, R437, R438, R439). -/
def Obligations.StartsShutdownsAndDieResets : Prop :=
  ∀ (t : Time) (bmc : Bool) (v : Word) (die : Die) (s : State),
    let s1 := advance s t
    let p := powerStateNow s1
    let quiet := starting s1 = false ∧ shutPending s1 = false ∧ shutCommitted s1 = false
    (reachesStart s1 bmc = true →
      (p = 1 → quiet → ∃ u, exec (.coldStart t (.command bmc)) s = .next u ∧ starting u = true ∧ startStep u = 1 ∧ startKind u = 1 ∧ SameMemory s u) ∧
      (p = 2 → quiet → ∃ u, exec (.warmStart t (.command bmc)) s = .next u ∧ starting u = true ∧ startStep u = 1 ∧ startKind u = 2 ∧ SameMemory s u) ∧
      (p ≠ 1 ∨ ¬ quiet → ∃ u, exec (.coldStart t (.command bmc)) s = .next u ∧ TurnedAway 90 8 0x9050 s1 u) ∧
      (p ≠ 2 ∨ ¬ quiet → ∃ u, exec (.warmStart t (.command bmc)) s = .next u ∧ TurnedAway 90 8 0x9050 s1 u) ∧
      (p = 3 → quiet → ∃ u, exec (.shutdownToParked t bmc) s = .next u ∧ shutPending u = true ∧ tbit (tpr u 0x110) 2 = false ∧
        fld (tpr u 0x110) 3 2 = 0 ∧ u.start.commitAt = s1.now + fld (tpr s1 0x114) 0 16 * ms ∧ ErrorTaken 90 8 0x6050 0 s1 u ∧ SameMemory s u) ∧
      (p = 3 ∨ p = 2 → quiet → ∃ u, exec (.shutdownToStandby t bmc) s = .next u ∧ shutPending u = true ∧ tbit (tpr u 0x110) 2 = true ∧
        fld (tpr u 0x110) 3 2 = 0 ∧ u.start.commitAt = s1.now + fld (tpr s1 0x114) 0 16 * ms ∧ ErrorTaken 90 8 0x6050 0 s1 u ∧ SameMemory s u) ∧
      (p ≠ 3 → ∃ u, exec (.shutdownToParked t bmc) s = .next u ∧ TurnedAway 90 8 0x9050 s1 u) ∧
      (shutPending s1 = true → fld (tpr s1 0x110) 3 2 = 0 → s1.now < s1.start.commitAt →
        ∃ u, exec (.abandonShutdown t bmc) s = .next u ∧ shutPending u = false ∧ ErrorTaken 90 8 0x6051 0 s1 u ∧ SameMemory s u) ∧
      (shutPending s1 = false ∨ fld (tpr s1 0x110) 3 2 ≠ 0 ∨ s1.start.commitAt ≤ s1.now →
        ∃ u, exec (.abandonShutdown t bmc) s = .next u ∧ TurnedAway 90 8 0x9050 s1 u)) ∧
    (reachesStart s1 bmc = false →
      ∀ i ∈ ([.coldStart t (.command bmc), .warmStart t (.command bmc), .shutdownToParked t bmc, .shutdownToStandby t bmc, .abandonShutdown t bmc] : List Instr),
        exec i s = .next s1) ∧
    (stepGoes s1 = true → startStep s1 = 11 →
      (startKind s1 = 1 → ∃ u, exec (.coldStart t .stepEnds) s = .next u ∧ starting u = false ∧ fld (pwr u 0x040) 0 3 = 3 ∧ SameMemory s u) ∧
      (startKind s1 = 2 → ∃ u, exec (.warmStart t .stepEnds) s = .next u ∧ starting u = false ∧ fld (pwr u 0x040) 0 3 = 3 ∧ SameMemory s u)) ∧
    (stepGoes s1 = false →
      ∀ i ∈ ([.coldStart t .stepEnds, .warmStart t .stepEnds, .coldStart t .portsEnd, .warmStart t .portsEnd] : List Instr), exec i s = .next s1) ∧
    (stepGoes s1 = true → startKind s1 = 1 → (startStep s1 = 2 ∨ startStep s1 = 7) → rampHolds s1 = false → exec (.coldStart t .stepEnds) s = .next s1) ∧
    (shutPending s1 = true → s1.start.commitAt ≤ s1.now →
      ∃ u, exec (.shutdownCommit t) s = .next u ∧ shutPending u = false ∧ starting u = false ∧ u.cores = [] ∧ (∀ k, railOn u (.core k) = false) ∧
        tbit (tpr u 0x110) 1 = true ∧ (∀ a, tier2Byte u a = tier2Byte s a) ∧
        (tbit (tpr s1 0x110) 2 = true → powerStateNow u = 1 ∧ u.start.downAt = s1.now + 39 * ms ∧ railOn u .ctl = false ∧ ∀ a, tier1Byte u a = 0#8) ∧
        (tbit (tpr s1 0x110) 2 = false → powerStateNow u = 2 ∧ u.start.downAt = s1.now + 33 * ms ∧ ∀ a, tier1Byte u a = tier1Byte s a)) ∧
    (shutPending s1 = false ∨ s1.now < s1.start.commitAt → exec (.shutdownCommit t) s = .next s1) ∧
    (railOn s1 .aux = true → p = 1 → quiet → inputOk s1 = true → max s1.start.standbyAt s1.start.downAt + 100 * ms ≤ s1.now →
      (fld (tpr s1 0x104) 0 2 = 1 → ∃ u, exec (.autoColdStart t) s = .next u ∧ starting u = true ∧ startStep u = 1 ∧ startKind u = 1 ∧ SameMemory s u) ∧
      (fld (tpr s1 0x104) 0 2 = 0 → exec (.autoColdStart t) s = .next s1)) ∧
    (starting s1 = true → pastLimit s1 0 = true →
      ∃ u, exec (.startStepTimeout t) s = .next u ∧ ErrorTaken 90 8 0x9051 (startStep s1) s1 u ∧ starting u = false ∧ powerStateNow u = 1 ∧
        railOn u .ctl = false ∧ u.cores = []) ∧
    (pastLimit s1 0 = false → pastLimit s1 1 = false → exec (.startStepTimeout t) s = .next s1) ∧
    (reachable s1 90 8 = true → tbit v 8 = true →
      (dieResetBad s1 (fld v 0 7) = false →
        ∃ u, exec (.dieReset t v) s = .next u ∧ mapFind u.dieReset (fld v 0 7) = some (s1.now + ms) ∧ SameMemory s u ∧
          (∀ page off, page < 256 → off < 0x1000 → off ≠ 0x044 → reg u (fld v 0 7) page off = regReset u.bench (barOff (fld v 0 7) page off)) ∧
          SameRegsBut (fun k => k / 0x100000 = fld v 0 7) s u) ∧
      (dieResetBad s1 (fld v 0 7) = true → ∃ u, exec (.dieReset t v) s = .next u ∧ ErrorTaken 90 8 0x10D0 0x118 s1 u ∧ RegsOnly (errRegs 90 8) s1 u)) ∧
    (mapFind s1.dieReset die.val = none → exec (.dieResetEnd t die) s = .next s1) ∧
    (∀ e, mapFind s1.dieReset die.val = some e →
      (s1.now < e → exec (.dieResetEnd t die) s = .next s1) ∧
      (e ≤ s1.now → ∃ u, exec (.dieResetEnd t die) s = .next u ∧ mapFind u.dieReset die.val = none ∧ fld (reg u die.val 2 0x040) 0 2 = 3 ∧ SameMemory s u))

/-- Self-test slices run, report and end, the cursor returns, and handovers mirror, copy and end as R445 to R454 say (R444, R445, R446, R447,
R448, R452, R453, R454, R470, R471). -/
def Obligations.SelfTestsAndHandovers : Prop :=
  ∀ (t : Time) (die : Die) (c : PhysCore) (v : Word) (measured : Nat) (s : State),
    let s1 := advance s t
    let d := die.val
    let b := bstOf s1 d
    let src := dieOrd (coreDie c.val) * 18 + fld v 0 5
    let cd := coreDie c.val
    let pg := corePage c.val 0
    (pageBlock d 3 = some .bst → reachable s1 d 3 = true →
      (pageLocked s1 d 3 = false → tbit v 1 = true →
        ∃ u, exec (.cursorRst t die v) s = .next u ∧ bstReg u d 0x050 = 0x1000#32 ∧ tbit (bstReg u d 0x040) 0 = tbit v 0 ∧
          RegsOnly (fun k => k = barOff d 3 0x040 ∨ k = barOff d 3 0x050) s1 u) ∧
      (frsRunning s1 d = true ∨ fld v 0 16 / 4096 = 0 ∨ 6 < fld v 0 16 / 4096 →
        ∃ u, exec (.bstRun t die v) s = .next u ∧ ErrorTaken d 3 0x10E0 0x048 s1 u ∧ RegsOnly (errRegs d 3) s1 u) ∧
      (frsRunning s1 d = false → fld v 0 16 / 4096 ≠ 0 → fld v 0 16 / 4096 ≤ 6 → sliceMay s1 d (fld v 0 16) (fld v 16 16) = true → b.running = none →
        ∃ u x, exec (.bstRun t die v) s = .next u ∧ (bstOf u d).running = some (fld v 16 16) ∧
          mapGet (bstOf u d).slices (fld v 16 16) none = some x ∧ x.id = fld v 0 16 ∧ x.since = s1.now ∧
          fld (bstReg u d 0x044) 0 16 = fld v 0 16 ∧ fld (bstReg u d 0x044) 16 5 = fld v 16 16 % 32 ∧ tbit (bstReg u d 0x044) 24 = true ∧ SameMemory s u) ∧
      (∀ r rest, b.reports = r :: rest →
        ∃ u, exec (.failHeadRead t die) s = .next u ∧ (bstOf u d).reports = rest ∧ u.lastRead = BitVec.ofNat 32 (r.kind + r.unit % 32 * 16 + 2 ^ 31) ∧
          bstReg u d 0x064 = BitVec.ofNat 32 (r.addr % 2 ^ 32) ∧ bstReg u d 0x068 = BitVec.ofNat 32 (r.bit % 2 ^ 16) ∧ SameMemory s u) ∧
      (b.reports = [] → exec (.failHeadRead t die) s = .next { s1 with lastRead := 0#32 })) ∧
    (frsRunning s1 d = true → slotStop s1 d ≤ s1.now → ∀ f, ∃ u, exec (.selfTestSliceDone t die f measured) s = .next u ∧
      (bstOf u d).running = none ∧ (bstOf u d).reports = b.reports ∧ SameMemory s u ∧
      ∀ k x, b.running = some k → mapGet b.slices k none = some x →
        mapGet (bstOf u d).slices k none = some { x with ran := x.ran + (slotStop s1 d - x.since) }) ∧
    (b.running = none → ∀ f, exec (.selfTestSliceDone t die f measured) s = .next s1) ∧
    (∀ k x, frsRunning s1 d = false ∨ s1.now < slotStop s1 d → b.running = some k → mapGet b.slices k none = some x →
      let due := sliceTime s1 (dieOrd d * 18 + k) x.id measured ≤ x.ran + (s1.now - x.since)
      (¬ due → ∀ f, exec (.selfTestSliceDone t die f measured) s = .next s1) ∧
      (due → ∃ u, exec (.selfTestSliceDone t die none measured) s = .next u ∧ (bstOf u d).running = none ∧ mapGet (bstOf u d).slices k none = none ∧
        (bstOf u d).reports = b.reports ∧ SameMemory s u) ∧
      (due → b.reports.length < 16 → ∀ addr bit,
        ∃ u, exec (.selfTestSliceDone t die (some (addr, bit)) measured) s = .next u ∧ (bstOf u d).running = none ∧
          (bstOf u d).reports = b.reports ++ [{ kind := x.id / 4096, unit := k, addr := addr, bit := bit }] ∧
          (dieType d = .compute → x.id / 4096 ≤ 3 → k = fld (bstReg s1 d 0x04C) 0 5 →
            smUnusable u (dieOrd d * 18 + k) = true ∧ SameMemory s u ∧ (tbit (reg s1 d 3 0x010) 0 = false → reg u d 3 0x020 = 0x3070#32)))) ∧
    (reachable s1 cd pg = true → pageLocked s1 cd pg = false →
      ∀ i ∈ ([.mirrorEn t c v, .copyStart t c v] : List Instr),
        (tbit v 8 = true → mirrorActive s1 c.val = false → 16 ≤ logicalOf s1 c.val → fld v 0 5 < 18 → src ≠ c.val →
            (core s1 src).clk.mhz = (core s1 c.val).clk.mhz → (∀ x ∈ dieCores cd, mirrorActive s1 x = false) →
          ∃ u, exec i s = .next u ∧ mirrorActive u c.val = true ∧ (core u src).mirrorTo = some c.val ∧ fld (coreReg u c.val 0x054) 0 5 = fld v 0 5 ∧
            tbit (coreReg u c.val 0x058) 1 = tbit v 9 ∧ SameMemory s u) ∧
        (tbit v 8 = true → mirrorActive s1 c.val = false → logicalOf s1 c.val < 16 ∨ 18 ≤ fld v 0 5 ∨ src = c.val →
          ∃ u, exec i s = .next u ∧ ErrorTaken cd pg 0x10E3 (fld v 0 5) s1 u ∧ RegsOnly (errRegs cd pg) s1 u) ∧
        (tbit v 8 = true → tbit v 9 = true → mirrorActive s1 c.val = true →
          ∃ u, exec i s = .next u ∧ mirrorActive u c.val = true ∧ tbit (coreReg u c.val 0x058) 1 = true ∧ fld (coreReg u c.val 0x058) 4 19 = 393216 ∧
            SameMemory s u)) ∧
    (let from_ := dieOrd cd * 18 + fld (coreReg s1 c.val 0x054) 0 5;
      (tbit (coreReg s1 c.val 0x058) 1 = true →
        ∃ u, exec (.copyDone t c) s = .next u ∧ (∀ a, spmByteAt u c.val a = spmByteAt (settle s1 from_) from_ a) ∧
          tbit (coreReg u c.val 0x058) 1 = false ∧ tbit (coreReg u c.val 0x058) 2 = true ∧ fld (coreReg u c.val 0x058) 4 19 = 0) ∧
      (tbit (coreReg s1 c.val 0x058) 1 = false → exec (.copyDone t c) s = .next s1) ∧
      (mirrorActive s1 c.val = true → logicalOf s1 c.val < 16 → 16 ≤ logicalOf s1 from_ → coreExecutes (core s1 from_) = false → (core s1 from_).reqs = [] →
        ∃ u, exec (.mirrorEnd t c) s = .next u ∧ mirrorActive u c.val = false ∧ (core u from_).mirrorTo ≠ some c.val ∧ SameMemory s u) ∧
      (mirrorActive s1 c.val = false → exec (.mirrorEnd t c) s = .next s1))

/-- Control clusters, heartbeats, membership rounds, decisions and rebuilds act as R456 to R468 say (R456, R457, R461, R462, R463, R464, R465,
R467, R468, R472). -/
def Obligations.ClustersMembershipAndFailover : Prop :=
  ∀ (t : Time) (k : Fin 2) (node : Fin 65536) (heard : List (Fin 65536)) (round : Nat) (v : Word) (received : List Decision) (s : State),
    let s1 := advance s t
    let o := 1 - k.val
    let late := mapGet s1.fo.trunkBeat k.val 0 + 10 * beat ≤ s1.now
    let roundStarts (u : State) : Prop := foState u = 1 ∧ u.fo.round = s.fo.round + 1 ∧ u.fo.since = s1.now ∧ u.fo.sent = none ∧ SameMemory s u
    let fenced (u : State) : Prop := foState u = 2 ∧ tbit (reg u 0 8 0x010) 0 = true ∧ (tbit (reg s1 0 8 0x010) 0 = false → reg u 0 8 0x020 = 0x9063#32)
    (fwRuns s1 = false ∨ (tracker s1 k.val).lost = true → exec (.trunkHeartbeat t k) s = .next s1) ∧
    (fwRuns s1 = true → (tracker s1 k.val).lost = false →
      ∃ u, exec (.trunkHeartbeat t k) s = .next u ∧ mapFind u.fo.trunkBeat k.val = some s1.now ∧ u.regs = s.regs ∧ SameMemory s u) ∧
    (fwRuns s1 = true → (tracker s1 k.val).lost = false → (tracker s1 o).lost = false → ∀ halted,
      (halted = true ∨ late → ∃ u, exec (.trunkClusterLost t k halted) s = .next u ∧ (tracker u k.val).lost = true ∧ (tracker u k.val).reqs = [] ∧
        (tracker u o).reqs = (tracker s1 o).reqs ++ (tracker s1 k.val).reqs ∧ ErrorTaken (trDie o) 8 0x9064 k.val s1 u ∧
        (∀ e a tail n, (tracker s1 k.val).intent = some (e, a, tail, n) → HostHolds u a e)) ∧
      (halted = false → ¬ late → exec (.trunkClusterLost t k halted) s = .next s1)) ∧
    (inRunningSlice s1 = false →
      ∀ i ∈ ([.moduleHeartbeat t heard, .heartbeatMiss t node, .membershipRound t, .departNotice t node, .alive t node round, .membershipWaitExpiry t,
          .decisionTimeout t, .decision t received] : List Instr), exec i s = .next s1) ∧
    (inRunningSlice s1 = true →
      (∃ u, exec (.moduleHeartbeat t heard) s = .next u ∧ u.regs = s.regs ∧ SameMemory s u ∧
        ∀ n, mapFind u.fo.beats n = if (∃ h ∈ heard, h.val = n) ∧ n ∈ neighbours s1 then some s1.now else mapFind s.fo.beats n) ∧
      (node.val ∈ neighbours s1 → node.val ∉ s1.fo.lost → foState s1 ≠ 1 → mapGet s1.fo.beats node.val 0 + fld (foReg s1 0x700) 0 8 * beat ≤ s1.now →
        ∃ u, exec (.heartbeatMiss t node) s = .next u ∧ roundStarts u ∧ ErrorTaken 0 8 0x4070 node.val s1 u) ∧
      (s1.now < mapGet s1.fo.beats node.val 0 + fld (foReg s1 0x700) 0 8 * beat → exec (.heartbeatMiss t node) s = .next s1) ∧
      ((∃ d ∈ frsDies, outOfStep s1 d = true) → foState s1 ≠ 1 → ∃ u, exec (.membershipRound t) s = .next u ∧ roundStarts u) ∧
      ((∀ d ∈ frsDies, outOfStep s1 d = false) → exec (.membershipRound t) s = .next s1) ∧
      (inSlice s1 node.val = true → node.val ≠ ownNode s1 → node.val ∉ s1.fo.lost → foState s1 ≠ 1 →
        ∃ u, exec (.departNotice t node) s = .next u ∧ roundStarts u) ∧
      (inSlice s1 node.val = true → s1.fo.round ≤ round →
        ∃ u, exec (.alive t node round) s = .next u ∧ u.regs = s.regs ∧ SameMemory s u ∧
          u.fo.heard = if round * 65536 + node.val ∈ s.fo.heard then s.fo.heard else s.fo.heard ++ [round * 65536 + node.val]) ∧
      (foState s1 = 1 → s1.fo.sent = none → s1.fo.since + fld (foReg s1 0x700) 8 8 * ms ≤ s1.now →
        (majority s1 = true → (∀ n ∈ heardNodes s1, ownNode s1 ≤ n) →
          ∃ u, exec (.membershipWaitExpiry t) s = .next u ∧ u.fo.sent = some ((liveNodes s1).filter (fun n => !(heardNodes s1).contains n)) ∧
            u.regs = s.regs ∧ SameMemory s u) ∧
        (majority s1 = true → (∃ n ∈ heardNodes s1, n < ownNode s1) → exec (.membershipWaitExpiry t) s = .next s1) ∧
        (majority s1 = false → ∃ u, exec (.membershipWaitExpiry t) s = .next u ∧ fenced u)) ∧
      (foState s1 = 1 → s1.fo.since + 20 * ms ≤ s1.now → ∃ u, exec (.decisionTimeout t) s = .next u ∧ fenced u) ∧
      (s1.now < s1.fo.since + 20 * ms → exec (.decisionTimeout t) s = .next s1) ∧
      (exec (.decision t []) s = .next s1) ∧
      (∀ d : Decision,
        (d.lost.contains (ownNode s1) = true → ∃ u, exec (.decision t [d]) s = .next u ∧ fenced u) ∧
        (foState s1 = 1 → s1.fo.entry = none → ∀ n, d.lost = [n] → n ≠ ownNode s1 →
          (∀ e, lossEntry (runningIndex s1) n = some e →
            ∃ u, exec (.decision t [d]) s = .next u ∧ u.fo.entry = some e ∧ u.fo.lost = s.fo.lost ++ [n] ∧ foState u = if e.rebuild = 0 then 5 else 4) ∧
          (lossEntry (runningIndex s1) n = none →
            ∃ u, exec (.decision t [d]) s = .next u ∧ u.slice.running = false ∧ u.fo.lost = s.fo.lost ++ [n] ∧ foState u = 0)))) ∧
    (∀ e pl, s1.fo.entry = some e → s1.plan = some pl →
      (foActs s1 = true → foState s1 = 4 → pl.unit = e.rebuild → frsRunning s1 0 = true → e.frames ≤ frameNum s1 0 → s1.planNext = none →
        (pendingLoads s1 s1.container e.resume = [] →
          ∃ u, exec (.rebuildComplete t true) s = .next u ∧ foState u = 5 ∧ u.fo.entry = some e ∧ u.planNext = some (planInfo s1 s1.container e.resume)) ∧
        (∀ b rest, pendingLoads s1 s1.container e.resume = b :: rest →
          ∃ u, exec (.rebuildComplete t true) s = .next u ∧ u.planNext = none ∧ u.fo = s.fo ∧ SameMemory s u)) ∧
      exec (.rebuildComplete t false) s = .next s1) ∧
    (reachable s1 0 8 = true → tbit v 0 = true →
      ∃ u, exec (.depart t v) s = .next u ∧ u.departing = true ∧ u.regs = s.regs ∧ SameMemory s u)

/-- The Heartwood die takes one service at a time, ends it after its time with its result or 0x8054, and zeroises as R476 to R488 say (R475,
R476, R477, R478, R479, R480, R482, R483, R484, R486, R487, R488). -/
def Obligations.HeartwoodServices : Prop :=
  ∀ (t : Time) (k : Fin 2) (die : Die) (slot : Fin 8) (keyId salt id n : Nat) (key : BitVec 256) (img : FwImage) (data : List Byte) (b e : Bool) (s : State),
    let s1 := advance s t
    let us := 10000
    (∀ r ∈ ([(.status t k, .status, 0x01, us), (.authChallenge t k, .authChallenge, 0x02, 2000 * us), (.authRespond t k b e, .authRespond b e, 0x02, 2000 * us),
        (.logout t k, .logout, 0x03, us), (.verifyFirmware t k img, .verifyFirmware img, 0x10, img.len * 3000000000 / 2 ^ 30 + 2000 * us),
        (.verifySignature t k n b, .verifySignature n b, 0x11, n * 2000 * us),
        (.unwrapInstall t k die keyId key salt b, .unwrapInstall die keyId key salt b, 0x12, 50 * us), (.clearKeys t k, .clearKeys, 0x13, 10 * us),
        (.linkSign t k data, .linkSign data, 0x20, 6000 * us), (.linkVerify t k b, .linkVerify b, 0x20, 9000 * us), (.quote t k data, .quote data, 0x21, 4000 * us),
        (.random t k n, .random n, 0x22, 5 * us), (.importKek t k slot id key b, .importKek slot id key b, 0x30, 8000 * us),
        (.importAppliance t k data b, .importAppliance data b, 0x30, 8000 * us), (.advanceFloor t k, .advanceFloor, 0x31, 20000 * us),
        (.servicePermit t k, .servicePermit, 0x32, 1000 * us), (.debugUnlock t k b, .debugUnlock b, 0x33, 1000 * us),
        (.zeroise t k, .zeroise, 0x3F, 50 * us)] : List (Instr × SvcReq × Nat × Nat)),
      reachable s1 9 8 = true →
        (s1.sec.service = none → ∃ u, exec r.1 s = .next u ∧ u.sec = { s1.sec with service := some { req := r.2.1, die := trDie k.val, due := s1.now + r.2.2.2 } } ∧
          reg u 9 8 0x064 = BitVec.ofNat 32 (1 + r.2.2.1 * 256) ∧ SameRegsBut (fun a => a = barOff 9 8 0x064) s1 u ∧ SameMemory s u) ∧
        (s1.sec.service ≠ none → ∃ u, exec r.1 s = .next u ∧ ErrorTaken 9 8 0x8054 r.2.2.1 s1 u ∧ RegsOnly (errRegs 9 8) s1 u)) ∧
    (s1.sec.service = none → exec (.serviceComplete t) s = .next s1) ∧
    (∀ x, s1.sec.service = some x →
      let done (u : State) (st : Nat) : Prop := u.sec.service = none ∧ reg u 9 8 0x064 = BitVec.ofNat 32 (2 + svcCode x.req * 256 + st * 65536) ∧ SameMemory s u
      let completes (p : State → Prop) : Prop := ∃ u, exec (.serviceComplete t) s = .next u ∧ p u
      (s1.now < x.due → exec (.serviceComplete t) s = .next s1) ∧
      (x.due ≤ s1.now → svcRole s1 x.req = false ∨ svcState s1 x.req = false →
        completes (fun u => done u 0x8054 ∧ ErrorTaken 9 8 0x8054 (svcCode x.req) s1 u)) ∧
      (x.due ≤ s1.now → svcRole s1 x.req = true → svcState s1 x.req = true →
        (x.req = .status → completes (fun u => done u 0 ∧ u.lastBytes = toLE 4 (hwd s1 0x040).toNat)) ∧
        (x.req = .authChallenge → completes (fun u => done u 0 ∧ u.sec.challenge = true)) ∧
        (x.req = .authRespond true e → s1.sec.challenge = true →
          completes (fun u => done u 0 ∧ hasRole u 1 = true ∧ fld (hwd u 0x048) 4 4 = 0 ∧ u.sec.challenge = false ∧ hasRole u 2 = (e || hasRole s1 2))) ∧
        (x.req = .authRespond false e → fld (hwd s1 0x048) 4 4 < 8 →
          completes (fun u => done u 0x8053 ∧ fld (hwd u 0x048) 4 4 = fld (hwd s1 0x048) 4 4 + 1 ∧ hasRole u 1 = hasRole s1 1 ∧
            ErrorTaken 9 8 0x8053 (fld (hwd s1 0x048) 4 4 + 1) s1 u ∧ (fld (hwd s1 0x048) 4 4 = 7 → u.sec.lockMs = s1.power.slowMs + 60000))) ∧
        (x.req = .logout → completes (fun u => done u 0 ∧ hasRole u 1 = false ∧ hasRole u 2 = false ∧ hasRole u 0 = hasRole s1 0)) ∧
        (x.req = .verifyFirmware img →
          (img.chainOk = true → img.sigOk = true → img.digestOk = true → s1.svnFloor ≤ img.svn →
            completes (fun u => done u 0 ∧ hasRole u 0 = true ∧ u.sec.fwDigest = img.digest ∧ reg u 9 8 0x050 = BitVec.ofNat 32 (img.svn % 256))) ∧
          (img.chainOk = true → img.sigOk = true → img.digestOk = true → img.svn < s1.svnFloor →
            completes (fun u => done u 0x8051 ∧ ErrorTaken 9 8 0x8051 (3 + img.svn % 256 * 256) s1 u ∧ hasRole u 0 = hasRole s1 0))) ∧
        (x.req = .verifySignature n b → completes (fun u => done u (if b then 0 else 0x8040))) ∧
        (∀ q, x.req = .unwrapInstall die keyId key salt true → mapGet s1.sec.keks (keyId % 8) none = some q → q.id = keyId / 8 →
          completes (fun u => done u 0 ∧ mapGet u.loader.keys die.val none = some { id := keyId, key := key, salt := salt })) ∧
        (x.req = .unwrapInstall die keyId key salt b → mapGet s1.sec.keks (keyId % 8) none = none →
          completes (fun u => done u 0x8041 ∧ u.loader = s1.loader ∧ CodeTaken 1 8 0x8041 s1 u)) ∧
        (x.req = .clearKeys → completes (fun u => done u 0 ∧ u.loader.keys = [])) ∧
        (x.req = .linkSign data → completes (fun u => done u 0 ∧ u.lastBytes = toLE 96 (Config.sign 1 data).toNat)) ∧
        (x.req = .linkVerify b → completes (fun u => done u (if b then 0 else 0x8030))) ∧
        (x.req = .quote data → completes (fun u => done u 0 ∧ u.lastBytes = signedQuote s1 data)) ∧
        (x.req = .random n → completes (fun u => done u 0 ∧ u.lastBytes.length = n)) ∧
        (x.req = .importKek slot id key true → completes (fun u => done u 0 ∧ mapGet u.sec.keks slot.val none = some { id := id, key := key })) ∧
        (x.req = .importAppliance data true → completes (fun u => done u 0 ∧ u.sec.appliance = some data)) ∧
        (x.req = .advanceFloor → completes (fun u => done u 0 ∧ u.svnFloor = max s1.svnFloor (fld (hwd s1 0x050) 0 8))) ∧
        (x.req = .servicePermit → completes (fun u => done u 0 ∧ tbit (hwd u 0x040) 5 = true ∧ tbit (hwd u 0x040) 2 = false ∧ u.sec.keks = [] ∧ u.loader.keys = [] ∧
          ErrorTaken 9 8 0x8055 2 s1 u)) ∧
        (x.req = .debugUnlock true → completes (fun u => done u 0 ∧ tbit (hwd u 0x040) 4 = true ∧ tbit (hwd u 0x040) 2 = false ∧ u.sec.keks = [] ∧
          u.loader.keys = [] ∧ fld (hwd u 0x048) 0 3 = 0 ∧ ErrorTaken 9 8 0x8055 1 s1 u)) ∧
        (x.req = .zeroise → completes (fun u => done u 0 ∧ u.sec.keks = [] ∧ u.sec.csps = false ∧ u.loader.keys = [] ∧ fld (hwd u 0x048) 0 3 = 0 ∧
          tbit (hwd u 0x040) 5 = false ∧ ErrorTaken 9 8 0x8055 0 s1 u)))) ∧
    (s1.sec.lockMs ≠ 0 → s1.sec.lockMs ≤ s1.power.slowMs →
      ∃ u, exec (.authLockoutExpiry t) s = .next u ∧ u.sec.lockMs = 0 ∧ fld (hwd u 0x048) 4 4 = 0 ∧ SameMemory s u) ∧
    (s1.sec.lockMs = 0 ∨ s1.power.slowMs < s1.sec.lockMs → exec (.authLockoutExpiry t) s = .next s1) ∧
    (∃ u, exec (.servicePermissionArrival t die) s = .next u ∧ mapGet u.service die.val false = tbit (hwd s1 0x040) 5 ∧
      mapFind u.sec.arrived die.val = some (meshCyc s1 s1.now) ∧ (∀ d, d ≠ die.val → mapGet u.service d false = mapGet s.service d false) ∧ SameMemory s u) ∧
    (railOn s1 .ctl = true → starting s1 = true →
      (∃ u, exec (.environmentalFailure t b) s = .next u ∧ starting u = false ∧ powerStateNow u = 1) ∧
      (hwdFailed s1 = false → ∃ u, exec (.continuousHealthTestFailure t) s = .next u ∧ starting u = false ∧ powerStateNow u = 1)) ∧
    (hwdFailed s1 = true → exec (.continuousHealthTestFailure t) s = .next s1) ∧
    (railOn s1 .ctl = true → starting s1 = false →
      (∃ u, exec (.environmentalFailure t b) s = .next u ∧ hwdFailed u = true ∧ tbit (hwd u 0x040) 2 = false ∧ u.sec.keks = [] ∧ u.sec.csps = false ∧ u.loader.keys = [] ∧
        (tbit (reg s1 9 8 0x010) 0 = false → reg u 9 8 0x020 = 0x8056#32) ∧ SameMemory s u) ∧
      (hwdFailed s1 = false →
        ∃ u, exec (.continuousHealthTestFailure t) s = .next u ∧ hwdFailed u = true ∧ tbit (hwd u 0x040) 2 = false ∧ u.sec.keks = [] ∧ u.sec.csps = false ∧
          u.loader.keys = [] ∧ (tbit (reg s1 9 8 0x010) 0 = false → reg u 9 8 0x020 = 0x8050#32) ∧ SameMemory s u)) ∧
    (railOn s1 .ctl = false → ∀ i ∈ ([.environmentalFailure t b, .continuousHealthTestFailure t] : List Instr), exec i s = .next s1)

/-- Firmware loads, page interrupts, the log mirror, PLDM commands and PCIe resets act as R433 and R491 to R518 say (R36, R433, R479, R492, R493,
R497, R499, R500, R503, R504, R506, R518). -/
def Obligations.FirmwareHostAndManagement : Prop :=
  ∀ (t : Time) (k : Fin 2) (v : Word) (img : FwImage) (smap : Option (List Byte)) (die : Die) (page : Fin 256) (bytes : List Byte) (f : Option Nat) (readOk : Bool)
      (s : State),
    let s1 := advance s t
    let d := die.val
    let p := page.val
    let tk := trDie k.val
    let tail := fld (reg s1 tk 8 0x0B8) 0 14
    (reachable s1 0 8 = true →
      (loadRefused s1 = true → ∃ u, exec (.firmwareLoad t v readOk img smap) s = .next u ∧ ErrorTaken 0 8 0x10F0 0x04C s1 u ∧ RegsOnly (errRegs 0 8) s1 u) ∧
      (loadRefused s1 = false → tbit v 0 = true →
        (svcState s1 (.verifyFirmware img) = true → img.chainOk = true → img.sigOk = true → img.digestOk = true → s1.svnFloor ≤ img.svn →
            tbit (img.word &&& word128 s1 0x060) 0 = true →
          ∃ u, exec (.firmwareLoad t v true img smap) s = .next u ∧ fwRuns u = true ∧ fld (reg u 0 8 0x050) 8 8 = img.svn % 256 ∧ hasRole u 0 = true ∧
            starting u = starting s1 ∧ SameMemory s u) ∧
        (∃ u, exec (.firmwareLoad t v false img smap) s = .next u ∧ starting u = false ∧ powerStateNow u = 1 ∧ fwRuns u = false)) ∧
      (loadRefused s1 = false → tbit v 0 = false → ∃ u, exec (.firmwareLoad t v readOk img smap) s = .next u ∧ RegsOnly (fun _ => False) s1 u)) ∧
    (reachable s1 d p = false ∨ irqOut s1 d p = 0#32 → exec (.pageInterrupt t die page) s = .next s1) ∧
    (reachable s1 d p = true → irqOut s1 d p ≠ 0#32 → d ≠ 90 → p ≠ 4 →
      (∀ i, mapEntry s1 d p = some i →
        ∃ u, exec (.pageInterrupt t die page) s = .next u ∧ SameMemory s u ∧
          (vecMasked s1.host (38 + i) = true → mapGet u.host.pending (38 + i) false = true ∧ u.host.sent = s.host.sent) ∧
          (vecMasked s1.host (38 + i) = false → u.host.sent = (38 + i) :: s.host.sent)) ∧
      (mapEntry s1 d p = none → fwRuns s1 = true → tbit (irqOut s1 d p) 0 = true → ∀ a b, s.host.logN = [a, b] →
        ∃ u, exec (.pageInterrupt t die page) s = .next u ∧ u.host.logN = [a + 1, b] ∧ SameMemory s u)) ∧
    (fwRuns s1 = true → inCtl s1 tk = true → logHost s1 k.val ≠ 0 → (tracker s1 k.val).lost = false →
      (∀ n, nth s1.host.logN k.val 0 = n + 1 → nth s1.host.mirrorN k.val 0 = n → s1.host.mirrorN.length = 2 →
        (∃ u, exec (.logMirrorCopy t k none) s = .next u ∧ nth u.host.mirrorN k.val 0 = n + 1 ∧ fld (reg u tk 8 0x0B8) 0 14 = (tail + 1) % 16384 ∧
          HostHolds u (logHost s1 k.val + 64 * tail) (mapGet s1.host.log (k.val * 16384 + n % 16384) []) ∧ SameMemory s u) ∧
        (ctlSlot s1 tk = none → ∃ u, exec (.logMirrorCopy t k (some 0)) s = .next u ∧ ErrorTaken tk 8 0x9072 tail s1 u ∧ u.host.mirrorN = s.host.mirrorN ∧
          u.host.mem = s.host.mem)) ∧
      (nth s1.host.logN k.val 0 ≤ nth s1.host.mirrorN k.val 0 → exec (.logMirrorCopy t k f) s = .next s1)) ∧
    (logHost s1 k.val = 0 → exec (.logMirrorCopy t k f) s = .next s1) ∧
    (railOn s1 .aux = true →
      (recordOk bytes = false → exec (.setCablingRecord t bytes) s = .next { s1 with lastBytes := [1#8] }) ∧
      (recordOk bytes = true → recordNow s1 = true →
        ∃ u, exec (.setCablingRecord t bytes) s = .next u ∧ u.cab = some (parseRecord bytes) ∧ u.lastBytes = [0#8] ∧ tbit (tpr u 0x044) 8 = true ∧
          fld (tpr u 0x040) 0 16 = nodeFrom (parseRecord bytes) (fld (tpr s1 0x044) 0 2) % 65536 ∧ tbit (tpr u 0x040) 16 = true ∧ SameMemory s u) ∧
      (recordOk bytes = true → recordNow s1 = false →
        ∃ u, exec (.setCablingRecord t bytes) s = .next u ∧ u.cab = s.cab ∧ u.cabNext = some (parseRecord bytes) ∧ u.lastBytes = [0#8] ∧ SameMemory s u) ∧
      (∀ c, s1.cab = some c → exec (.getCablingRecord t) s = .next { s1 with lastBytes := 0#8 :: recordBytes c }) ∧
      (s1.cab = none → exec (.getCablingRecord t) s = .next { s1 with lastBytes := [1#8] }) ∧
      (∃ u, exec (.getSpeedMap t) s = .next u ∧ u.lastBytes = 0#8 :: speedBytes s1 ∧ u.lastBytes.length = 4613 ∧ u.regs = s.regs ∧ SameMemory s u) ∧
      (∃ u r, exec (.getFaultRecord t) s = .next u ∧ u.lastBytes = 0#8 :: r ∧ u.regs = s.regs ∧ SameMemory s u) ∧
      (powerStateNow s1 = 1 → starting s1 = false → bytes.length = 4612 → crcOk bytes = true →
        ∃ u, exec (.setSpeedMap t bytes) s = .next u ∧ u.start.copyBmc = some (mapWords bytes 1152) ∧ u.lastBytes = [0#8] ∧ u.smap = s.smap ∧ u.regs = s.regs) ∧
      (powerStateNow s1 ≠ 1 ∨ bytes.length ≠ 4612 ∨ crcOk bytes = false → exec (.setSpeedMap t bytes) s = .next { s1 with lastBytes := [1#8] })) ∧
    (railOn s1 .aux = false →
      ∀ i ∈ ([.setCablingRecord t bytes, .getCablingRecord t, .getSpeedMap t, .getFaultRecord t, .setSpeedMap t bytes] : List Instr), exec i s = .next s1) ∧
    (tbit (reg s1 1 8 0x044) 9 = true →
      ∃ u, exec (.functionLevelReset t) s = .next u ∧ u.host.msix = [] ∧ u.host.pending = [] ∧ u.regs = s.regs ∧ SameMemory s u) ∧
    (tbit (reg s1 1 8 0x044) 9 = false → exec (.functionLevelReset t) s = .next s1) ∧
    (∃ u, exec (.perstAssert t) s = .next u ∧ u.host.perst = true ∧ u.host.msix = [] ∧ tbit (reg u 1 8 0x044) 9 = false ∧ SameMemory s u) ∧
    (∃ u, exec (.perstDeassert t) s = .next u ∧ u.host.perst = false ∧ u.regs = s.regs ∧ SameMemory s u)

/-- The trace capture unit moves through IDLE, PRE, ARMED, POST, HOLD and REARM as R508 and R509 say (R508, R509, R512). -/
def Obligations.TraceCaptureStates : Prop :=
  ∀ (t : Time) (die : Die) (v : Word) (s : State),
    let s1 := advance s t
    let d := die.val
    let x := trcOf s1 d
    let now := some (meshCyc s1 s1.now)
    let writes : List Instr := [.traceArm t die v, .traceDisarm t die v, .traceRelease t die v, .swTrigger t die v]
    (reachable s1 d 4 = false → ∀ i ∈ writes, exec i s = .next s1) ∧
    (reachable s1 d 4 = true → d = 9 → ∀ i ∈ writes, ∃ u, exec i s = .next u ∧ TurnedAway 9 8 0x8054 s1 u) ∧
    (reachable s1 d 4 = true → pageLocked s1 d 4 = true → d ≠ 9 → ∀ i ∈ writes, ∃ u, exec i s = .next u ∧ CodeTaken d 4 0x1003 s1 u ∧ SameMemory s u) ∧
    (reachable s1 d 4 = true → pageLocked s1 d 4 = false → d ≠ 9 → fld v 8 2 = fld (reg s1 d 4 0x040) 8 2 →
      (fld v 4 3 = fld (reg s1 d 4 0x040) 4 3 →
        (tbit v 0 = true → tbit v 1 = false → tbit v 2 = false → trcState s1 d = 0 →
          ∃ u, exec (.traceArm t die v) s = .next u ∧ trcState u d = 1 ∧ (trcOf u d).buf = [] ∧ (trcOf u d).armCyc = now ∧ reg u d 4 0x058 = 0#32 ∧
            tbit (reg u d 4 0x040) 0 = true ∧ SameMemory s u) ∧
        (tbit v 0 = false → tbit v 1 = false → tbit v 2 = false →
          ∃ u, exec (.traceDisarm t die v) s = .next u ∧ trcState u d = 0 ∧ tbit (reg u d 4 0x040) 0 = false ∧ SameMemory s u) ∧
        (tbit v 0 = true → tbit v 1 = true → tbit v 2 = false → trcState s1 d = 4 →
          ∃ u, exec (.traceRelease t die v) s = .next u ∧ trcState u d = 5 ∧ (trcOf u d).since = s1.now ∧ SameMemory s u) ∧
        (tbit v 0 = true → tbit v 1 = false → tbit v 2 = true → x.armCyc ≠ now → x.missedCyc ≠ now →
          (trcState s1 d = 2 → ∃ u, exec (.swTrigger t die v) s = .next u ∧ trcState u d = 3 ∧ fld (reg u d 4 0x054) 4 12 = trcPre s1 d ∧ SameMemory s u) ∧
          (trcState s1 d = 1 → fld (reg s1 d 4 0x040) 4 3 ≠ 5 → x.last ≠ now →
            ∃ u, exec (.swTrigger t die v) s = .next u ∧ trcState u d = 3 ∧ fld (reg u d 4 0x054) 4 12 = x.buf.length % 4096 ∧ SameMemory s u) ∧
          (3 ≤ trcState s1 d → ∃ u, exec (.swTrigger t die v) s = .next u ∧ trcState u d = trcState s1 d ∧
            fld (reg u d 4 0x058) 0 16 = min 65535 (fld (reg s1 d 4 0x058) 0 16 + 1) ∧ SameMemory s u)) ∧
        (tbit v 0 = true → tbit v 1 = false → tbit v 2 = true → x.armCyc = now → trcState s1 d = 1 →
          ∃ u, exec (.swTrigger t die v) s = .next u ∧ trcState u d = 1 ∧ SameMemory s u)) ∧
      (fld v 4 3 ≠ fld (reg s1 d 4 0x040) 4 3 → trcState s1 d ≠ 0 → tbit v 0 = true → tbit v 1 = false → tbit v 2 = false →
        ∃ u, exec (.traceArm t die v) s = .next u ∧ ErrorTaken d 4 0x10F3 0x040 s1 u ∧ fld (reg u d 4 0x040) 4 3 = fld (reg s1 d 4 0x040) 4 3 ∧
          trcState u d = trcState s1 d)) ∧
    (traceCause s1 d = false → exec (.traceTrigger t die) s = .next s1) ∧
    (traceCause s1 d = true → d ≠ 9 → trcState s1 d = 2 → x.armCyc ≠ now → x.missedCyc ≠ now →
      ∃ u, exec (.traceTrigger t die) s = .next u ∧ trcState u d = 3 ∧ fld (reg u d 4 0x054) 4 12 = trcPre s1 d ∧ SameMemory s u) ∧
    (x.coming = 0 → exec (.xdieTrigger t die) s = .next s1) ∧
    (0 < x.coming →
      (tbit (reg s1 d 4 0x040) 9 = false → ∃ u, exec (.xdieTrigger t die) s = .next u ∧ (trcOf u d).coming = x.coming - 1 ∧ u.regs = s.regs ∧ SameMemory s u) ∧
      (tbit (reg s1 d 4 0x040) 9 = true → hasFeature s1 9 = true → d ≠ 9 → trcState s1 d = 2 → x.armCyc ≠ now → x.missedCyc ≠ now →
        ∃ u, exec (.xdieTrigger t die) s = .next u ∧ trcState u d = 3 ∧ SameMemory s u)) ∧
    (trcState s1 d = 1 → x.armCyc ≠ now →
      (trcPre s1 d ≤ x.buf.length → ∃ u, exec (.tracePreFilled t die) s = .next u ∧ trcState u d = 2 ∧ u.trc = s.trc ∧ SameMemory s u) ∧
      (x.buf.length < trcPre s1 d → exec (.tracePreFilled t die) s = .next s1)) ∧
    (trcState s1 d = 3 →
      (4096 - trcPre s1 d ≤ x.post →
        ∃ u, exec (.traceCaptureComplete t die) s = .next u ∧ trcState u d = 4 ∧ tbit (reg u d 4 0x010) 16 = true ∧ u.trc = s.trc ∧ SameMemory s u) ∧
      (x.post < 4096 - trcPre s1 d → exec (.traceCaptureComplete t die) s = .next s1)) ∧
    (trcState s1 d = 5 →
      (meshCyc s1 x.since + 64 ≤ meshCyc s1 s1.now → ∃ u, exec (.rearmEnd t die) s = .next u ∧ trcState u d = 1 ∧ (trcOf u d).buf = [] ∧ SameMemory s u) ∧
      (meshCyc s1 s1.now < meshCyc s1 x.since + 64 → exec (.rearmEnd t die) s = .next s1))

/-- A plan load that fails a check arms nothing and records its code; one that passes arms unit 0 with every module's success (R143, R147, R152,
R494). -/
def Obligations.PlanLoadsArmOnlyWhatPasses : Prop :=
  ∀ (t : Time) (n : Fin 256) (file : List Byte) (othersOk sigOk : Bool) (words : List (Fin 65536 × BitVec 128)) (el rt : List Nat) (s : State),
    let s0 := notePlanLoad (advance s t)
    let s1 := putPlanReq s0 none
    let pl := planInfo s1 file n.val
    let req (others : Bool) : PlanReq :=
      { unit := n.val, file := file, othersOk := others, sigOk := sigOk, words := foldState (fun m p => mapSet m p.1.val p.2) [] words, eligible := el,
        returned := rt }
    let load (others : Bool) : Instr := .planLoad t n file others sigOk words el rt
    let floor := floorOf s1 (req othersOk)
    let bad := orElse (containerFault s1 file floor sigOk) (unitFault s1 file pl)
    (headerOk file = true → reduced s0 (req othersOk) = false → exec (load othersOk) s = .next (putPlanReq s0 (some (req othersOk)))) ∧
    (headerOk file = false →
      ∃ u, exec (load othersOk) s = .next u ∧ CodeTaken 0 1 0x101A (advance s t) u ∧ u.planNext = s.planNext ∧ SameMemory s u) ∧
    (reduced s0 (req othersOk) = true →
      (∀ x, bad = some x →
        ∃ u, exec (load othersOk) s = .next u ∧ CodeTaken 0 1 (x.1 % 65536) (advance s t) u ∧
          (∀ i, x.2 = some i → ErrorTaken 0 1 (x.1 % 65536) (i % 2 ^ 24) (advance s t) u) ∧ u.planNext = s.planNext ∧ u.plan = s.plan ∧
          u.container = s.container ∧ u.frs = s.frs ∧ u.cores = s.cores ∧ u.fo.planReq = none ∧ SameMemory s u) ∧
      (∀ e rest, bad = none → pendingLoads s1 file n.val = e :: rest →
        ∃ u, exec (load othersOk) s = .next u ∧ u.planNext = s.planNext ∧ u.plan = s.plan ∧ u.container = s.container ∧ u.frs = s.frs ∧
          u.cores = s.cores ∧ SameMemory s u) ∧
      (bad = none → pendingLoads s1 file n.val = [] → (foldState planContext (s1, true, []) pl.contexts).2.1 = true →
        (n.val = 0 → ∃ u, exec (load true) s = .next u ∧ u.planNext = some pl ∧ u.container = file ∧ u.plan = s.plan ∧
          featureWord u 0 8 0x090 = floor ∧ (∀ a, tier1Byte u a = tier1Byte s a) ∧ ∀ a, tier2Byte u a = tier2Byte s a) ∧
        (n.val ≠ 0 → ∃ u, exec (load true) s = .next u ∧ u.planNext = s.planNext ∧ u.container = file ∧ u.plan = s.plan ∧
          (∀ a, tier1Byte u a = tier1Byte s a) ∧ ∀ a, tier2Byte u a = tier2Byte s a) ∧
        (∃ u, exec (load false) s = .next u ∧ u.planNext = s.planNext ∧ u.container = s.container ∧ u.frs = s.frs ∧
          (∀ a, tier1Byte u a = tier1Byte s a) ∧ ∀ a, tier2Byte u a = tier2Byte s a)))
end

