-- ==== Sys2Proof/Laws/Bits.lean ====
section
/-!
SUPPORT. Sys2Proof/Laws/Bits.lean: the laws of bit fields and of byte order: what a field reads after a field is written, and that bytes spell back
their number.
-/
namespace Sys2Proof.Machine

theorem ofLE_toLE_mod (n v : Nat) : ofLE (toLE n v) = v % 256 ^ n := by
  induction n generalizing v with
  | zero => simp [toLE, ofLE, Nat.mod_one]
  | succ k ih =>
    have h1 : 256 ^ (k + 1) = 256 * 256 ^ k := Nat.pow_succ'
    simp only [toLE, ofLE, ih, BitVec.toNat_ofNat, h1, Nat.mod_mul]

@[simp] theorem toLE_size (n v : Nat) : (toLE n v).length = n := by
  induction n generalizing v with
  | zero => rfl
  | succ k ih => simp [toLE, ih]

/-- Bit `i` of a word with a field replaced: the field's bit inside it, the old bit outside. -/
theorem tbit_setFld {w : Nat} (x : BitVec w) (lo n v i : Nat) (hi : i < w) :
    tbit (setFld x lo n v) i = if lo ≤ i ∧ i < lo + n then v.testBit (i - lo) else tbit x i := by
  simp only [tbit, setFld, fmask, BitVec.getLsbD_or, BitVec.getLsbD_and, BitVec.getLsbD_not, BitVec.getLsbD_ofNat, hi, decide_true, Bool.true_and,
    Nat.testBit_mul_two_pow, Nat.testBit_two_pow_sub_one, Nat.testBit_mod_two_pow]
  by_cases h1 : lo ≤ i
  · by_cases h2 : i - lo < n
    · have h3 : i < lo + n := by omega
      simp [h1, h2, h3]
    · have h3 : ¬ i < lo + n := by omega
      simp [h1, h2, h3]
  · simp [h1]

/-- A bit written reads back. -/
@[simp] theorem tbit_setBit_same {w : Nat} (x : BitVec w) (i : Nat) (b : Bool) (hi : i < w) : tbit (setBit x i b) i = b := by
  rw [setBit, tbit_setFld x i 1 _ i hi]
  cases b <;> simp

/-- A write of one bit leaves the others. -/
theorem tbit_setBit_ne {w : Nat} (x : BitVec w) {i j : Nat} (b : Bool) (hj : j < w) (h : j ≠ i) : tbit (setBit x i b) j = tbit x j := by
  rw [setBit, tbit_setFld x i 1 _ j hj]
  exact if_neg (by omega)

theorem fld_testBit {w : Nat} (x : BitVec w) (lo n i : Nat) : (fld x lo n).testBit i = (decide (i < n) && tbit x (lo + i)) := by
  simp [fld, tbit, Nat.testBit_mod_two_pow, Nat.testBit_shiftRight, BitVec.getLsbD]

/-- A field written reads back, modulo its width. -/
theorem fld_setFld_same {w : Nat} (x : BitVec w) (lo n v : Nat) (h : lo + n ≤ w) : fld (setFld x lo n v) lo n = v % 2 ^ n := by
  apply Nat.eq_of_testBit_eq
  intro i
  rw [fld_testBit, Nat.testBit_mod_two_pow]
  by_cases hi : i < n
  · have h1 : lo + i < w := by omega
    have h2 : lo + i < lo + n := by omega
    rw [tbit_setFld x lo n v (lo + i) h1]
    simp [hi]
  · simp [hi]

/-- A field apart from the one written reads as before. -/
theorem fld_setFld_apart {w : Nat} (x : BitVec w) (lo n v lo' n' : Nat) (hw : lo' + n' ≤ w) (h : lo' + n' ≤ lo ∨ lo + n ≤ lo') :
    fld (setFld x lo n v) lo' n' = fld x lo' n' := by
  apply Nat.eq_of_testBit_eq
  intro i
  rw [fld_testBit, fld_testBit]
  by_cases hi : i < n'
  · have h1 : lo' + i < w := by omega
    have h2 : ¬ (lo ≤ lo' + i ∧ lo' + i < lo + n) := by omega
    rw [tbit_setFld x lo n v (lo' + i) h1, if_neg h2]
  · simp [hi]

end Sys2Proof.Machine
end

