-- ==== Sys2Proof/Laws/Maps.lean ====
section
/-!
SUPPORT. Sys2Proof/Laws/Maps.lean: the laws of sparse data by key: what a read after a write gives, and that every operation keeps the canonical form.
-/
namespace Sys2Proof.Machine

variable {α : Type}

@[simp] theorem mapGet_nil (k : Nat) (d : α) : mapGet [] k d = d := rfl

@[simp] theorem mapGet_mapSet_same (m : Map α) (k : Nat) (v d : α) : mapGet (mapSet m k v) k d = v := by
  induction m with
  | nil => simp [mapSet, mapGet]
  | cons p r ih =>
    obtain ⟨a, w⟩ := p
    simp only [mapSet]
    split
    · simp [mapGet]
    · split
      · simp [mapGet]
      · simp [mapGet, *]

theorem mapGet_mapSet_ne (m : Map α) {k j : Nat} (h : j ≠ k) (v d : α) : mapGet (mapSet m k v) j d = mapGet m j d := by
  induction m with
  | nil => simp [mapSet, mapGet, Ne.symm h]
  | cons p r ih =>
    obtain ⟨a, w⟩ := p
    simp only [mapSet]
    split
    · next e => subst e; simp [mapGet, Ne.symm h]
    · split
      · simp [mapGet, Ne.symm h]
      · simp [mapGet, ih]

@[simp] theorem mapGet_mapErase_same (m : Map α) (k : Nat) (d : α) : mapGet (mapErase m k) k d = d := by
  induction m with
  | nil => rfl
  | cons p r ih =>
    obtain ⟨a, w⟩ := p
    simp only [mapErase]
    split
    · exact ih
    · next h => simp [mapGet, h, ih]

theorem mapGet_mapErase_ne (m : Map α) {k j : Nat} (h : j ≠ k) (d : α) : mapGet (mapErase m k) j d = mapGet m j d := by
  induction m with
  | nil => rfl
  | cons p r ih =>
    obtain ⟨a, w⟩ := p
    simp only [mapErase]
    split
    · next e => subst e; simp [mapGet, Ne.symm h, ih]
    · simp [mapGet, ih]

/-- A read of the key written gives the value written. -/
@[simp] theorem mapGet_mapPut_same [DecidableEq α] (m : Map α) (k : Nat) (v d : α) : mapGet (mapPut d m k v) k d = v := by
  unfold mapPut
  split
  · next h => simp [h]
  · simp

/-- A write leaves every other key alone. -/
theorem mapGet_mapPut_ne [DecidableEq α] (m : Map α) {k j : Nat} (h : j ≠ k) (v d e : α) : mapGet (mapPut e m k v) j d = mapGet m j d := by
  unfold mapPut
  split
  · exact mapGet_mapErase_ne m h d
  · exact mapGet_mapSet_ne m h v d

theorem mapGet_mapPut [DecidableEq α] (m : Map α) (k j : Nat) (v d : α) : mapGet (mapPut d m k v) j d = if j = k then v else mapGet m j d := by
  split
  · next h => subst h; simp
  · next h => exact mapGet_mapPut_ne m h v d d

theorem mapGet_mapEraseRange (m : Map α) (lo hi j : Nat) (d : α) :
    mapGet (mapEraseRange m lo hi) j d = if lo ≤ j ∧ j < hi then d else mapGet m j d := by
  induction m with
  | nil => simp [mapEraseRange, mapGet]
  | cons p r ih =>
    obtain ⟨a, w⟩ := p
    simp only [mapEraseRange]
    by_cases e : a = j
    · subst e
      split <;> simp_all [mapGet]
    · split <;> simp [mapGet, e, ih]

/-! ## The canonical form -/

theorem mapAbove_mono {m : Map α} {a b : Nat} (h : a ≤ b) (hm : mapAbove b m = true) : mapAbove a m = true := by
  induction m with
  | nil => rfl
  | cons p r ih =>
    simp only [mapAbove, Bool.and_eq_true, decide_eq_true_eq] at hm ⊢
    exact ⟨by omega, ih hm.2⟩

theorem mapAbove_mapSet {m : Map α} {a k : Nat} {v : α} (hk : a < k) (hm : mapAbove a m = true) : mapAbove a (mapSet m k v) = true := by
  induction m with
  | nil => simp [mapSet, mapAbove, hk]
  | cons p r ih =>
    obtain ⟨b, w⟩ := p
    simp only [mapAbove, Bool.and_eq_true, decide_eq_true_eq] at hm
    simp only [mapSet]
    split
    · simp [mapAbove, hk, hm.2]
    · split
      · simp [mapAbove, hk, hm]
      · simp [mapAbove, hm.1, ih hm.2]

theorem mapAbove_mapErase {m : Map α} {a k : Nat} (hm : mapAbove a m = true) : mapAbove a (mapErase m k) = true := by
  induction m with
  | nil => rfl
  | cons p r ih =>
    simp only [mapAbove, Bool.and_eq_true, decide_eq_true_eq] at hm
    simp only [mapErase]
    split
    · exact ih hm.2
    · simp [mapAbove, hm.1, ih hm.2]

theorem mapAbove_mapEraseRange {m : Map α} {a lo hi : Nat} (hm : mapAbove a m = true) : mapAbove a (mapEraseRange m lo hi) = true := by
  induction m with
  | nil => rfl
  | cons p r ih =>
    simp only [mapAbove, Bool.and_eq_true, decide_eq_true_eq] at hm
    simp only [mapEraseRange]
    split
    · exact ih hm.2
    · simp [mapAbove, hm.1, ih hm.2]

variable [DecidableEq α]

@[simp] theorem mapWf_nil (d : Nat → α) : mapWf d [] = true := rfl

theorem mapWf_mapSet {d : Nat → α} {m : Map α} {k : Nat} {v : α} (hv : v ≠ d k) (hm : mapWf d m = true) : mapWf d (mapSet m k v) = true := by
  induction m with
  | nil => simp [mapSet, mapWf, mapAbove, hv]
  | cons p r ih =>
    obtain ⟨a, w⟩ := p
    simp only [mapWf, Bool.and_eq_true, decide_eq_true_eq] at hm
    simp only [mapSet]
    split
    · next e => subst e; simp [mapWf, hv, hm.1.2, hm.2]
    · split
      · next h1 h2 => simp [mapWf, mapAbove, hv, hm, h2, mapAbove_mono (Nat.le_of_lt h2) hm.1.2]
      · next h1 h2 => simp [mapWf, hm.1.1, ih hm.2, mapAbove_mapSet (show a < k by omega) hm.1.2]

theorem mapWf_mapErase {d : Nat → α} {m : Map α} {k : Nat} (hm : mapWf d m = true) : mapWf d (mapErase m k) = true := by
  induction m with
  | nil => rfl
  | cons p r ih =>
    simp only [mapWf, Bool.and_eq_true, decide_eq_true_eq] at hm
    simp only [mapErase]
    split
    · exact ih hm.2
    · simp [mapWf, hm.1.1, ih hm.2, mapAbove_mapErase hm.1.2]

theorem mapWf_mapEraseRange {d : Nat → α} {m : Map α} {lo hi : Nat} (hm : mapWf d m = true) : mapWf d (mapEraseRange m lo hi) = true := by
  induction m with
  | nil => rfl
  | cons p r ih =>
    simp only [mapWf, Bool.and_eq_true, decide_eq_true_eq] at hm
    simp only [mapEraseRange]
    split
    · exact ih hm.2
    · simp [mapWf, hm.1.1, ih hm.2, mapAbove_mapEraseRange hm.1.2]

/-- Writing the value an unlisted key reads as removes the entry, so every write keeps the canonical form. -/
theorem mapWf_mapPut {e : α} {d : Nat → α} {m : Map α} {k : Nat} {v : α} (he : d k = e) (hm : mapWf d m = true) : mapWf d (mapPut e m k v) = true := by
  unfold mapPut
  split
  · exact mapWf_mapErase hm
  · next h => exact mapWf_mapSet (by rw [he]; exact h) hm

/-- A fold whose every step keeps a property keeps it. -/
theorem foldState_keeps {σ β : Type} {P : σ → Prop} {f : σ → β → σ} (hf : ∀ s x, P s → P (f s x)) (l : List β) (s : σ) (h : P s) :
    P (foldState f s l) := by
  induction l generalizing s with
  | nil => exact h
  | cons x r ih => exact ih (f s x) (hf s x h)

end Sys2Proof.Machine
end

