-- ==== Sys2Proof/Laws/Memory.lean ====
section
/-!
SUPPORT. Sys2Proof/Laws/Memory.lean: every operation over the memories keeps their canonical form, a byte written reads back, and a write leaves
every other byte alone: Tier 1, the CXL pool and the scratchpads.
-/
namespace Sys2Proof.Machine

/-- The canonical form of one memory's bytes. -/
abbrev bytesWf (m : Map Byte) : Bool := mapWf (fun _ => 0#8) m

theorem memoryWf_of {s : State} (h1 : bytesWf s.t1 = true) (h2 : bytesWf s.t2 = true) : memoryWf s = true := by
  rw [memoryWf, Bool.and_eq_true]; exact ⟨h1, h2⟩

theorem memoryWf_t1 {s : State} (h : memoryWf s = true) : bytesWf s.t1 = true := by
  rw [memoryWf, Bool.and_eq_true] at h; exact h.1

theorem memoryWf_t2 {s : State} (h : memoryWf s = true) : bytesWf s.t2 = true := by
  rw [memoryWf, Bool.and_eq_true] at h; exact h.2

/-- Memory right after reset lists nothing. -/
theorem memoryWf_reset : memoryWf State.reset = true := rfl

/-- A state that shares both memories with one in canonical form is in canonical form. -/
theorem memoryWf_congr {s u : State} (h1 : u.t1 = s.t1) (h2 : u.t2 = s.t2) (h : memoryWf s = true) : memoryWf u = true := by
  rw [memoryWf, h1, h2]; exact h

/-! ## Tier 1 -/

/-- Storing bytes in Tier 1 keeps both memories' canonical form. -/
theorem memoryWf_t1Put (l : List Byte) (s : State) (a : Nat) (h : memoryWf s = true) : memoryWf (t1Put s a l) = true := by
  induction l generalizing s a with
  | nil => exact h
  | cons b r ih => exact ih _ _ (memoryWf_of (mapWf_mapPut rfl (memoryWf_t1 (s := s) h)) (memoryWf_t2 (s := s) h))

/-- A store in Tier 1 leaves every byte outside it alone. -/
theorem tier1Byte_t1Put_out (l : List Byte) (s : State) (a k : Nat) (h : k < a ∨ a + l.length ≤ k) : tier1Byte (t1Put s a l) k = tier1Byte s k := by
  induction l generalizing s a with
  | nil => rfl
  | cons b r ih =>
    simp only [List.length_cons] at h
    rw [t1Put, ih _ _ (by omega)]
    exact mapGet_mapPut_ne _ (by omega) _ _ _

/-- A store in Tier 1 leaves its bytes there, in order. -/
theorem tier1Byte_t1Put_in (l : List Byte) (s : State) (a i : Nat) (h : i < l.length) : tier1Byte (t1Put s a l) (a + i) = l.getD i 0#8 := by
  induction l generalizing s a i with
  | nil => simp at h
  | cons b r ih =>
    cases i with
    | zero =>
      rw [t1Put, Nat.add_zero, tier1Byte_t1Put_out _ _ _ _ (by omega)]
      exact mapGet_mapPut_same _ _ _ _
    | succ j =>
      simp only [List.length_cons] at h
      rw [t1Put, show a + (j + 1) = a + 1 + j by omega, ih _ _ _ (by omega)]
      rfl

/-- Setting what a line holds touches no byte. -/
theorem memoryWf_setLine {s : State} (l : Nat) (v : LineSt) (h : memoryWf s = true) : memoryWf (setLine s l v) = true := h

theorem memoryWf_foldLines (v : LineSt) (l : List Nat) (s : State) (h : memoryWf s = true) :
    memoryWf (foldState (fun u k => setLine u k v) s l) = true :=
  foldState_keeps (P := fun u => memoryWf u = true) (fun _ k hu => memoryWf_setLine k v hu) l s h

theorem memoryWf_neverRange {s : State} (l n : Nat) (h : memoryWf s = true) : memoryWf (neverRange s l n) = true := by
  have h1 : memoryWf { s with t1 := mapEraseRange s.t1 (l * 64) ((l + n) * 64) } = true :=
    memoryWf_of (mapWf_mapEraseRange (memoryWf_t1 (s := s) h)) (memoryWf_t2 (s := s) h)
  unfold neverRange
  dsimp only
  split
  · exact memoryWf_foldLines _ _ _ h1
  · exact h1

theorem memoryWf_neverLine {s : State} (l : Nat) (h : memoryWf s = true) : memoryWf (neverLine s l) = true :=
  memoryWf_of (mapWf_mapEraseRange (memoryWf_t1 (s := s) h)) (memoryWf_t2 (s := s) h)

theorem memoryWf_fillStack {s : State} (st : Nat) (clean : Bool) (h : memoryWf s = true) : memoryWf (fillStack s st clean) = true :=
  memoryWf_of (mapWf_mapEraseRange (memoryWf_t1 (s := s) h)) (memoryWf_t2 (s := s) h)

theorem memoryWf_zeroT1 {s : State} (lo hi : Nat) (h : memoryWf s = true) : memoryWf (zeroT1 s lo hi) = true :=
  memoryWf_foldLines _ _ _ (memoryWf_of (mapWf_mapEraseRange (memoryWf_t1 (s := s) h)) (memoryWf_t2 (s := s) h))

/-! ## The CXL pool -/

/-- Storing bytes in the pool keeps both memories' canonical form. -/
theorem memoryWf_t2Put (l : List Byte) (s : State) (a : Nat) (h : memoryWf s = true) : memoryWf (t2Put s a l) = true := by
  induction l generalizing s a with
  | nil => exact h
  | cons b r ih => exact ih _ _ (memoryWf_of (memoryWf_t1 (s := s) h) (mapWf_mapPut rfl (memoryWf_t2 (s := s) h)))

/-- A store in the pool leaves every byte outside it alone. -/
theorem tier2Byte_t2Put_out (l : List Byte) (s : State) (a k : Nat) (h : k < a ∨ a + l.length ≤ k) : tier2Byte (t2Put s a l) k = tier2Byte s k := by
  induction l generalizing s a with
  | nil => rfl
  | cons b r ih =>
    simp only [List.length_cons] at h
    rw [t2Put, ih _ _ (by omega)]
    exact mapGet_mapPut_ne _ (by omega) _ _ _

/-- A store in the pool leaves its bytes there, in order. -/
theorem tier2Byte_t2Put_in (l : List Byte) (s : State) (a i : Nat) (h : i < l.length) : tier2Byte (t2Put s a l) (a + i) = l.getD i 0#8 := by
  induction l generalizing s a i with
  | nil => simp at h
  | cons b r ih =>
    cases i with
    | zero =>
      rw [t2Put, Nat.add_zero, tier2Byte_t2Put_out _ _ _ _ (by omega)]
      exact mapGet_mapPut_same _ _ _ _
    | succ j =>
      simp only [List.length_cons] at h
      rw [t2Put, show a + (j + 1) = a + 1 + j by omega, ih _ _ _ (by omega)]
      rfl

/-! ## Scratchpads -/

@[simp] theorem markWord_spm (x : CoreSt) (w : Nat) (p : Bool) : (markWord x w p).spm = x.spm := rfl

/-- Storing bytes in a scratchpad keeps its canonical form. -/
theorem bytesWf_putBytes (l : List (Option Byte)) (x : CoreSt) (a : Nat) (h : bytesWf x.spm = true) : bytesWf (putBytes x a l).spm = true := by
  induction l generalizing x a with
  | nil => exact h
  | cons b r ih =>
    cases b with
    | none => exact ih _ _ h
    | some b => exact ih _ _ (mapWf_mapPut rfl h)

/-- A store leaves every byte of the scratchpad outside it alone. -/
theorem spmGet_putBytes_out (l : List (Option Byte)) (x : CoreSt) (a k : Nat) (h : k < a ∨ a + l.length ≤ k) :
    spmGet (putBytes x a l) k = spmGet x k := by
  induction l generalizing x a with
  | nil => rfl
  | cons b r ih =>
    simp only [List.length_cons] at h
    cases b with
    | none => rw [putBytes, ih _ _ (by omega)]
    | some b =>
      rw [putBytes, ih _ _ (by omega)]
      exact mapGet_mapPut_ne _ (by omega) _ _ _

/-- A store leaves each byte it gives in the scratchpad, and the bytes it leaves out as they were. -/
theorem spmGet_putBytes_in (l : List (Option Byte)) (x : CoreSt) (a i : Nat) (h : i < l.length) :
    spmGet (putBytes x a l) (a + i) = (l.getD i none).getD (spmGet x (a + i)) := by
  induction l generalizing x a i with
  | nil => simp at h
  | cons b r ih =>
    simp only [List.length_cons] at h
    cases i with
    | zero =>
      rw [Nat.add_zero]
      cases b with
      | none => rw [putBytes, spmGet_putBytes_out _ _ _ _ (by omega)]; rfl
      | some b =>
        rw [putBytes, spmGet_putBytes_out _ _ _ _ (by omega)]
        exact mapGet_mapPut_same _ _ _ _
    | succ j =>
      have e : a + (j + 1) = a + 1 + j := by omega
      cases b with
      | none => rw [putBytes, e, ih _ _ _ (by omega)]; rfl
      | some b =>
        rw [putBytes, e, ih _ _ _ (by omega)]
        have : spmGet { x with spm := mapPut 0#8 x.spm a b } (a + 1 + j) = spmGet x (a + 1 + j) := mapGet_mapPut_ne _ (by omega) _ _ _
        rw [this]
        rfl

@[simp] theorem poisonAfter_spm (k : Nat) (x : CoreSt) (w : Nat) (p : Bool) (l : List (Option Byte)) : (poisonAfter x w p k l).spm = x.spm := by
  induction k generalizing x w l with
  | zero => rfl
  | succ n ih =>
    rw [poisonAfter, ih]
    split
    · rfl
    · split <;> rfl

/-- A write of a scratchpad keeps its canonical form. -/
theorem bytesWf_spmWriteMask (l : List (Option Byte)) (x : CoreSt) (a : Nat) (p : Bool) (h : bytesWf x.spm = true) :
    bytesWf (spmWriteMask x a l p).spm = true := by
  rw [spmWriteMask, poisonAfter_spm]
  exact bytesWf_putBytes l x a h

theorem bytesWf_spmWrite (l : List Byte) (x : CoreSt) (a : Nat) (p : Bool) (h : bytesWf x.spm = true) : bytesWf (spmWrite x a l p).spm = true :=
  bytesWf_spmWriteMask _ x a p h

/-- A write of a scratchpad leaves every byte outside it alone. -/
theorem spmGet_spmWriteMask_out (l : List (Option Byte)) (x : CoreSt) (a k : Nat) (p : Bool) (h : k < a ∨ a + l.length ≤ k) :
    spmGet (spmWriteMask x a l p) k = spmGet x k := by
  rw [spmGet, spmWriteMask, poisonAfter_spm]
  exact spmGet_putBytes_out l x a k h

/-- A write of a scratchpad leaves each byte it gives there. -/
theorem spmGet_spmWriteMask_in (l : List (Option Byte)) (x : CoreSt) (a i : Nat) (p : Bool) (h : i < l.length) :
    spmGet (spmWriteMask x a l p) (a + i) = (l.getD i none).getD (spmGet x (a + i)) := by
  rw [spmGet, spmWriteMask, poisonAfter_spm]
  exact spmGet_putBytes_in l x a i h

theorem bytesWf_spmZero (x : CoreSt) (lo hi : Nat) (h : bytesWf x.spm = true) : bytesWf (spmZero x lo hi).spm = true := mapWf_mapEraseRange h

/-- A byte of a zeroed range reads zero, and every other byte as before. -/
theorem spmGet_spmZero (x : CoreSt) (lo hi k : Nat) : spmGet (spmZero x lo hi) k = if lo ≤ k ∧ k < hi then 0#8 else spmGet x k :=
  mapGet_mapEraseRange _ _ _ _ _

theorem bytesWf_fillOne (cyc : Nat) (x : CoreSt) (f : Fill) (h : bytesWf x.spm = true) : bytesWf (fillOne cyc x f).spm = true := by
  unfold fillOne
  dsimp only
  split
  · exact bytesWf_spmZero x _ _ h
  · exact h

theorem bytesWf_applyMirrored (x : CoreSt) (w : MirrorWrite) (h : bytesWf x.spm = true) : bytesWf (applyMirrored x w).spm = true := by
  have h1 : bytesWf (foldState (fun (u : CoreSt) (b : Nat × Byte) => { u with spm := mapPut 0#8 u.spm b.1 b.2 }) x w.bytes).spm = true :=
    foldState_keeps (P := fun u : CoreSt => bytesWf u.spm = true) (fun _ _ hu => mapWf_mapPut rfl hu) _ _ h
  exact foldState_keeps (P := fun u : CoreSt => bytesWf u.spm = true) (f := fun (u : CoreSt) (m : Nat × Bool) => markWord u m.1 m.2)
    (fun _ _ hu => hu) w.marks _ h1

/-- Fills and mirrored writes keep the canonical form. -/
theorem bytesWf_fillTo (x : CoreSt) (cyc : Nat) (h : bytesWf x.spm = true) : bytesWf (fillTo x cyc).spm = true := by
  unfold fillTo
  dsimp only
  refine foldState_keeps (P := fun u : CoreSt => bytesWf u.spm = true) (fun u m hu => bytesWf_applyMirrored u m hu) _ _ ?_
  exact foldState_keeps (P := fun u : CoreSt => bytesWf u.spm = true) (fun u f hu => bytesWf_fillOne cyc u f hu) _ _ h

/-! ## All scratchpads of a state -/

theorem all_mapSet {α : Type} {q : α → Bool} (m : Map α) (k : Nat) (v : α) (hv : q v = true) (h : (m.all fun p => q p.2) = true) :
    ((mapSet m k v).all fun p => q p.2) = true := by
  induction m with
  | nil => simp [mapSet, hv]
  | cons p r ih =>
    simp only [List.all_cons, Bool.and_eq_true] at h
    unfold mapSet
    split
    · simp only [List.all_cons, Bool.and_eq_true]; exact ⟨hv, h.2⟩
    · split
      · simp only [List.all_cons, Bool.and_eq_true]; exact ⟨hv, h⟩
      · simp only [List.all_cons, Bool.and_eq_true]; exact ⟨h.1, ih h.2⟩

theorem all_mapErase {α : Type} {q : α → Bool} (m : Map α) (k : Nat) (h : (m.all fun p => q p.2) = true) :
    ((mapErase m k).all fun p => q p.2) = true := by
  induction m with
  | nil => rfl
  | cons p r ih =>
    simp only [List.all_cons, Bool.and_eq_true] at h
    unfold mapErase
    split
    · exact ih h.2
    · simp only [List.all_cons, Bool.and_eq_true]; exact ⟨h.1, ih h.2⟩

theorem all_mapPut {α : Type} [DecidableEq α] {q : α → Bool} (m : Map α) (d : α) (k : Nat) (v : α) (hv : q v = true)
    (h : (m.all fun p => q p.2) = true) : ((mapPut d m k v).all fun p => q p.2) = true := by
  unfold mapPut
  split
  · exact all_mapErase m k h
  · exact all_mapSet m k v hv h

theorem all_mapGet {α : Type} {q : α → Bool} (m : Map α) (k : Nat) (d : α) (hd : q d = true) (h : (m.all fun p => q p.2) = true) :
    q (mapGet m k d) = true := by
  induction m with
  | nil => exact hd
  | cons p r ih =>
    simp only [List.all_cons, Bool.and_eq_true] at h
    unfold mapGet
    split
    · exact h.1
    · exact ih h.2

/-- A core of a state whose scratchpads are in canonical form has one in canonical form. -/
theorem bytesWf_core {s : State} (c : Nat) (h : scratchpadsWf s = true) : bytesWf (core s c).spm = true :=
  all_mapGet (q := fun x : CoreSt => bytesWf x.spm) s.cores c CoreSt.reset rfl h

/-- Replacing a core by one whose scratchpad is in canonical form keeps the canonical form of all. -/
theorem scratchpadsWf_putCore {s : State} (c : Nat) (x : CoreSt) (h : scratchpadsWf s = true) (hx : bytesWf x.spm = true) :
    scratchpadsWf (putCore s c x) = true := by
  have hn : bytesWf (noteWrite s.now (core s c) x).spm = true := by
    unfold noteWrite
    split <;> exact hx
  have h1 : scratchpadsWf { s with cores := mapPut CoreSt.reset s.cores c (noteWrite s.now (core s c) x) } = true :=
    all_mapPut (q := fun x : CoreSt => bytesWf x.spm) s.cores _ c _ hn h
  unfold putCore
  dsimp only
  split
  · exact h1
  · split
    · exact h1
    · exact all_mapPut (q := fun x : CoreSt => bytesWf x.spm) _ _ _ _ (bytesWf_core (s := { s with cores := mapPut CoreSt.reset s.cores c (noteWrite s.now (core s c) x) }) _ h1) h1

/-- Every scratchpad is in canonical form after reset. -/
theorem scratchpadsWf_reset : scratchpadsWf State.reset = true := rfl

end Sys2Proof.Machine
end

