-- ==== Sys2Proof/Laws/State.lean ====
section
/-!
SUPPORT. Sys2Proof/Laws/State.lean: for each named update of the state, what each field reads afterwards: one lemma per field per update, true by
unfolding the update.
-/
namespace Sys2Proof.Machine

variable (s : State)

/-! ## advance -/

section
variable (t : Time)

@[simp] theorem advance_now : (advance s t).now = max s.now t := rfl
@[simp] theorem advance_pending : (advance s t).pending = s.pending := rfl
@[simp] theorem advance_fresh : (advance s t).fresh = s.fresh := rfl
@[simp] theorem advance_lastRead : (advance s t).lastRead = s.lastRead := rfl
@[simp] theorem advance_lastBytes : (advance s t).lastBytes = s.lastBytes := rfl
@[simp] theorem advance_lastResp : (advance s t).lastResp = s.lastResp := rfl
@[simp] theorem advance_lastSent : (advance s t).lastSent = s.lastSent := rfl
@[simp] theorem advance_lastPort : (advance s t).lastPort = s.lastPort := rfl
@[simp] theorem advance_lastNote : (advance s t).lastNote = s.lastNote := rfl
@[simp] theorem advance_regs : (advance s t).regs = s.regs := rfl
@[simp] theorem advance_cnt : (advance s t).cnt = s.cnt := rfl
@[simp] theorem advance_cntLatch : (advance s t).cntLatch = s.cntLatch := rfl
@[simp] theorem advance_trans : (advance s t).trans = s.trans := rfl
@[simp] theorem advance_softWait : (advance s t).softWait = s.softWait := rfl
@[simp] theorem advance_armT : (advance s t).armT = s.armT := rfl
@[simp] theorem advance_shadow : (advance s t).shadow = s.shadow := rfl
@[simp] theorem advance_service : (advance s t).service = s.service := rfl
@[simp] theorem advance_rails : (advance s t).rails = s.rails := rfl
@[simp] theorem advance_dieReset : (advance s t).dieReset = s.dieReset := rfl
@[simp] theorem advance_meshOff : (advance s t).meshOff = s.meshOff := rfl
@[simp] theorem advance_accruals : (advance s t).accruals = s.accruals := rfl
@[simp] theorem advance_memGates : (advance s t).memGates = s.memGates := rfl
@[simp] theorem advance_upAt : (advance s t).upAt = s.upAt := rfl
@[simp] theorem advance_bench : (advance s t).bench = s.bench := rfl
@[simp] theorem advance_slice : (advance s t).slice = s.slice := rfl
@[simp] theorem advance_ny : (advance s t).ny = s.ny := rfl
@[simp] theorem advance_nz : (advance s t).nz = s.nz := rfl
@[simp] theorem advance_cores : (advance s t).cores = s.cores := rfl
@[simp] theorem advance_routers : (advance s t).routers = s.routers := rfl
@[simp] theorem advance_frs : (advance s t).frs = s.frs := rfl
@[simp] theorem advance_t1 : (advance s t).t1 = s.t1 := rfl
@[simp] theorem advance_t1line : (advance s t).t1line = s.t1line := rfl
@[simp] theorem advance_t1clean : (advance s t).t1clean = s.t1clean := rfl
@[simp] theorem advance_t2 : (advance s t).t2 = s.t2 := rfl
@[simp] theorem advance_t2bad : (advance s t).t2bad = s.t2bad := rfl
@[simp] theorem advance_mbc : (advance s t).mbc = s.mbc := rfl
@[simp] theorem advance_rowsUsed : (advance s t).rowsUsed = s.rowsUsed := rfl
@[simp] theorem advance_badRows : (advance s t).badRows = s.badRows := rfl
@[simp] theorem advance_badDies : (advance s t).badDies = s.badDies := rfl
@[simp] theorem advance_homeQ : (advance s t).homeQ = s.homeQ := rfl
@[simp] theorem advance_mover : (advance s t).mover = s.mover := rfl
@[simp] theorem advance_ports : (advance s t).ports = s.ports := rfl
@[simp] theorem advance_retained : (advance s t).retained = s.retained := rfl
@[simp] theorem advance_cab : (advance s t).cab = s.cab := rfl
@[simp] theorem advance_cabNext : (advance s t).cabNext = s.cabNext := rfl
@[simp] theorem advance_svnFloor : (advance s t).svnFloor = s.svnFloor := rfl
@[simp] theorem advance_plan : (advance s t).plan = s.plan := rfl
@[simp] theorem advance_planNext : (advance s t).planNext = s.planNext := rfl
@[simp] theorem advance_nwKept : (advance s t).nwKept = s.nwKept := rfl
@[simp] theorem advance_container : (advance s t).container = s.container := rfl
@[simp] theorem advance_power : (advance s t).power = s.power := rfl
@[simp] theorem advance_smap : (advance s t).smap = s.smap := rfl
@[simp] theorem advance_droop : (advance s t).droop = s.droop := rfl
@[simp] theorem advance_memUnits : (advance s t).memUnits = s.memUnits := rfl
@[simp] theorem advance_departing : (advance s t).departing = s.departing := rfl
@[simp] theorem advance_host : (advance s t).host = s.host := rfl
@[simp] theorem advance_trackers : (advance s t).trackers = s.trackers := rfl
@[simp] theorem advance_serv : (advance s t).serv = s.serv := rfl
@[simp] theorem advance_loader : (advance s t).loader = s.loader := rfl
@[simp] theorem advance_start : (advance s t).start = s.start := rfl
@[simp] theorem advance_bst : (advance s t).bst = s.bst := rfl
@[simp] theorem advance_fo : (advance s t).fo = s.fo := rfl
@[simp] theorem advance_gop : (advance s t).gop = s.gop := rfl
@[simp] theorem advance_sec : (advance s t).sec = s.sec := rfl
@[simp] theorem advance_trc : (advance s t).trc = s.trc := rfl
@[simp] theorem advance_marks : (advance s t).marks = s.marks := rfl

end

/-! ## putReg -/

section
variable (k : Nat) (v : Word)

@[simp] theorem putReg_now : (putReg s k v).now = s.now := rfl
@[simp] theorem putReg_pending : (putReg s k v).pending = s.pending := rfl
@[simp] theorem putReg_fresh : (putReg s k v).fresh = s.fresh := rfl
@[simp] theorem putReg_lastRead : (putReg s k v).lastRead = s.lastRead := rfl
@[simp] theorem putReg_lastBytes : (putReg s k v).lastBytes = s.lastBytes := rfl
@[simp] theorem putReg_lastResp : (putReg s k v).lastResp = s.lastResp := rfl
@[simp] theorem putReg_lastSent : (putReg s k v).lastSent = s.lastSent := rfl
@[simp] theorem putReg_lastPort : (putReg s k v).lastPort = s.lastPort := rfl
@[simp] theorem putReg_lastNote : (putReg s k v).lastNote = s.lastNote := rfl
@[simp] theorem putReg_regs : (putReg s k v).regs = mapPut (regReset s.bench k) s.regs k v := rfl
@[simp] theorem putReg_cnt : (putReg s k v).cnt = s.cnt := rfl
@[simp] theorem putReg_cntLatch : (putReg s k v).cntLatch = s.cntLatch := rfl
@[simp] theorem putReg_trans : (putReg s k v).trans = s.trans := rfl
@[simp] theorem putReg_softWait : (putReg s k v).softWait = s.softWait := rfl
@[simp] theorem putReg_armT : (putReg s k v).armT = s.armT := rfl
@[simp] theorem putReg_shadow : (putReg s k v).shadow = s.shadow := rfl
@[simp] theorem putReg_service : (putReg s k v).service = s.service := rfl
@[simp] theorem putReg_rails : (putReg s k v).rails = s.rails := rfl
@[simp] theorem putReg_dieReset : (putReg s k v).dieReset = s.dieReset := rfl
@[simp] theorem putReg_meshOff : (putReg s k v).meshOff = s.meshOff := rfl
@[simp] theorem putReg_accruals : (putReg s k v).accruals = s.accruals := rfl
@[simp] theorem putReg_memGates : (putReg s k v).memGates = s.memGates := rfl
@[simp] theorem putReg_upAt : (putReg s k v).upAt = s.upAt := rfl
@[simp] theorem putReg_bench : (putReg s k v).bench = s.bench := rfl
@[simp] theorem putReg_slice : (putReg s k v).slice = s.slice := rfl
@[simp] theorem putReg_ny : (putReg s k v).ny = s.ny := rfl
@[simp] theorem putReg_nz : (putReg s k v).nz = s.nz := rfl
@[simp] theorem putReg_cores : (putReg s k v).cores = s.cores := rfl
@[simp] theorem putReg_routers : (putReg s k v).routers = s.routers := rfl
@[simp] theorem putReg_frs : (putReg s k v).frs = s.frs := rfl
@[simp] theorem putReg_t1 : (putReg s k v).t1 = s.t1 := rfl
@[simp] theorem putReg_t1line : (putReg s k v).t1line = s.t1line := rfl
@[simp] theorem putReg_t1clean : (putReg s k v).t1clean = s.t1clean := rfl
@[simp] theorem putReg_t2 : (putReg s k v).t2 = s.t2 := rfl
@[simp] theorem putReg_t2bad : (putReg s k v).t2bad = s.t2bad := rfl
@[simp] theorem putReg_mbc : (putReg s k v).mbc = s.mbc := rfl
@[simp] theorem putReg_rowsUsed : (putReg s k v).rowsUsed = s.rowsUsed := rfl
@[simp] theorem putReg_badRows : (putReg s k v).badRows = s.badRows := rfl
@[simp] theorem putReg_badDies : (putReg s k v).badDies = s.badDies := rfl
@[simp] theorem putReg_homeQ : (putReg s k v).homeQ = s.homeQ := rfl
@[simp] theorem putReg_mover : (putReg s k v).mover = s.mover := rfl
@[simp] theorem putReg_ports : (putReg s k v).ports = s.ports := rfl
@[simp] theorem putReg_retained : (putReg s k v).retained = s.retained := rfl
@[simp] theorem putReg_cab : (putReg s k v).cab = s.cab := rfl
@[simp] theorem putReg_cabNext : (putReg s k v).cabNext = s.cabNext := rfl
@[simp] theorem putReg_svnFloor : (putReg s k v).svnFloor = s.svnFloor := rfl
@[simp] theorem putReg_plan : (putReg s k v).plan = s.plan := rfl
@[simp] theorem putReg_planNext : (putReg s k v).planNext = s.planNext := rfl
@[simp] theorem putReg_nwKept : (putReg s k v).nwKept = s.nwKept := rfl
@[simp] theorem putReg_container : (putReg s k v).container = s.container := rfl
@[simp] theorem putReg_power : (putReg s k v).power = s.power := rfl
@[simp] theorem putReg_smap : (putReg s k v).smap = s.smap := rfl
@[simp] theorem putReg_droop : (putReg s k v).droop = s.droop := rfl
@[simp] theorem putReg_memUnits : (putReg s k v).memUnits = s.memUnits := rfl
@[simp] theorem putReg_departing : (putReg s k v).departing = s.departing := rfl
@[simp] theorem putReg_host : (putReg s k v).host = s.host := rfl
@[simp] theorem putReg_trackers : (putReg s k v).trackers = s.trackers := rfl
@[simp] theorem putReg_serv : (putReg s k v).serv = s.serv := rfl
@[simp] theorem putReg_loader : (putReg s k v).loader = s.loader := rfl
@[simp] theorem putReg_start : (putReg s k v).start = s.start := rfl
@[simp] theorem putReg_bst : (putReg s k v).bst = s.bst := rfl
@[simp] theorem putReg_fo : (putReg s k v).fo = s.fo := rfl
@[simp] theorem putReg_gop : (putReg s k v).gop = s.gop := rfl
@[simp] theorem putReg_sec : (putReg s k v).sec = s.sec := rfl
@[simp] theorem putReg_trc : (putReg s k v).trc = s.trc := rfl
@[simp] theorem putReg_marks : (putReg s k v).marks = s.marks := rfl

end

/-! ## setReg -/

section
variable (die page off : Nat) (v : Word)

@[simp] theorem setReg_now : (setReg s die page off v).now = s.now := putReg_now s _ v
@[simp] theorem setReg_pending : (setReg s die page off v).pending = s.pending := putReg_pending s _ v
@[simp] theorem setReg_fresh : (setReg s die page off v).fresh = s.fresh := putReg_fresh s _ v
@[simp] theorem setReg_lastRead : (setReg s die page off v).lastRead = s.lastRead := putReg_lastRead s _ v
@[simp] theorem setReg_lastBytes : (setReg s die page off v).lastBytes = s.lastBytes := putReg_lastBytes s _ v
@[simp] theorem setReg_lastResp : (setReg s die page off v).lastResp = s.lastResp := putReg_lastResp s _ v
@[simp] theorem setReg_lastSent : (setReg s die page off v).lastSent = s.lastSent := putReg_lastSent s _ v
@[simp] theorem setReg_lastPort : (setReg s die page off v).lastPort = s.lastPort := putReg_lastPort s _ v
@[simp] theorem setReg_lastNote : (setReg s die page off v).lastNote = s.lastNote := putReg_lastNote s _ v
@[simp] theorem setReg_cnt : (setReg s die page off v).cnt = s.cnt := putReg_cnt s _ v
@[simp] theorem setReg_cntLatch : (setReg s die page off v).cntLatch = s.cntLatch := putReg_cntLatch s _ v
@[simp] theorem setReg_trans : (setReg s die page off v).trans = s.trans := putReg_trans s _ v
@[simp] theorem setReg_softWait : (setReg s die page off v).softWait = s.softWait := putReg_softWait s _ v
@[simp] theorem setReg_armT : (setReg s die page off v).armT = s.armT := putReg_armT s _ v
@[simp] theorem setReg_shadow : (setReg s die page off v).shadow = s.shadow := putReg_shadow s _ v
@[simp] theorem setReg_service : (setReg s die page off v).service = s.service := putReg_service s _ v
@[simp] theorem setReg_rails : (setReg s die page off v).rails = s.rails := putReg_rails s _ v
@[simp] theorem setReg_dieReset : (setReg s die page off v).dieReset = s.dieReset := putReg_dieReset s _ v
@[simp] theorem setReg_meshOff : (setReg s die page off v).meshOff = s.meshOff := putReg_meshOff s _ v
@[simp] theorem setReg_accruals : (setReg s die page off v).accruals = s.accruals := putReg_accruals s _ v
@[simp] theorem setReg_memGates : (setReg s die page off v).memGates = s.memGates := putReg_memGates s _ v
@[simp] theorem setReg_upAt : (setReg s die page off v).upAt = s.upAt := putReg_upAt s _ v
@[simp] theorem setReg_bench : (setReg s die page off v).bench = s.bench := putReg_bench s _ v
@[simp] theorem setReg_slice : (setReg s die page off v).slice = s.slice := putReg_slice s _ v
@[simp] theorem setReg_ny : (setReg s die page off v).ny = s.ny := putReg_ny s _ v
@[simp] theorem setReg_nz : (setReg s die page off v).nz = s.nz := putReg_nz s _ v
@[simp] theorem setReg_cores : (setReg s die page off v).cores = s.cores := putReg_cores s _ v
@[simp] theorem setReg_routers : (setReg s die page off v).routers = s.routers := putReg_routers s _ v
@[simp] theorem setReg_frs : (setReg s die page off v).frs = s.frs := putReg_frs s _ v
@[simp] theorem setReg_t1 : (setReg s die page off v).t1 = s.t1 := putReg_t1 s _ v
@[simp] theorem setReg_t1line : (setReg s die page off v).t1line = s.t1line := putReg_t1line s _ v
@[simp] theorem setReg_t1clean : (setReg s die page off v).t1clean = s.t1clean := putReg_t1clean s _ v
@[simp] theorem setReg_t2 : (setReg s die page off v).t2 = s.t2 := putReg_t2 s _ v
@[simp] theorem setReg_t2bad : (setReg s die page off v).t2bad = s.t2bad := putReg_t2bad s _ v
@[simp] theorem setReg_mbc : (setReg s die page off v).mbc = s.mbc := putReg_mbc s _ v
@[simp] theorem setReg_rowsUsed : (setReg s die page off v).rowsUsed = s.rowsUsed := putReg_rowsUsed s _ v
@[simp] theorem setReg_badRows : (setReg s die page off v).badRows = s.badRows := putReg_badRows s _ v
@[simp] theorem setReg_badDies : (setReg s die page off v).badDies = s.badDies := putReg_badDies s _ v
@[simp] theorem setReg_homeQ : (setReg s die page off v).homeQ = s.homeQ := putReg_homeQ s _ v
@[simp] theorem setReg_mover : (setReg s die page off v).mover = s.mover := putReg_mover s _ v
@[simp] theorem setReg_ports : (setReg s die page off v).ports = s.ports := putReg_ports s _ v
@[simp] theorem setReg_retained : (setReg s die page off v).retained = s.retained := putReg_retained s _ v
@[simp] theorem setReg_cab : (setReg s die page off v).cab = s.cab := putReg_cab s _ v
@[simp] theorem setReg_cabNext : (setReg s die page off v).cabNext = s.cabNext := putReg_cabNext s _ v
@[simp] theorem setReg_svnFloor : (setReg s die page off v).svnFloor = s.svnFloor := putReg_svnFloor s _ v
@[simp] theorem setReg_plan : (setReg s die page off v).plan = s.plan := putReg_plan s _ v
@[simp] theorem setReg_planNext : (setReg s die page off v).planNext = s.planNext := putReg_planNext s _ v
@[simp] theorem setReg_nwKept : (setReg s die page off v).nwKept = s.nwKept := putReg_nwKept s _ v
@[simp] theorem setReg_container : (setReg s die page off v).container = s.container := putReg_container s _ v
@[simp] theorem setReg_power : (setReg s die page off v).power = s.power := putReg_power s _ v
@[simp] theorem setReg_smap : (setReg s die page off v).smap = s.smap := putReg_smap s _ v
@[simp] theorem setReg_droop : (setReg s die page off v).droop = s.droop := putReg_droop s _ v
@[simp] theorem setReg_memUnits : (setReg s die page off v).memUnits = s.memUnits := putReg_memUnits s _ v
@[simp] theorem setReg_departing : (setReg s die page off v).departing = s.departing := putReg_departing s _ v
@[simp] theorem setReg_host : (setReg s die page off v).host = s.host := putReg_host s _ v
@[simp] theorem setReg_trackers : (setReg s die page off v).trackers = s.trackers := putReg_trackers s _ v
@[simp] theorem setReg_serv : (setReg s die page off v).serv = s.serv := putReg_serv s _ v
@[simp] theorem setReg_loader : (setReg s die page off v).loader = s.loader := putReg_loader s _ v
@[simp] theorem setReg_start : (setReg s die page off v).start = s.start := putReg_start s _ v
@[simp] theorem setReg_bst : (setReg s die page off v).bst = s.bst := putReg_bst s _ v
@[simp] theorem setReg_fo : (setReg s die page off v).fo = s.fo := putReg_fo s _ v
@[simp] theorem setReg_gop : (setReg s die page off v).gop = s.gop := putReg_gop s _ v
@[simp] theorem setReg_sec : (setReg s die page off v).sec = s.sec := putReg_sec s _ v
@[simp] theorem setReg_trc : (setReg s die page off v).trc = s.trc := putReg_trc s _ v
@[simp] theorem setReg_marks : (setReg s die page off v).marks = s.marks := putReg_marks s _ v

end

/-! ## setRegFld -/

section
variable (die page off lo n v : Nat)

@[simp] theorem setRegFld_now : (setRegFld s die page off lo n v).now = s.now := setReg_now s die page off _
@[simp] theorem setRegFld_pending : (setRegFld s die page off lo n v).pending = s.pending := setReg_pending s die page off _
@[simp] theorem setRegFld_fresh : (setRegFld s die page off lo n v).fresh = s.fresh := setReg_fresh s die page off _
@[simp] theorem setRegFld_lastRead : (setRegFld s die page off lo n v).lastRead = s.lastRead := setReg_lastRead s die page off _
@[simp] theorem setRegFld_lastBytes : (setRegFld s die page off lo n v).lastBytes = s.lastBytes := setReg_lastBytes s die page off _
@[simp] theorem setRegFld_lastResp : (setRegFld s die page off lo n v).lastResp = s.lastResp := setReg_lastResp s die page off _
@[simp] theorem setRegFld_lastSent : (setRegFld s die page off lo n v).lastSent = s.lastSent := setReg_lastSent s die page off _
@[simp] theorem setRegFld_lastPort : (setRegFld s die page off lo n v).lastPort = s.lastPort := setReg_lastPort s die page off _
@[simp] theorem setRegFld_lastNote : (setRegFld s die page off lo n v).lastNote = s.lastNote := setReg_lastNote s die page off _
@[simp] theorem setRegFld_cnt : (setRegFld s die page off lo n v).cnt = s.cnt := setReg_cnt s die page off _
@[simp] theorem setRegFld_cntLatch : (setRegFld s die page off lo n v).cntLatch = s.cntLatch := setReg_cntLatch s die page off _
@[simp] theorem setRegFld_trans : (setRegFld s die page off lo n v).trans = s.trans := setReg_trans s die page off _
@[simp] theorem setRegFld_softWait : (setRegFld s die page off lo n v).softWait = s.softWait := setReg_softWait s die page off _
@[simp] theorem setRegFld_armT : (setRegFld s die page off lo n v).armT = s.armT := setReg_armT s die page off _
@[simp] theorem setRegFld_shadow : (setRegFld s die page off lo n v).shadow = s.shadow := setReg_shadow s die page off _
@[simp] theorem setRegFld_service : (setRegFld s die page off lo n v).service = s.service := setReg_service s die page off _
@[simp] theorem setRegFld_rails : (setRegFld s die page off lo n v).rails = s.rails := setReg_rails s die page off _
@[simp] theorem setRegFld_dieReset : (setRegFld s die page off lo n v).dieReset = s.dieReset := setReg_dieReset s die page off _
@[simp] theorem setRegFld_meshOff : (setRegFld s die page off lo n v).meshOff = s.meshOff := setReg_meshOff s die page off _
@[simp] theorem setRegFld_accruals : (setRegFld s die page off lo n v).accruals = s.accruals := setReg_accruals s die page off _
@[simp] theorem setRegFld_memGates : (setRegFld s die page off lo n v).memGates = s.memGates := setReg_memGates s die page off _
@[simp] theorem setRegFld_upAt : (setRegFld s die page off lo n v).upAt = s.upAt := setReg_upAt s die page off _
@[simp] theorem setRegFld_bench : (setRegFld s die page off lo n v).bench = s.bench := setReg_bench s die page off _
@[simp] theorem setRegFld_slice : (setRegFld s die page off lo n v).slice = s.slice := setReg_slice s die page off _
@[simp] theorem setRegFld_ny : (setRegFld s die page off lo n v).ny = s.ny := setReg_ny s die page off _
@[simp] theorem setRegFld_nz : (setRegFld s die page off lo n v).nz = s.nz := setReg_nz s die page off _
@[simp] theorem setRegFld_cores : (setRegFld s die page off lo n v).cores = s.cores := setReg_cores s die page off _
@[simp] theorem setRegFld_routers : (setRegFld s die page off lo n v).routers = s.routers := setReg_routers s die page off _
@[simp] theorem setRegFld_frs : (setRegFld s die page off lo n v).frs = s.frs := setReg_frs s die page off _
@[simp] theorem setRegFld_t1 : (setRegFld s die page off lo n v).t1 = s.t1 := setReg_t1 s die page off _
@[simp] theorem setRegFld_t1line : (setRegFld s die page off lo n v).t1line = s.t1line := setReg_t1line s die page off _
@[simp] theorem setRegFld_t1clean : (setRegFld s die page off lo n v).t1clean = s.t1clean := setReg_t1clean s die page off _
@[simp] theorem setRegFld_t2 : (setRegFld s die page off lo n v).t2 = s.t2 := setReg_t2 s die page off _
@[simp] theorem setRegFld_t2bad : (setRegFld s die page off lo n v).t2bad = s.t2bad := setReg_t2bad s die page off _
@[simp] theorem setRegFld_mbc : (setRegFld s die page off lo n v).mbc = s.mbc := setReg_mbc s die page off _
@[simp] theorem setRegFld_rowsUsed : (setRegFld s die page off lo n v).rowsUsed = s.rowsUsed := setReg_rowsUsed s die page off _
@[simp] theorem setRegFld_badRows : (setRegFld s die page off lo n v).badRows = s.badRows := setReg_badRows s die page off _
@[simp] theorem setRegFld_badDies : (setRegFld s die page off lo n v).badDies = s.badDies := setReg_badDies s die page off _
@[simp] theorem setRegFld_homeQ : (setRegFld s die page off lo n v).homeQ = s.homeQ := setReg_homeQ s die page off _
@[simp] theorem setRegFld_mover : (setRegFld s die page off lo n v).mover = s.mover := setReg_mover s die page off _
@[simp] theorem setRegFld_ports : (setRegFld s die page off lo n v).ports = s.ports := setReg_ports s die page off _
@[simp] theorem setRegFld_retained : (setRegFld s die page off lo n v).retained = s.retained := setReg_retained s die page off _
@[simp] theorem setRegFld_cab : (setRegFld s die page off lo n v).cab = s.cab := setReg_cab s die page off _
@[simp] theorem setRegFld_cabNext : (setRegFld s die page off lo n v).cabNext = s.cabNext := setReg_cabNext s die page off _
@[simp] theorem setRegFld_svnFloor : (setRegFld s die page off lo n v).svnFloor = s.svnFloor := setReg_svnFloor s die page off _
@[simp] theorem setRegFld_plan : (setRegFld s die page off lo n v).plan = s.plan := setReg_plan s die page off _
@[simp] theorem setRegFld_planNext : (setRegFld s die page off lo n v).planNext = s.planNext := setReg_planNext s die page off _
@[simp] theorem setRegFld_nwKept : (setRegFld s die page off lo n v).nwKept = s.nwKept := setReg_nwKept s die page off _
@[simp] theorem setRegFld_container : (setRegFld s die page off lo n v).container = s.container := setReg_container s die page off _
@[simp] theorem setRegFld_power : (setRegFld s die page off lo n v).power = s.power := setReg_power s die page off _
@[simp] theorem setRegFld_smap : (setRegFld s die page off lo n v).smap = s.smap := setReg_smap s die page off _
@[simp] theorem setRegFld_droop : (setRegFld s die page off lo n v).droop = s.droop := setReg_droop s die page off _
@[simp] theorem setRegFld_memUnits : (setRegFld s die page off lo n v).memUnits = s.memUnits := setReg_memUnits s die page off _
@[simp] theorem setRegFld_departing : (setRegFld s die page off lo n v).departing = s.departing := setReg_departing s die page off _
@[simp] theorem setRegFld_host : (setRegFld s die page off lo n v).host = s.host := setReg_host s die page off _
@[simp] theorem setRegFld_trackers : (setRegFld s die page off lo n v).trackers = s.trackers := setReg_trackers s die page off _
@[simp] theorem setRegFld_serv : (setRegFld s die page off lo n v).serv = s.serv := setReg_serv s die page off _
@[simp] theorem setRegFld_loader : (setRegFld s die page off lo n v).loader = s.loader := setReg_loader s die page off _
@[simp] theorem setRegFld_start : (setRegFld s die page off lo n v).start = s.start := setReg_start s die page off _
@[simp] theorem setRegFld_bst : (setRegFld s die page off lo n v).bst = s.bst := setReg_bst s die page off _
@[simp] theorem setRegFld_fo : (setRegFld s die page off lo n v).fo = s.fo := setReg_fo s die page off _
@[simp] theorem setRegFld_gop : (setRegFld s die page off lo n v).gop = s.gop := setReg_gop s die page off _
@[simp] theorem setRegFld_sec : (setRegFld s die page off lo n v).sec = s.sec := setReg_sec s die page off _
@[simp] theorem setRegFld_trc : (setRegFld s die page off lo n v).trc = s.trc := setReg_trc s die page off _
@[simp] theorem setRegFld_marks : (setRegFld s die page off lo n v).marks = s.marks := setReg_marks s die page off _

end

/-! ## putMark -/

section
variable (die page : Nat) (m : PageMark)

@[simp] theorem putMark_now : (putMark s die page m).now = s.now := rfl
@[simp] theorem putMark_pending : (putMark s die page m).pending = s.pending := rfl
@[simp] theorem putMark_fresh : (putMark s die page m).fresh = s.fresh := rfl
@[simp] theorem putMark_lastRead : (putMark s die page m).lastRead = s.lastRead := rfl
@[simp] theorem putMark_lastBytes : (putMark s die page m).lastBytes = s.lastBytes := rfl
@[simp] theorem putMark_lastResp : (putMark s die page m).lastResp = s.lastResp := rfl
@[simp] theorem putMark_lastSent : (putMark s die page m).lastSent = s.lastSent := rfl
@[simp] theorem putMark_lastPort : (putMark s die page m).lastPort = s.lastPort := rfl
@[simp] theorem putMark_lastNote : (putMark s die page m).lastNote = s.lastNote := rfl
@[simp] theorem putMark_regs : (putMark s die page m).regs = s.regs := rfl
@[simp] theorem putMark_cnt : (putMark s die page m).cnt = s.cnt := rfl
@[simp] theorem putMark_cntLatch : (putMark s die page m).cntLatch = s.cntLatch := rfl
@[simp] theorem putMark_trans : (putMark s die page m).trans = s.trans := rfl
@[simp] theorem putMark_softWait : (putMark s die page m).softWait = s.softWait := rfl
@[simp] theorem putMark_armT : (putMark s die page m).armT = s.armT := rfl
@[simp] theorem putMark_shadow : (putMark s die page m).shadow = s.shadow := rfl
@[simp] theorem putMark_service : (putMark s die page m).service = s.service := rfl
@[simp] theorem putMark_rails : (putMark s die page m).rails = s.rails := rfl
@[simp] theorem putMark_dieReset : (putMark s die page m).dieReset = s.dieReset := rfl
@[simp] theorem putMark_meshOff : (putMark s die page m).meshOff = s.meshOff := rfl
@[simp] theorem putMark_accruals : (putMark s die page m).accruals = s.accruals := rfl
@[simp] theorem putMark_memGates : (putMark s die page m).memGates = s.memGates := rfl
@[simp] theorem putMark_upAt : (putMark s die page m).upAt = s.upAt := rfl
@[simp] theorem putMark_bench : (putMark s die page m).bench = s.bench := rfl
@[simp] theorem putMark_slice : (putMark s die page m).slice = s.slice := rfl
@[simp] theorem putMark_ny : (putMark s die page m).ny = s.ny := rfl
@[simp] theorem putMark_nz : (putMark s die page m).nz = s.nz := rfl
@[simp] theorem putMark_cores : (putMark s die page m).cores = s.cores := rfl
@[simp] theorem putMark_routers : (putMark s die page m).routers = s.routers := rfl
@[simp] theorem putMark_frs : (putMark s die page m).frs = s.frs := rfl
@[simp] theorem putMark_t1 : (putMark s die page m).t1 = s.t1 := rfl
@[simp] theorem putMark_t1line : (putMark s die page m).t1line = s.t1line := rfl
@[simp] theorem putMark_t1clean : (putMark s die page m).t1clean = s.t1clean := rfl
@[simp] theorem putMark_t2 : (putMark s die page m).t2 = s.t2 := rfl
@[simp] theorem putMark_t2bad : (putMark s die page m).t2bad = s.t2bad := rfl
@[simp] theorem putMark_mbc : (putMark s die page m).mbc = s.mbc := rfl
@[simp] theorem putMark_rowsUsed : (putMark s die page m).rowsUsed = s.rowsUsed := rfl
@[simp] theorem putMark_badRows : (putMark s die page m).badRows = s.badRows := rfl
@[simp] theorem putMark_badDies : (putMark s die page m).badDies = s.badDies := rfl
@[simp] theorem putMark_homeQ : (putMark s die page m).homeQ = s.homeQ := rfl
@[simp] theorem putMark_mover : (putMark s die page m).mover = s.mover := rfl
@[simp] theorem putMark_ports : (putMark s die page m).ports = s.ports := rfl
@[simp] theorem putMark_retained : (putMark s die page m).retained = s.retained := rfl
@[simp] theorem putMark_cab : (putMark s die page m).cab = s.cab := rfl
@[simp] theorem putMark_cabNext : (putMark s die page m).cabNext = s.cabNext := rfl
@[simp] theorem putMark_svnFloor : (putMark s die page m).svnFloor = s.svnFloor := rfl
@[simp] theorem putMark_plan : (putMark s die page m).plan = s.plan := rfl
@[simp] theorem putMark_planNext : (putMark s die page m).planNext = s.planNext := rfl
@[simp] theorem putMark_nwKept : (putMark s die page m).nwKept = s.nwKept := rfl
@[simp] theorem putMark_container : (putMark s die page m).container = s.container := rfl
@[simp] theorem putMark_power : (putMark s die page m).power = s.power := rfl
@[simp] theorem putMark_smap : (putMark s die page m).smap = s.smap := rfl
@[simp] theorem putMark_droop : (putMark s die page m).droop = s.droop := rfl
@[simp] theorem putMark_memUnits : (putMark s die page m).memUnits = s.memUnits := rfl
@[simp] theorem putMark_departing : (putMark s die page m).departing = s.departing := rfl
@[simp] theorem putMark_host : (putMark s die page m).host = s.host := rfl
@[simp] theorem putMark_trackers : (putMark s die page m).trackers = s.trackers := rfl
@[simp] theorem putMark_serv : (putMark s die page m).serv = s.serv := rfl
@[simp] theorem putMark_loader : (putMark s die page m).loader = s.loader := rfl
@[simp] theorem putMark_start : (putMark s die page m).start = s.start := rfl
@[simp] theorem putMark_bst : (putMark s die page m).bst = s.bst := rfl
@[simp] theorem putMark_fo : (putMark s die page m).fo = s.fo := rfl
@[simp] theorem putMark_gop : (putMark s die page m).gop = s.gop := rfl
@[simp] theorem putMark_sec : (putMark s die page m).sec = s.sec := rfl
@[simp] theorem putMark_trc : (putMark s die page m).trc = s.trc := rfl
@[simp] theorem putMark_marks : (putMark s die page m).marks = mapPut PageMark.none s.marks (pageKey die page) m := rfl

end

/-! ## noteArm -/

section
variable (k : Nat)

@[simp] theorem noteArm_now : (noteArm s k).now = s.now := rfl
@[simp] theorem noteArm_pending : (noteArm s k).pending = s.pending := rfl
@[simp] theorem noteArm_fresh : (noteArm s k).fresh = s.fresh := rfl
@[simp] theorem noteArm_lastRead : (noteArm s k).lastRead = s.lastRead := rfl
@[simp] theorem noteArm_lastBytes : (noteArm s k).lastBytes = s.lastBytes := rfl
@[simp] theorem noteArm_lastResp : (noteArm s k).lastResp = s.lastResp := rfl
@[simp] theorem noteArm_lastSent : (noteArm s k).lastSent = s.lastSent := rfl
@[simp] theorem noteArm_lastPort : (noteArm s k).lastPort = s.lastPort := rfl
@[simp] theorem noteArm_lastNote : (noteArm s k).lastNote = s.lastNote := rfl
@[simp] theorem noteArm_regs : (noteArm s k).regs = s.regs := rfl
@[simp] theorem noteArm_cnt : (noteArm s k).cnt = s.cnt := rfl
@[simp] theorem noteArm_cntLatch : (noteArm s k).cntLatch = s.cntLatch := rfl
@[simp] theorem noteArm_trans : (noteArm s k).trans = s.trans := rfl
@[simp] theorem noteArm_softWait : (noteArm s k).softWait = s.softWait := rfl
@[simp] theorem noteArm_armT : (noteArm s k).armT = mapSet s.armT k s.now := rfl
@[simp] theorem noteArm_shadow : (noteArm s k).shadow = s.shadow := rfl
@[simp] theorem noteArm_service : (noteArm s k).service = s.service := rfl
@[simp] theorem noteArm_rails : (noteArm s k).rails = s.rails := rfl
@[simp] theorem noteArm_dieReset : (noteArm s k).dieReset = s.dieReset := rfl
@[simp] theorem noteArm_meshOff : (noteArm s k).meshOff = s.meshOff := rfl
@[simp] theorem noteArm_accruals : (noteArm s k).accruals = s.accruals := rfl
@[simp] theorem noteArm_memGates : (noteArm s k).memGates = s.memGates := rfl
@[simp] theorem noteArm_upAt : (noteArm s k).upAt = s.upAt := rfl
@[simp] theorem noteArm_bench : (noteArm s k).bench = s.bench := rfl
@[simp] theorem noteArm_slice : (noteArm s k).slice = s.slice := rfl
@[simp] theorem noteArm_ny : (noteArm s k).ny = s.ny := rfl
@[simp] theorem noteArm_nz : (noteArm s k).nz = s.nz := rfl
@[simp] theorem noteArm_cores : (noteArm s k).cores = s.cores := rfl
@[simp] theorem noteArm_routers : (noteArm s k).routers = s.routers := rfl
@[simp] theorem noteArm_frs : (noteArm s k).frs = s.frs := rfl
@[simp] theorem noteArm_t1 : (noteArm s k).t1 = s.t1 := rfl
@[simp] theorem noteArm_t1line : (noteArm s k).t1line = s.t1line := rfl
@[simp] theorem noteArm_t1clean : (noteArm s k).t1clean = s.t1clean := rfl
@[simp] theorem noteArm_t2 : (noteArm s k).t2 = s.t2 := rfl
@[simp] theorem noteArm_t2bad : (noteArm s k).t2bad = s.t2bad := rfl
@[simp] theorem noteArm_mbc : (noteArm s k).mbc = s.mbc := rfl
@[simp] theorem noteArm_rowsUsed : (noteArm s k).rowsUsed = s.rowsUsed := rfl
@[simp] theorem noteArm_badRows : (noteArm s k).badRows = s.badRows := rfl
@[simp] theorem noteArm_badDies : (noteArm s k).badDies = s.badDies := rfl
@[simp] theorem noteArm_homeQ : (noteArm s k).homeQ = s.homeQ := rfl
@[simp] theorem noteArm_mover : (noteArm s k).mover = s.mover := rfl
@[simp] theorem noteArm_ports : (noteArm s k).ports = s.ports := rfl
@[simp] theorem noteArm_retained : (noteArm s k).retained = s.retained := rfl
@[simp] theorem noteArm_cab : (noteArm s k).cab = s.cab := rfl
@[simp] theorem noteArm_cabNext : (noteArm s k).cabNext = s.cabNext := rfl
@[simp] theorem noteArm_svnFloor : (noteArm s k).svnFloor = s.svnFloor := rfl
@[simp] theorem noteArm_plan : (noteArm s k).plan = s.plan := rfl
@[simp] theorem noteArm_planNext : (noteArm s k).planNext = s.planNext := rfl
@[simp] theorem noteArm_nwKept : (noteArm s k).nwKept = s.nwKept := rfl
@[simp] theorem noteArm_container : (noteArm s k).container = s.container := rfl
@[simp] theorem noteArm_power : (noteArm s k).power = s.power := rfl
@[simp] theorem noteArm_smap : (noteArm s k).smap = s.smap := rfl
@[simp] theorem noteArm_droop : (noteArm s k).droop = s.droop := rfl
@[simp] theorem noteArm_memUnits : (noteArm s k).memUnits = s.memUnits := rfl
@[simp] theorem noteArm_departing : (noteArm s k).departing = s.departing := rfl
@[simp] theorem noteArm_host : (noteArm s k).host = s.host := rfl
@[simp] theorem noteArm_trackers : (noteArm s k).trackers = s.trackers := rfl
@[simp] theorem noteArm_serv : (noteArm s k).serv = s.serv := rfl
@[simp] theorem noteArm_loader : (noteArm s k).loader = s.loader := rfl
@[simp] theorem noteArm_start : (noteArm s k).start = s.start := rfl
@[simp] theorem noteArm_bst : (noteArm s k).bst = s.bst := rfl
@[simp] theorem noteArm_fo : (noteArm s k).fo = s.fo := rfl
@[simp] theorem noteArm_gop : (noteArm s k).gop = s.gop := rfl
@[simp] theorem noteArm_sec : (noteArm s k).sec = s.sec := rfl
@[simp] theorem noteArm_trc : (noteArm s k).trc = s.trc := rfl
@[simp] theorem noteArm_marks : (noteArm s k).marks = s.marks := rfl

end

/-! ## traceRec -/

section
variable (die source arg : Nat)

@[simp] theorem traceRec_now : (traceRec s die source arg).now = s.now := rfl
@[simp] theorem traceRec_pending : (traceRec s die source arg).pending = s.pending := rfl
@[simp] theorem traceRec_lastRead : (traceRec s die source arg).lastRead = s.lastRead := rfl
@[simp] theorem traceRec_lastBytes : (traceRec s die source arg).lastBytes = s.lastBytes := rfl
@[simp] theorem traceRec_lastResp : (traceRec s die source arg).lastResp = s.lastResp := rfl
@[simp] theorem traceRec_lastSent : (traceRec s die source arg).lastSent = s.lastSent := rfl
@[simp] theorem traceRec_lastPort : (traceRec s die source arg).lastPort = s.lastPort := rfl
@[simp] theorem traceRec_lastNote : (traceRec s die source arg).lastNote = s.lastNote := rfl
@[simp] theorem traceRec_regs : (traceRec s die source arg).regs = s.regs := rfl
@[simp] theorem traceRec_cnt : (traceRec s die source arg).cnt = s.cnt := rfl
@[simp] theorem traceRec_cntLatch : (traceRec s die source arg).cntLatch = s.cntLatch := rfl
@[simp] theorem traceRec_trans : (traceRec s die source arg).trans = s.trans := rfl
@[simp] theorem traceRec_softWait : (traceRec s die source arg).softWait = s.softWait := rfl
@[simp] theorem traceRec_armT : (traceRec s die source arg).armT = s.armT := rfl
@[simp] theorem traceRec_shadow : (traceRec s die source arg).shadow = s.shadow := rfl
@[simp] theorem traceRec_service : (traceRec s die source arg).service = s.service := rfl
@[simp] theorem traceRec_rails : (traceRec s die source arg).rails = s.rails := rfl
@[simp] theorem traceRec_dieReset : (traceRec s die source arg).dieReset = s.dieReset := rfl
@[simp] theorem traceRec_meshOff : (traceRec s die source arg).meshOff = s.meshOff := rfl
@[simp] theorem traceRec_accruals : (traceRec s die source arg).accruals = s.accruals := rfl
@[simp] theorem traceRec_memGates : (traceRec s die source arg).memGates = s.memGates := rfl
@[simp] theorem traceRec_upAt : (traceRec s die source arg).upAt = s.upAt := rfl
@[simp] theorem traceRec_bench : (traceRec s die source arg).bench = s.bench := rfl
@[simp] theorem traceRec_slice : (traceRec s die source arg).slice = s.slice := rfl
@[simp] theorem traceRec_ny : (traceRec s die source arg).ny = s.ny := rfl
@[simp] theorem traceRec_nz : (traceRec s die source arg).nz = s.nz := rfl
@[simp] theorem traceRec_cores : (traceRec s die source arg).cores = s.cores := rfl
@[simp] theorem traceRec_routers : (traceRec s die source arg).routers = s.routers := rfl
@[simp] theorem traceRec_frs : (traceRec s die source arg).frs = s.frs := rfl
@[simp] theorem traceRec_t1 : (traceRec s die source arg).t1 = s.t1 := rfl
@[simp] theorem traceRec_t1line : (traceRec s die source arg).t1line = s.t1line := rfl
@[simp] theorem traceRec_t1clean : (traceRec s die source arg).t1clean = s.t1clean := rfl
@[simp] theorem traceRec_t2 : (traceRec s die source arg).t2 = s.t2 := rfl
@[simp] theorem traceRec_t2bad : (traceRec s die source arg).t2bad = s.t2bad := rfl
@[simp] theorem traceRec_mbc : (traceRec s die source arg).mbc = s.mbc := rfl
@[simp] theorem traceRec_rowsUsed : (traceRec s die source arg).rowsUsed = s.rowsUsed := rfl
@[simp] theorem traceRec_badRows : (traceRec s die source arg).badRows = s.badRows := rfl
@[simp] theorem traceRec_badDies : (traceRec s die source arg).badDies = s.badDies := rfl
@[simp] theorem traceRec_homeQ : (traceRec s die source arg).homeQ = s.homeQ := rfl
@[simp] theorem traceRec_mover : (traceRec s die source arg).mover = s.mover := rfl
@[simp] theorem traceRec_ports : (traceRec s die source arg).ports = s.ports := rfl
@[simp] theorem traceRec_retained : (traceRec s die source arg).retained = s.retained := rfl
@[simp] theorem traceRec_cab : (traceRec s die source arg).cab = s.cab := rfl
@[simp] theorem traceRec_cabNext : (traceRec s die source arg).cabNext = s.cabNext := rfl
@[simp] theorem traceRec_svnFloor : (traceRec s die source arg).svnFloor = s.svnFloor := rfl
@[simp] theorem traceRec_plan : (traceRec s die source arg).plan = s.plan := rfl
@[simp] theorem traceRec_planNext : (traceRec s die source arg).planNext = s.planNext := rfl
@[simp] theorem traceRec_nwKept : (traceRec s die source arg).nwKept = s.nwKept := rfl
@[simp] theorem traceRec_container : (traceRec s die source arg).container = s.container := rfl
@[simp] theorem traceRec_power : (traceRec s die source arg).power = s.power := rfl
@[simp] theorem traceRec_smap : (traceRec s die source arg).smap = s.smap := rfl
@[simp] theorem traceRec_droop : (traceRec s die source arg).droop = s.droop := rfl
@[simp] theorem traceRec_memUnits : (traceRec s die source arg).memUnits = s.memUnits := rfl
@[simp] theorem traceRec_departing : (traceRec s die source arg).departing = s.departing := rfl
@[simp] theorem traceRec_host : (traceRec s die source arg).host = s.host := rfl
@[simp] theorem traceRec_trackers : (traceRec s die source arg).trackers = s.trackers := rfl
@[simp] theorem traceRec_serv : (traceRec s die source arg).serv = s.serv := rfl
@[simp] theorem traceRec_loader : (traceRec s die source arg).loader = s.loader := rfl
@[simp] theorem traceRec_start : (traceRec s die source arg).start = s.start := rfl
@[simp] theorem traceRec_bst : (traceRec s die source arg).bst = s.bst := rfl
@[simp] theorem traceRec_fo : (traceRec s die source arg).fo = s.fo := rfl
@[simp] theorem traceRec_gop : (traceRec s die source arg).gop = s.gop := rfl
@[simp] theorem traceRec_sec : (traceRec s die source arg).sec = s.sec := rfl
@[simp] theorem traceRec_marks : (traceRec s die source arg).marks = s.marks := rfl

end

/-! ## putRouter -/

section
variable (die : Nat) (x : Router)

@[simp] theorem putRouter_now : (putRouter s die x).now = s.now := rfl
@[simp] theorem putRouter_pending : (putRouter s die x).pending = s.pending := rfl
@[simp] theorem putRouter_fresh : (putRouter s die x).fresh = s.fresh := rfl
@[simp] theorem putRouter_lastRead : (putRouter s die x).lastRead = s.lastRead := rfl
@[simp] theorem putRouter_lastBytes : (putRouter s die x).lastBytes = s.lastBytes := rfl
@[simp] theorem putRouter_lastResp : (putRouter s die x).lastResp = s.lastResp := rfl
@[simp] theorem putRouter_lastSent : (putRouter s die x).lastSent = s.lastSent := rfl
@[simp] theorem putRouter_lastPort : (putRouter s die x).lastPort = s.lastPort := rfl
@[simp] theorem putRouter_lastNote : (putRouter s die x).lastNote = s.lastNote := rfl
@[simp] theorem putRouter_regs : (putRouter s die x).regs = s.regs := rfl
@[simp] theorem putRouter_cnt : (putRouter s die x).cnt = s.cnt := rfl
@[simp] theorem putRouter_cntLatch : (putRouter s die x).cntLatch = s.cntLatch := rfl
@[simp] theorem putRouter_trans : (putRouter s die x).trans = s.trans := rfl
@[simp] theorem putRouter_softWait : (putRouter s die x).softWait = s.softWait := rfl
@[simp] theorem putRouter_armT : (putRouter s die x).armT = s.armT := rfl
@[simp] theorem putRouter_shadow : (putRouter s die x).shadow = s.shadow := rfl
@[simp] theorem putRouter_service : (putRouter s die x).service = s.service := rfl
@[simp] theorem putRouter_rails : (putRouter s die x).rails = s.rails := rfl
@[simp] theorem putRouter_dieReset : (putRouter s die x).dieReset = s.dieReset := rfl
@[simp] theorem putRouter_meshOff : (putRouter s die x).meshOff = s.meshOff := rfl
@[simp] theorem putRouter_accruals : (putRouter s die x).accruals = s.accruals := rfl
@[simp] theorem putRouter_memGates : (putRouter s die x).memGates = s.memGates := rfl
@[simp] theorem putRouter_upAt : (putRouter s die x).upAt = s.upAt := rfl
@[simp] theorem putRouter_bench : (putRouter s die x).bench = s.bench := rfl
@[simp] theorem putRouter_slice : (putRouter s die x).slice = s.slice := rfl
@[simp] theorem putRouter_ny : (putRouter s die x).ny = s.ny := rfl
@[simp] theorem putRouter_nz : (putRouter s die x).nz = s.nz := rfl
@[simp] theorem putRouter_cores : (putRouter s die x).cores = s.cores := rfl
@[simp] theorem putRouter_routers : (putRouter s die x).routers = mapPut Router.reset s.routers die x := rfl
@[simp] theorem putRouter_frs : (putRouter s die x).frs = s.frs := rfl
@[simp] theorem putRouter_t1 : (putRouter s die x).t1 = s.t1 := rfl
@[simp] theorem putRouter_t1line : (putRouter s die x).t1line = s.t1line := rfl
@[simp] theorem putRouter_t1clean : (putRouter s die x).t1clean = s.t1clean := rfl
@[simp] theorem putRouter_t2 : (putRouter s die x).t2 = s.t2 := rfl
@[simp] theorem putRouter_t2bad : (putRouter s die x).t2bad = s.t2bad := rfl
@[simp] theorem putRouter_mbc : (putRouter s die x).mbc = s.mbc := rfl
@[simp] theorem putRouter_rowsUsed : (putRouter s die x).rowsUsed = s.rowsUsed := rfl
@[simp] theorem putRouter_badRows : (putRouter s die x).badRows = s.badRows := rfl
@[simp] theorem putRouter_badDies : (putRouter s die x).badDies = s.badDies := rfl
@[simp] theorem putRouter_homeQ : (putRouter s die x).homeQ = s.homeQ := rfl
@[simp] theorem putRouter_mover : (putRouter s die x).mover = s.mover := rfl
@[simp] theorem putRouter_ports : (putRouter s die x).ports = s.ports := rfl
@[simp] theorem putRouter_retained : (putRouter s die x).retained = s.retained := rfl
@[simp] theorem putRouter_cab : (putRouter s die x).cab = s.cab := rfl
@[simp] theorem putRouter_cabNext : (putRouter s die x).cabNext = s.cabNext := rfl
@[simp] theorem putRouter_svnFloor : (putRouter s die x).svnFloor = s.svnFloor := rfl
@[simp] theorem putRouter_plan : (putRouter s die x).plan = s.plan := rfl
@[simp] theorem putRouter_planNext : (putRouter s die x).planNext = s.planNext := rfl
@[simp] theorem putRouter_nwKept : (putRouter s die x).nwKept = s.nwKept := rfl
@[simp] theorem putRouter_container : (putRouter s die x).container = s.container := rfl
@[simp] theorem putRouter_power : (putRouter s die x).power = s.power := rfl
@[simp] theorem putRouter_smap : (putRouter s die x).smap = s.smap := rfl
@[simp] theorem putRouter_droop : (putRouter s die x).droop = s.droop := rfl
@[simp] theorem putRouter_memUnits : (putRouter s die x).memUnits = s.memUnits := rfl
@[simp] theorem putRouter_departing : (putRouter s die x).departing = s.departing := rfl
@[simp] theorem putRouter_host : (putRouter s die x).host = s.host := rfl
@[simp] theorem putRouter_trackers : (putRouter s die x).trackers = s.trackers := rfl
@[simp] theorem putRouter_serv : (putRouter s die x).serv = s.serv := rfl
@[simp] theorem putRouter_loader : (putRouter s die x).loader = s.loader := rfl
@[simp] theorem putRouter_start : (putRouter s die x).start = s.start := rfl
@[simp] theorem putRouter_bst : (putRouter s die x).bst = s.bst := rfl
@[simp] theorem putRouter_fo : (putRouter s die x).fo = s.fo := rfl
@[simp] theorem putRouter_gop : (putRouter s die x).gop = s.gop := rfl
@[simp] theorem putRouter_sec : (putRouter s die x).sec = s.sec := rfl
@[simp] theorem putRouter_trc : (putRouter s die x).trc = s.trc := rfl
@[simp] theorem putRouter_marks : (putRouter s die x).marks = s.marks := rfl

end

/-! ## putFrs -/

section
variable (die : Nat) (x : Frs)

@[simp] theorem putFrs_now : (putFrs s die x).now = s.now := rfl
@[simp] theorem putFrs_pending : (putFrs s die x).pending = s.pending := rfl
@[simp] theorem putFrs_fresh : (putFrs s die x).fresh = s.fresh := rfl
@[simp] theorem putFrs_lastRead : (putFrs s die x).lastRead = s.lastRead := rfl
@[simp] theorem putFrs_lastBytes : (putFrs s die x).lastBytes = s.lastBytes := rfl
@[simp] theorem putFrs_lastResp : (putFrs s die x).lastResp = s.lastResp := rfl
@[simp] theorem putFrs_lastSent : (putFrs s die x).lastSent = s.lastSent := rfl
@[simp] theorem putFrs_lastPort : (putFrs s die x).lastPort = s.lastPort := rfl
@[simp] theorem putFrs_lastNote : (putFrs s die x).lastNote = s.lastNote := rfl
@[simp] theorem putFrs_regs : (putFrs s die x).regs = s.regs := rfl
@[simp] theorem putFrs_cnt : (putFrs s die x).cnt = s.cnt := rfl
@[simp] theorem putFrs_cntLatch : (putFrs s die x).cntLatch = s.cntLatch := rfl
@[simp] theorem putFrs_trans : (putFrs s die x).trans = s.trans := rfl
@[simp] theorem putFrs_softWait : (putFrs s die x).softWait = s.softWait := rfl
@[simp] theorem putFrs_armT : (putFrs s die x).armT = s.armT := rfl
@[simp] theorem putFrs_shadow : (putFrs s die x).shadow = s.shadow := rfl
@[simp] theorem putFrs_service : (putFrs s die x).service = s.service := rfl
@[simp] theorem putFrs_rails : (putFrs s die x).rails = s.rails := rfl
@[simp] theorem putFrs_dieReset : (putFrs s die x).dieReset = s.dieReset := rfl
@[simp] theorem putFrs_meshOff : (putFrs s die x).meshOff = s.meshOff := rfl
@[simp] theorem putFrs_accruals : (putFrs s die x).accruals = s.accruals := rfl
@[simp] theorem putFrs_memGates : (putFrs s die x).memGates = s.memGates := rfl
@[simp] theorem putFrs_upAt : (putFrs s die x).upAt = s.upAt := rfl
@[simp] theorem putFrs_bench : (putFrs s die x).bench = s.bench := rfl
@[simp] theorem putFrs_slice : (putFrs s die x).slice = s.slice := rfl
@[simp] theorem putFrs_ny : (putFrs s die x).ny = s.ny := rfl
@[simp] theorem putFrs_nz : (putFrs s die x).nz = s.nz := rfl
@[simp] theorem putFrs_cores : (putFrs s die x).cores = s.cores := rfl
@[simp] theorem putFrs_routers : (putFrs s die x).routers = s.routers := rfl
@[simp] theorem putFrs_frs : (putFrs s die x).frs = mapPut Frs.reset s.frs die x := rfl
@[simp] theorem putFrs_t1 : (putFrs s die x).t1 = s.t1 := rfl
@[simp] theorem putFrs_t1line : (putFrs s die x).t1line = s.t1line := rfl
@[simp] theorem putFrs_t1clean : (putFrs s die x).t1clean = s.t1clean := rfl
@[simp] theorem putFrs_t2 : (putFrs s die x).t2 = s.t2 := rfl
@[simp] theorem putFrs_t2bad : (putFrs s die x).t2bad = s.t2bad := rfl
@[simp] theorem putFrs_mbc : (putFrs s die x).mbc = s.mbc := rfl
@[simp] theorem putFrs_rowsUsed : (putFrs s die x).rowsUsed = s.rowsUsed := rfl
@[simp] theorem putFrs_badRows : (putFrs s die x).badRows = s.badRows := rfl
@[simp] theorem putFrs_badDies : (putFrs s die x).badDies = s.badDies := rfl
@[simp] theorem putFrs_homeQ : (putFrs s die x).homeQ = s.homeQ := rfl
@[simp] theorem putFrs_mover : (putFrs s die x).mover = s.mover := rfl
@[simp] theorem putFrs_ports : (putFrs s die x).ports = s.ports := rfl
@[simp] theorem putFrs_retained : (putFrs s die x).retained = s.retained := rfl
@[simp] theorem putFrs_cab : (putFrs s die x).cab = s.cab := rfl
@[simp] theorem putFrs_cabNext : (putFrs s die x).cabNext = s.cabNext := rfl
@[simp] theorem putFrs_svnFloor : (putFrs s die x).svnFloor = s.svnFloor := rfl
@[simp] theorem putFrs_plan : (putFrs s die x).plan = s.plan := rfl
@[simp] theorem putFrs_planNext : (putFrs s die x).planNext = s.planNext := rfl
@[simp] theorem putFrs_nwKept : (putFrs s die x).nwKept = s.nwKept := rfl
@[simp] theorem putFrs_container : (putFrs s die x).container = s.container := rfl
@[simp] theorem putFrs_power : (putFrs s die x).power = s.power := rfl
@[simp] theorem putFrs_smap : (putFrs s die x).smap = s.smap := rfl
@[simp] theorem putFrs_droop : (putFrs s die x).droop = s.droop := rfl
@[simp] theorem putFrs_memUnits : (putFrs s die x).memUnits = s.memUnits := rfl
@[simp] theorem putFrs_departing : (putFrs s die x).departing = s.departing := rfl
@[simp] theorem putFrs_host : (putFrs s die x).host = s.host := rfl
@[simp] theorem putFrs_trackers : (putFrs s die x).trackers = s.trackers := rfl
@[simp] theorem putFrs_serv : (putFrs s die x).serv = s.serv := rfl
@[simp] theorem putFrs_loader : (putFrs s die x).loader = s.loader := rfl
@[simp] theorem putFrs_start : (putFrs s die x).start = s.start := rfl
@[simp] theorem putFrs_bst : (putFrs s die x).bst = s.bst := rfl
@[simp] theorem putFrs_fo : (putFrs s die x).fo = s.fo := rfl
@[simp] theorem putFrs_gop : (putFrs s die x).gop = s.gop := rfl
@[simp] theorem putFrs_sec : (putFrs s die x).sec = s.sec := rfl
@[simp] theorem putFrs_trc : (putFrs s die x).trc = s.trc := rfl
@[simp] theorem putFrs_marks : (putFrs s die x).marks = s.marks := rfl

end

/-! ## updHost -/

section
variable (f : HostSt → HostSt)

@[simp] theorem updHost_now : (updHost s f).now = s.now := rfl
@[simp] theorem updHost_pending : (updHost s f).pending = s.pending := rfl
@[simp] theorem updHost_fresh : (updHost s f).fresh = s.fresh := rfl
@[simp] theorem updHost_lastRead : (updHost s f).lastRead = s.lastRead := rfl
@[simp] theorem updHost_lastBytes : (updHost s f).lastBytes = s.lastBytes := rfl
@[simp] theorem updHost_lastResp : (updHost s f).lastResp = s.lastResp := rfl
@[simp] theorem updHost_lastSent : (updHost s f).lastSent = s.lastSent := rfl
@[simp] theorem updHost_lastPort : (updHost s f).lastPort = s.lastPort := rfl
@[simp] theorem updHost_lastNote : (updHost s f).lastNote = s.lastNote := rfl
@[simp] theorem updHost_regs : (updHost s f).regs = s.regs := rfl
@[simp] theorem updHost_cnt : (updHost s f).cnt = s.cnt := rfl
@[simp] theorem updHost_cntLatch : (updHost s f).cntLatch = s.cntLatch := rfl
@[simp] theorem updHost_trans : (updHost s f).trans = s.trans := rfl
@[simp] theorem updHost_softWait : (updHost s f).softWait = s.softWait := rfl
@[simp] theorem updHost_armT : (updHost s f).armT = s.armT := rfl
@[simp] theorem updHost_shadow : (updHost s f).shadow = s.shadow := rfl
@[simp] theorem updHost_service : (updHost s f).service = s.service := rfl
@[simp] theorem updHost_rails : (updHost s f).rails = s.rails := rfl
@[simp] theorem updHost_dieReset : (updHost s f).dieReset = s.dieReset := rfl
@[simp] theorem updHost_meshOff : (updHost s f).meshOff = s.meshOff := rfl
@[simp] theorem updHost_accruals : (updHost s f).accruals = s.accruals := rfl
@[simp] theorem updHost_memGates : (updHost s f).memGates = s.memGates := rfl
@[simp] theorem updHost_upAt : (updHost s f).upAt = s.upAt := rfl
@[simp] theorem updHost_bench : (updHost s f).bench = s.bench := rfl
@[simp] theorem updHost_slice : (updHost s f).slice = s.slice := rfl
@[simp] theorem updHost_ny : (updHost s f).ny = s.ny := rfl
@[simp] theorem updHost_nz : (updHost s f).nz = s.nz := rfl
@[simp] theorem updHost_cores : (updHost s f).cores = s.cores := rfl
@[simp] theorem updHost_routers : (updHost s f).routers = s.routers := rfl
@[simp] theorem updHost_frs : (updHost s f).frs = s.frs := rfl
@[simp] theorem updHost_t1 : (updHost s f).t1 = s.t1 := rfl
@[simp] theorem updHost_t1line : (updHost s f).t1line = s.t1line := rfl
@[simp] theorem updHost_t1clean : (updHost s f).t1clean = s.t1clean := rfl
@[simp] theorem updHost_t2 : (updHost s f).t2 = s.t2 := rfl
@[simp] theorem updHost_t2bad : (updHost s f).t2bad = s.t2bad := rfl
@[simp] theorem updHost_mbc : (updHost s f).mbc = s.mbc := rfl
@[simp] theorem updHost_rowsUsed : (updHost s f).rowsUsed = s.rowsUsed := rfl
@[simp] theorem updHost_badRows : (updHost s f).badRows = s.badRows := rfl
@[simp] theorem updHost_badDies : (updHost s f).badDies = s.badDies := rfl
@[simp] theorem updHost_homeQ : (updHost s f).homeQ = s.homeQ := rfl
@[simp] theorem updHost_mover : (updHost s f).mover = s.mover := rfl
@[simp] theorem updHost_ports : (updHost s f).ports = s.ports := rfl
@[simp] theorem updHost_retained : (updHost s f).retained = s.retained := rfl
@[simp] theorem updHost_cab : (updHost s f).cab = s.cab := rfl
@[simp] theorem updHost_cabNext : (updHost s f).cabNext = s.cabNext := rfl
@[simp] theorem updHost_svnFloor : (updHost s f).svnFloor = s.svnFloor := rfl
@[simp] theorem updHost_plan : (updHost s f).plan = s.plan := rfl
@[simp] theorem updHost_planNext : (updHost s f).planNext = s.planNext := rfl
@[simp] theorem updHost_nwKept : (updHost s f).nwKept = s.nwKept := rfl
@[simp] theorem updHost_container : (updHost s f).container = s.container := rfl
@[simp] theorem updHost_power : (updHost s f).power = s.power := rfl
@[simp] theorem updHost_smap : (updHost s f).smap = s.smap := rfl
@[simp] theorem updHost_droop : (updHost s f).droop = s.droop := rfl
@[simp] theorem updHost_memUnits : (updHost s f).memUnits = s.memUnits := rfl
@[simp] theorem updHost_departing : (updHost s f).departing = s.departing := rfl
@[simp] theorem updHost_host : (updHost s f).host = f s.host := rfl
@[simp] theorem updHost_trackers : (updHost s f).trackers = s.trackers := rfl
@[simp] theorem updHost_serv : (updHost s f).serv = s.serv := rfl
@[simp] theorem updHost_loader : (updHost s f).loader = s.loader := rfl
@[simp] theorem updHost_start : (updHost s f).start = s.start := rfl
@[simp] theorem updHost_bst : (updHost s f).bst = s.bst := rfl
@[simp] theorem updHost_fo : (updHost s f).fo = s.fo := rfl
@[simp] theorem updHost_gop : (updHost s f).gop = s.gop := rfl
@[simp] theorem updHost_sec : (updHost s f).sec = s.sec := rfl
@[simp] theorem updHost_trc : (updHost s f).trc = s.trc := rfl
@[simp] theorem updHost_marks : (updHost s f).marks = s.marks := rfl

end

/-! ## updFo -/

section
variable (f : FoSt → FoSt)

@[simp] theorem updFo_now : (updFo s f).now = s.now := rfl
@[simp] theorem updFo_pending : (updFo s f).pending = s.pending := rfl
@[simp] theorem updFo_fresh : (updFo s f).fresh = s.fresh := rfl
@[simp] theorem updFo_lastRead : (updFo s f).lastRead = s.lastRead := rfl
@[simp] theorem updFo_lastBytes : (updFo s f).lastBytes = s.lastBytes := rfl
@[simp] theorem updFo_lastResp : (updFo s f).lastResp = s.lastResp := rfl
@[simp] theorem updFo_lastSent : (updFo s f).lastSent = s.lastSent := rfl
@[simp] theorem updFo_lastPort : (updFo s f).lastPort = s.lastPort := rfl
@[simp] theorem updFo_lastNote : (updFo s f).lastNote = s.lastNote := rfl
@[simp] theorem updFo_regs : (updFo s f).regs = s.regs := rfl
@[simp] theorem updFo_cnt : (updFo s f).cnt = s.cnt := rfl
@[simp] theorem updFo_cntLatch : (updFo s f).cntLatch = s.cntLatch := rfl
@[simp] theorem updFo_trans : (updFo s f).trans = s.trans := rfl
@[simp] theorem updFo_softWait : (updFo s f).softWait = s.softWait := rfl
@[simp] theorem updFo_armT : (updFo s f).armT = s.armT := rfl
@[simp] theorem updFo_shadow : (updFo s f).shadow = s.shadow := rfl
@[simp] theorem updFo_service : (updFo s f).service = s.service := rfl
@[simp] theorem updFo_rails : (updFo s f).rails = s.rails := rfl
@[simp] theorem updFo_dieReset : (updFo s f).dieReset = s.dieReset := rfl
@[simp] theorem updFo_meshOff : (updFo s f).meshOff = s.meshOff := rfl
@[simp] theorem updFo_accruals : (updFo s f).accruals = s.accruals := rfl
@[simp] theorem updFo_memGates : (updFo s f).memGates = s.memGates := rfl
@[simp] theorem updFo_upAt : (updFo s f).upAt = s.upAt := rfl
@[simp] theorem updFo_bench : (updFo s f).bench = s.bench := rfl
@[simp] theorem updFo_slice : (updFo s f).slice = s.slice := rfl
@[simp] theorem updFo_ny : (updFo s f).ny = s.ny := rfl
@[simp] theorem updFo_nz : (updFo s f).nz = s.nz := rfl
@[simp] theorem updFo_cores : (updFo s f).cores = s.cores := rfl
@[simp] theorem updFo_routers : (updFo s f).routers = s.routers := rfl
@[simp] theorem updFo_frs : (updFo s f).frs = s.frs := rfl
@[simp] theorem updFo_t1 : (updFo s f).t1 = s.t1 := rfl
@[simp] theorem updFo_t1line : (updFo s f).t1line = s.t1line := rfl
@[simp] theorem updFo_t1clean : (updFo s f).t1clean = s.t1clean := rfl
@[simp] theorem updFo_t2 : (updFo s f).t2 = s.t2 := rfl
@[simp] theorem updFo_t2bad : (updFo s f).t2bad = s.t2bad := rfl
@[simp] theorem updFo_mbc : (updFo s f).mbc = s.mbc := rfl
@[simp] theorem updFo_rowsUsed : (updFo s f).rowsUsed = s.rowsUsed := rfl
@[simp] theorem updFo_badRows : (updFo s f).badRows = s.badRows := rfl
@[simp] theorem updFo_badDies : (updFo s f).badDies = s.badDies := rfl
@[simp] theorem updFo_homeQ : (updFo s f).homeQ = s.homeQ := rfl
@[simp] theorem updFo_mover : (updFo s f).mover = s.mover := rfl
@[simp] theorem updFo_ports : (updFo s f).ports = s.ports := rfl
@[simp] theorem updFo_retained : (updFo s f).retained = s.retained := rfl
@[simp] theorem updFo_cab : (updFo s f).cab = s.cab := rfl
@[simp] theorem updFo_cabNext : (updFo s f).cabNext = s.cabNext := rfl
@[simp] theorem updFo_svnFloor : (updFo s f).svnFloor = s.svnFloor := rfl
@[simp] theorem updFo_plan : (updFo s f).plan = s.plan := rfl
@[simp] theorem updFo_planNext : (updFo s f).planNext = s.planNext := rfl
@[simp] theorem updFo_nwKept : (updFo s f).nwKept = s.nwKept := rfl
@[simp] theorem updFo_container : (updFo s f).container = s.container := rfl
@[simp] theorem updFo_power : (updFo s f).power = s.power := rfl
@[simp] theorem updFo_smap : (updFo s f).smap = s.smap := rfl
@[simp] theorem updFo_droop : (updFo s f).droop = s.droop := rfl
@[simp] theorem updFo_memUnits : (updFo s f).memUnits = s.memUnits := rfl
@[simp] theorem updFo_departing : (updFo s f).departing = s.departing := rfl
@[simp] theorem updFo_host : (updFo s f).host = s.host := rfl
@[simp] theorem updFo_trackers : (updFo s f).trackers = s.trackers := rfl
@[simp] theorem updFo_serv : (updFo s f).serv = s.serv := rfl
@[simp] theorem updFo_loader : (updFo s f).loader = s.loader := rfl
@[simp] theorem updFo_start : (updFo s f).start = s.start := rfl
@[simp] theorem updFo_bst : (updFo s f).bst = s.bst := rfl
@[simp] theorem updFo_fo : (updFo s f).fo = f s.fo := rfl
@[simp] theorem updFo_gop : (updFo s f).gop = s.gop := rfl
@[simp] theorem updFo_sec : (updFo s f).sec = s.sec := rfl
@[simp] theorem updFo_trc : (updFo s f).trc = s.trc := rfl
@[simp] theorem updFo_marks : (updFo s f).marks = s.marks := rfl

end

/-! ## updGop -/

section
variable (f : GopSt → GopSt)

@[simp] theorem updGop_now : (updGop s f).now = s.now := rfl
@[simp] theorem updGop_pending : (updGop s f).pending = s.pending := rfl
@[simp] theorem updGop_fresh : (updGop s f).fresh = s.fresh := rfl
@[simp] theorem updGop_lastRead : (updGop s f).lastRead = s.lastRead := rfl
@[simp] theorem updGop_lastBytes : (updGop s f).lastBytes = s.lastBytes := rfl
@[simp] theorem updGop_lastResp : (updGop s f).lastResp = s.lastResp := rfl
@[simp] theorem updGop_lastSent : (updGop s f).lastSent = s.lastSent := rfl
@[simp] theorem updGop_lastPort : (updGop s f).lastPort = s.lastPort := rfl
@[simp] theorem updGop_lastNote : (updGop s f).lastNote = s.lastNote := rfl
@[simp] theorem updGop_regs : (updGop s f).regs = s.regs := rfl
@[simp] theorem updGop_cnt : (updGop s f).cnt = s.cnt := rfl
@[simp] theorem updGop_cntLatch : (updGop s f).cntLatch = s.cntLatch := rfl
@[simp] theorem updGop_trans : (updGop s f).trans = s.trans := rfl
@[simp] theorem updGop_softWait : (updGop s f).softWait = s.softWait := rfl
@[simp] theorem updGop_armT : (updGop s f).armT = s.armT := rfl
@[simp] theorem updGop_shadow : (updGop s f).shadow = s.shadow := rfl
@[simp] theorem updGop_service : (updGop s f).service = s.service := rfl
@[simp] theorem updGop_rails : (updGop s f).rails = s.rails := rfl
@[simp] theorem updGop_dieReset : (updGop s f).dieReset = s.dieReset := rfl
@[simp] theorem updGop_meshOff : (updGop s f).meshOff = s.meshOff := rfl
@[simp] theorem updGop_accruals : (updGop s f).accruals = s.accruals := rfl
@[simp] theorem updGop_memGates : (updGop s f).memGates = s.memGates := rfl
@[simp] theorem updGop_upAt : (updGop s f).upAt = s.upAt := rfl
@[simp] theorem updGop_bench : (updGop s f).bench = s.bench := rfl
@[simp] theorem updGop_slice : (updGop s f).slice = s.slice := rfl
@[simp] theorem updGop_ny : (updGop s f).ny = s.ny := rfl
@[simp] theorem updGop_nz : (updGop s f).nz = s.nz := rfl
@[simp] theorem updGop_cores : (updGop s f).cores = s.cores := rfl
@[simp] theorem updGop_routers : (updGop s f).routers = s.routers := rfl
@[simp] theorem updGop_frs : (updGop s f).frs = s.frs := rfl
@[simp] theorem updGop_t1 : (updGop s f).t1 = s.t1 := rfl
@[simp] theorem updGop_t1line : (updGop s f).t1line = s.t1line := rfl
@[simp] theorem updGop_t1clean : (updGop s f).t1clean = s.t1clean := rfl
@[simp] theorem updGop_t2 : (updGop s f).t2 = s.t2 := rfl
@[simp] theorem updGop_t2bad : (updGop s f).t2bad = s.t2bad := rfl
@[simp] theorem updGop_mbc : (updGop s f).mbc = s.mbc := rfl
@[simp] theorem updGop_rowsUsed : (updGop s f).rowsUsed = s.rowsUsed := rfl
@[simp] theorem updGop_badRows : (updGop s f).badRows = s.badRows := rfl
@[simp] theorem updGop_badDies : (updGop s f).badDies = s.badDies := rfl
@[simp] theorem updGop_homeQ : (updGop s f).homeQ = s.homeQ := rfl
@[simp] theorem updGop_mover : (updGop s f).mover = s.mover := rfl
@[simp] theorem updGop_ports : (updGop s f).ports = s.ports := rfl
@[simp] theorem updGop_retained : (updGop s f).retained = s.retained := rfl
@[simp] theorem updGop_cab : (updGop s f).cab = s.cab := rfl
@[simp] theorem updGop_cabNext : (updGop s f).cabNext = s.cabNext := rfl
@[simp] theorem updGop_svnFloor : (updGop s f).svnFloor = s.svnFloor := rfl
@[simp] theorem updGop_plan : (updGop s f).plan = s.plan := rfl
@[simp] theorem updGop_planNext : (updGop s f).planNext = s.planNext := rfl
@[simp] theorem updGop_nwKept : (updGop s f).nwKept = s.nwKept := rfl
@[simp] theorem updGop_container : (updGop s f).container = s.container := rfl
@[simp] theorem updGop_power : (updGop s f).power = s.power := rfl
@[simp] theorem updGop_smap : (updGop s f).smap = s.smap := rfl
@[simp] theorem updGop_droop : (updGop s f).droop = s.droop := rfl
@[simp] theorem updGop_memUnits : (updGop s f).memUnits = s.memUnits := rfl
@[simp] theorem updGop_departing : (updGop s f).departing = s.departing := rfl
@[simp] theorem updGop_host : (updGop s f).host = s.host := rfl
@[simp] theorem updGop_trackers : (updGop s f).trackers = s.trackers := rfl
@[simp] theorem updGop_serv : (updGop s f).serv = s.serv := rfl
@[simp] theorem updGop_loader : (updGop s f).loader = s.loader := rfl
@[simp] theorem updGop_start : (updGop s f).start = s.start := rfl
@[simp] theorem updGop_bst : (updGop s f).bst = s.bst := rfl
@[simp] theorem updGop_fo : (updGop s f).fo = s.fo := rfl
@[simp] theorem updGop_gop : (updGop s f).gop = f s.gop := rfl
@[simp] theorem updGop_sec : (updGop s f).sec = s.sec := rfl
@[simp] theorem updGop_trc : (updGop s f).trc = s.trc := rfl
@[simp] theorem updGop_marks : (updGop s f).marks = s.marks := rfl

end

/-! ## updLoader -/

section
variable (f : Loader → Loader)

@[simp] theorem updLoader_now : (updLoader s f).now = s.now := rfl
@[simp] theorem updLoader_pending : (updLoader s f).pending = s.pending := rfl
@[simp] theorem updLoader_fresh : (updLoader s f).fresh = s.fresh := rfl
@[simp] theorem updLoader_lastRead : (updLoader s f).lastRead = s.lastRead := rfl
@[simp] theorem updLoader_lastBytes : (updLoader s f).lastBytes = s.lastBytes := rfl
@[simp] theorem updLoader_lastResp : (updLoader s f).lastResp = s.lastResp := rfl
@[simp] theorem updLoader_lastSent : (updLoader s f).lastSent = s.lastSent := rfl
@[simp] theorem updLoader_lastPort : (updLoader s f).lastPort = s.lastPort := rfl
@[simp] theorem updLoader_lastNote : (updLoader s f).lastNote = s.lastNote := rfl
@[simp] theorem updLoader_regs : (updLoader s f).regs = s.regs := rfl
@[simp] theorem updLoader_cnt : (updLoader s f).cnt = s.cnt := rfl
@[simp] theorem updLoader_cntLatch : (updLoader s f).cntLatch = s.cntLatch := rfl
@[simp] theorem updLoader_trans : (updLoader s f).trans = s.trans := rfl
@[simp] theorem updLoader_softWait : (updLoader s f).softWait = s.softWait := rfl
@[simp] theorem updLoader_armT : (updLoader s f).armT = s.armT := rfl
@[simp] theorem updLoader_shadow : (updLoader s f).shadow = s.shadow := rfl
@[simp] theorem updLoader_service : (updLoader s f).service = s.service := rfl
@[simp] theorem updLoader_rails : (updLoader s f).rails = s.rails := rfl
@[simp] theorem updLoader_dieReset : (updLoader s f).dieReset = s.dieReset := rfl
@[simp] theorem updLoader_meshOff : (updLoader s f).meshOff = s.meshOff := rfl
@[simp] theorem updLoader_accruals : (updLoader s f).accruals = s.accruals := rfl
@[simp] theorem updLoader_memGates : (updLoader s f).memGates = s.memGates := rfl
@[simp] theorem updLoader_upAt : (updLoader s f).upAt = s.upAt := rfl
@[simp] theorem updLoader_bench : (updLoader s f).bench = s.bench := rfl
@[simp] theorem updLoader_slice : (updLoader s f).slice = s.slice := rfl
@[simp] theorem updLoader_ny : (updLoader s f).ny = s.ny := rfl
@[simp] theorem updLoader_nz : (updLoader s f).nz = s.nz := rfl
@[simp] theorem updLoader_cores : (updLoader s f).cores = s.cores := rfl
@[simp] theorem updLoader_routers : (updLoader s f).routers = s.routers := rfl
@[simp] theorem updLoader_frs : (updLoader s f).frs = s.frs := rfl
@[simp] theorem updLoader_t1 : (updLoader s f).t1 = s.t1 := rfl
@[simp] theorem updLoader_t1line : (updLoader s f).t1line = s.t1line := rfl
@[simp] theorem updLoader_t1clean : (updLoader s f).t1clean = s.t1clean := rfl
@[simp] theorem updLoader_t2 : (updLoader s f).t2 = s.t2 := rfl
@[simp] theorem updLoader_t2bad : (updLoader s f).t2bad = s.t2bad := rfl
@[simp] theorem updLoader_mbc : (updLoader s f).mbc = s.mbc := rfl
@[simp] theorem updLoader_rowsUsed : (updLoader s f).rowsUsed = s.rowsUsed := rfl
@[simp] theorem updLoader_badRows : (updLoader s f).badRows = s.badRows := rfl
@[simp] theorem updLoader_badDies : (updLoader s f).badDies = s.badDies := rfl
@[simp] theorem updLoader_homeQ : (updLoader s f).homeQ = s.homeQ := rfl
@[simp] theorem updLoader_mover : (updLoader s f).mover = s.mover := rfl
@[simp] theorem updLoader_ports : (updLoader s f).ports = s.ports := rfl
@[simp] theorem updLoader_retained : (updLoader s f).retained = s.retained := rfl
@[simp] theorem updLoader_cab : (updLoader s f).cab = s.cab := rfl
@[simp] theorem updLoader_cabNext : (updLoader s f).cabNext = s.cabNext := rfl
@[simp] theorem updLoader_svnFloor : (updLoader s f).svnFloor = s.svnFloor := rfl
@[simp] theorem updLoader_plan : (updLoader s f).plan = s.plan := rfl
@[simp] theorem updLoader_planNext : (updLoader s f).planNext = s.planNext := rfl
@[simp] theorem updLoader_nwKept : (updLoader s f).nwKept = s.nwKept := rfl
@[simp] theorem updLoader_container : (updLoader s f).container = s.container := rfl
@[simp] theorem updLoader_power : (updLoader s f).power = s.power := rfl
@[simp] theorem updLoader_smap : (updLoader s f).smap = s.smap := rfl
@[simp] theorem updLoader_droop : (updLoader s f).droop = s.droop := rfl
@[simp] theorem updLoader_memUnits : (updLoader s f).memUnits = s.memUnits := rfl
@[simp] theorem updLoader_departing : (updLoader s f).departing = s.departing := rfl
@[simp] theorem updLoader_host : (updLoader s f).host = s.host := rfl
@[simp] theorem updLoader_trackers : (updLoader s f).trackers = s.trackers := rfl
@[simp] theorem updLoader_serv : (updLoader s f).serv = s.serv := rfl
@[simp] theorem updLoader_loader : (updLoader s f).loader = f s.loader := rfl
@[simp] theorem updLoader_start : (updLoader s f).start = s.start := rfl
@[simp] theorem updLoader_bst : (updLoader s f).bst = s.bst := rfl
@[simp] theorem updLoader_fo : (updLoader s f).fo = s.fo := rfl
@[simp] theorem updLoader_gop : (updLoader s f).gop = s.gop := rfl
@[simp] theorem updLoader_sec : (updLoader s f).sec = s.sec := rfl
@[simp] theorem updLoader_trc : (updLoader s f).trc = s.trc := rfl
@[simp] theorem updLoader_marks : (updLoader s f).marks = s.marks := rfl

end

/-! ## updPower -/

section
variable (f : PowerSt → PowerSt)

@[simp] theorem updPower_now : (updPower s f).now = s.now := rfl
@[simp] theorem updPower_pending : (updPower s f).pending = s.pending := rfl
@[simp] theorem updPower_fresh : (updPower s f).fresh = s.fresh := rfl
@[simp] theorem updPower_lastRead : (updPower s f).lastRead = s.lastRead := rfl
@[simp] theorem updPower_lastBytes : (updPower s f).lastBytes = s.lastBytes := rfl
@[simp] theorem updPower_lastResp : (updPower s f).lastResp = s.lastResp := rfl
@[simp] theorem updPower_lastSent : (updPower s f).lastSent = s.lastSent := rfl
@[simp] theorem updPower_lastPort : (updPower s f).lastPort = s.lastPort := rfl
@[simp] theorem updPower_lastNote : (updPower s f).lastNote = s.lastNote := rfl
@[simp] theorem updPower_regs : (updPower s f).regs = s.regs := rfl
@[simp] theorem updPower_cnt : (updPower s f).cnt = s.cnt := rfl
@[simp] theorem updPower_cntLatch : (updPower s f).cntLatch = s.cntLatch := rfl
@[simp] theorem updPower_trans : (updPower s f).trans = s.trans := rfl
@[simp] theorem updPower_softWait : (updPower s f).softWait = s.softWait := rfl
@[simp] theorem updPower_armT : (updPower s f).armT = s.armT := rfl
@[simp] theorem updPower_shadow : (updPower s f).shadow = s.shadow := rfl
@[simp] theorem updPower_service : (updPower s f).service = s.service := rfl
@[simp] theorem updPower_rails : (updPower s f).rails = s.rails := rfl
@[simp] theorem updPower_dieReset : (updPower s f).dieReset = s.dieReset := rfl
@[simp] theorem updPower_meshOff : (updPower s f).meshOff = s.meshOff := rfl
@[simp] theorem updPower_accruals : (updPower s f).accruals = s.accruals := rfl
@[simp] theorem updPower_memGates : (updPower s f).memGates = s.memGates := rfl
@[simp] theorem updPower_upAt : (updPower s f).upAt = s.upAt := rfl
@[simp] theorem updPower_bench : (updPower s f).bench = s.bench := rfl
@[simp] theorem updPower_slice : (updPower s f).slice = s.slice := rfl
@[simp] theorem updPower_ny : (updPower s f).ny = s.ny := rfl
@[simp] theorem updPower_nz : (updPower s f).nz = s.nz := rfl
@[simp] theorem updPower_cores : (updPower s f).cores = s.cores := rfl
@[simp] theorem updPower_routers : (updPower s f).routers = s.routers := rfl
@[simp] theorem updPower_frs : (updPower s f).frs = s.frs := rfl
@[simp] theorem updPower_t1 : (updPower s f).t1 = s.t1 := rfl
@[simp] theorem updPower_t1line : (updPower s f).t1line = s.t1line := rfl
@[simp] theorem updPower_t1clean : (updPower s f).t1clean = s.t1clean := rfl
@[simp] theorem updPower_t2 : (updPower s f).t2 = s.t2 := rfl
@[simp] theorem updPower_t2bad : (updPower s f).t2bad = s.t2bad := rfl
@[simp] theorem updPower_mbc : (updPower s f).mbc = s.mbc := rfl
@[simp] theorem updPower_rowsUsed : (updPower s f).rowsUsed = s.rowsUsed := rfl
@[simp] theorem updPower_badRows : (updPower s f).badRows = s.badRows := rfl
@[simp] theorem updPower_badDies : (updPower s f).badDies = s.badDies := rfl
@[simp] theorem updPower_homeQ : (updPower s f).homeQ = s.homeQ := rfl
@[simp] theorem updPower_mover : (updPower s f).mover = s.mover := rfl
@[simp] theorem updPower_ports : (updPower s f).ports = s.ports := rfl
@[simp] theorem updPower_retained : (updPower s f).retained = s.retained := rfl
@[simp] theorem updPower_cab : (updPower s f).cab = s.cab := rfl
@[simp] theorem updPower_cabNext : (updPower s f).cabNext = s.cabNext := rfl
@[simp] theorem updPower_svnFloor : (updPower s f).svnFloor = s.svnFloor := rfl
@[simp] theorem updPower_plan : (updPower s f).plan = s.plan := rfl
@[simp] theorem updPower_planNext : (updPower s f).planNext = s.planNext := rfl
@[simp] theorem updPower_nwKept : (updPower s f).nwKept = s.nwKept := rfl
@[simp] theorem updPower_container : (updPower s f).container = s.container := rfl
@[simp] theorem updPower_power : (updPower s f).power = f s.power := rfl
@[simp] theorem updPower_smap : (updPower s f).smap = s.smap := rfl
@[simp] theorem updPower_droop : (updPower s f).droop = s.droop := rfl
@[simp] theorem updPower_memUnits : (updPower s f).memUnits = s.memUnits := rfl
@[simp] theorem updPower_departing : (updPower s f).departing = s.departing := rfl
@[simp] theorem updPower_host : (updPower s f).host = s.host := rfl
@[simp] theorem updPower_trackers : (updPower s f).trackers = s.trackers := rfl
@[simp] theorem updPower_serv : (updPower s f).serv = s.serv := rfl
@[simp] theorem updPower_loader : (updPower s f).loader = s.loader := rfl
@[simp] theorem updPower_start : (updPower s f).start = s.start := rfl
@[simp] theorem updPower_bst : (updPower s f).bst = s.bst := rfl
@[simp] theorem updPower_fo : (updPower s f).fo = s.fo := rfl
@[simp] theorem updPower_gop : (updPower s f).gop = s.gop := rfl
@[simp] theorem updPower_sec : (updPower s f).sec = s.sec := rfl
@[simp] theorem updPower_trc : (updPower s f).trc = s.trc := rfl
@[simp] theorem updPower_marks : (updPower s f).marks = s.marks := rfl

end

/-! ## updSec -/

section
variable (f : SecSt → SecSt)

@[simp] theorem updSec_now : (updSec s f).now = s.now := rfl
@[simp] theorem updSec_pending : (updSec s f).pending = s.pending := rfl
@[simp] theorem updSec_fresh : (updSec s f).fresh = s.fresh := rfl
@[simp] theorem updSec_lastRead : (updSec s f).lastRead = s.lastRead := rfl
@[simp] theorem updSec_lastBytes : (updSec s f).lastBytes = s.lastBytes := rfl
@[simp] theorem updSec_lastResp : (updSec s f).lastResp = s.lastResp := rfl
@[simp] theorem updSec_lastSent : (updSec s f).lastSent = s.lastSent := rfl
@[simp] theorem updSec_lastPort : (updSec s f).lastPort = s.lastPort := rfl
@[simp] theorem updSec_lastNote : (updSec s f).lastNote = s.lastNote := rfl
@[simp] theorem updSec_regs : (updSec s f).regs = s.regs := rfl
@[simp] theorem updSec_cnt : (updSec s f).cnt = s.cnt := rfl
@[simp] theorem updSec_cntLatch : (updSec s f).cntLatch = s.cntLatch := rfl
@[simp] theorem updSec_trans : (updSec s f).trans = s.trans := rfl
@[simp] theorem updSec_softWait : (updSec s f).softWait = s.softWait := rfl
@[simp] theorem updSec_armT : (updSec s f).armT = s.armT := rfl
@[simp] theorem updSec_shadow : (updSec s f).shadow = s.shadow := rfl
@[simp] theorem updSec_service : (updSec s f).service = s.service := rfl
@[simp] theorem updSec_rails : (updSec s f).rails = s.rails := rfl
@[simp] theorem updSec_dieReset : (updSec s f).dieReset = s.dieReset := rfl
@[simp] theorem updSec_meshOff : (updSec s f).meshOff = s.meshOff := rfl
@[simp] theorem updSec_accruals : (updSec s f).accruals = s.accruals := rfl
@[simp] theorem updSec_memGates : (updSec s f).memGates = s.memGates := rfl
@[simp] theorem updSec_upAt : (updSec s f).upAt = s.upAt := rfl
@[simp] theorem updSec_bench : (updSec s f).bench = s.bench := rfl
@[simp] theorem updSec_slice : (updSec s f).slice = s.slice := rfl
@[simp] theorem updSec_ny : (updSec s f).ny = s.ny := rfl
@[simp] theorem updSec_nz : (updSec s f).nz = s.nz := rfl
@[simp] theorem updSec_cores : (updSec s f).cores = s.cores := rfl
@[simp] theorem updSec_routers : (updSec s f).routers = s.routers := rfl
@[simp] theorem updSec_frs : (updSec s f).frs = s.frs := rfl
@[simp] theorem updSec_t1 : (updSec s f).t1 = s.t1 := rfl
@[simp] theorem updSec_t1line : (updSec s f).t1line = s.t1line := rfl
@[simp] theorem updSec_t1clean : (updSec s f).t1clean = s.t1clean := rfl
@[simp] theorem updSec_t2 : (updSec s f).t2 = s.t2 := rfl
@[simp] theorem updSec_t2bad : (updSec s f).t2bad = s.t2bad := rfl
@[simp] theorem updSec_mbc : (updSec s f).mbc = s.mbc := rfl
@[simp] theorem updSec_rowsUsed : (updSec s f).rowsUsed = s.rowsUsed := rfl
@[simp] theorem updSec_badRows : (updSec s f).badRows = s.badRows := rfl
@[simp] theorem updSec_badDies : (updSec s f).badDies = s.badDies := rfl
@[simp] theorem updSec_homeQ : (updSec s f).homeQ = s.homeQ := rfl
@[simp] theorem updSec_mover : (updSec s f).mover = s.mover := rfl
@[simp] theorem updSec_ports : (updSec s f).ports = s.ports := rfl
@[simp] theorem updSec_retained : (updSec s f).retained = s.retained := rfl
@[simp] theorem updSec_cab : (updSec s f).cab = s.cab := rfl
@[simp] theorem updSec_cabNext : (updSec s f).cabNext = s.cabNext := rfl
@[simp] theorem updSec_svnFloor : (updSec s f).svnFloor = s.svnFloor := rfl
@[simp] theorem updSec_plan : (updSec s f).plan = s.plan := rfl
@[simp] theorem updSec_planNext : (updSec s f).planNext = s.planNext := rfl
@[simp] theorem updSec_nwKept : (updSec s f).nwKept = s.nwKept := rfl
@[simp] theorem updSec_container : (updSec s f).container = s.container := rfl
@[simp] theorem updSec_power : (updSec s f).power = s.power := rfl
@[simp] theorem updSec_smap : (updSec s f).smap = s.smap := rfl
@[simp] theorem updSec_droop : (updSec s f).droop = s.droop := rfl
@[simp] theorem updSec_memUnits : (updSec s f).memUnits = s.memUnits := rfl
@[simp] theorem updSec_departing : (updSec s f).departing = s.departing := rfl
@[simp] theorem updSec_host : (updSec s f).host = s.host := rfl
@[simp] theorem updSec_trackers : (updSec s f).trackers = s.trackers := rfl
@[simp] theorem updSec_serv : (updSec s f).serv = s.serv := rfl
@[simp] theorem updSec_loader : (updSec s f).loader = s.loader := rfl
@[simp] theorem updSec_start : (updSec s f).start = s.start := rfl
@[simp] theorem updSec_bst : (updSec s f).bst = s.bst := rfl
@[simp] theorem updSec_fo : (updSec s f).fo = s.fo := rfl
@[simp] theorem updSec_gop : (updSec s f).gop = s.gop := rfl
@[simp] theorem updSec_sec : (updSec s f).sec = f s.sec := rfl
@[simp] theorem updSec_trc : (updSec s f).trc = s.trc := rfl
@[simp] theorem updSec_marks : (updSec s f).marks = s.marks := rfl

end

/-! ## updStart -/

section
variable (f : StartSt → StartSt)

@[simp] theorem updStart_now : (updStart s f).now = s.now := rfl
@[simp] theorem updStart_pending : (updStart s f).pending = s.pending := rfl
@[simp] theorem updStart_fresh : (updStart s f).fresh = s.fresh := rfl
@[simp] theorem updStart_lastRead : (updStart s f).lastRead = s.lastRead := rfl
@[simp] theorem updStart_lastBytes : (updStart s f).lastBytes = s.lastBytes := rfl
@[simp] theorem updStart_lastResp : (updStart s f).lastResp = s.lastResp := rfl
@[simp] theorem updStart_lastSent : (updStart s f).lastSent = s.lastSent := rfl
@[simp] theorem updStart_lastPort : (updStart s f).lastPort = s.lastPort := rfl
@[simp] theorem updStart_lastNote : (updStart s f).lastNote = s.lastNote := rfl
@[simp] theorem updStart_regs : (updStart s f).regs = s.regs := rfl
@[simp] theorem updStart_cnt : (updStart s f).cnt = s.cnt := rfl
@[simp] theorem updStart_cntLatch : (updStart s f).cntLatch = s.cntLatch := rfl
@[simp] theorem updStart_trans : (updStart s f).trans = s.trans := rfl
@[simp] theorem updStart_softWait : (updStart s f).softWait = s.softWait := rfl
@[simp] theorem updStart_armT : (updStart s f).armT = s.armT := rfl
@[simp] theorem updStart_shadow : (updStart s f).shadow = s.shadow := rfl
@[simp] theorem updStart_service : (updStart s f).service = s.service := rfl
@[simp] theorem updStart_rails : (updStart s f).rails = s.rails := rfl
@[simp] theorem updStart_dieReset : (updStart s f).dieReset = s.dieReset := rfl
@[simp] theorem updStart_meshOff : (updStart s f).meshOff = s.meshOff := rfl
@[simp] theorem updStart_accruals : (updStart s f).accruals = s.accruals := rfl
@[simp] theorem updStart_memGates : (updStart s f).memGates = s.memGates := rfl
@[simp] theorem updStart_upAt : (updStart s f).upAt = s.upAt := rfl
@[simp] theorem updStart_bench : (updStart s f).bench = s.bench := rfl
@[simp] theorem updStart_slice : (updStart s f).slice = s.slice := rfl
@[simp] theorem updStart_ny : (updStart s f).ny = s.ny := rfl
@[simp] theorem updStart_nz : (updStart s f).nz = s.nz := rfl
@[simp] theorem updStart_cores : (updStart s f).cores = s.cores := rfl
@[simp] theorem updStart_routers : (updStart s f).routers = s.routers := rfl
@[simp] theorem updStart_frs : (updStart s f).frs = s.frs := rfl
@[simp] theorem updStart_t1 : (updStart s f).t1 = s.t1 := rfl
@[simp] theorem updStart_t1line : (updStart s f).t1line = s.t1line := rfl
@[simp] theorem updStart_t1clean : (updStart s f).t1clean = s.t1clean := rfl
@[simp] theorem updStart_t2 : (updStart s f).t2 = s.t2 := rfl
@[simp] theorem updStart_t2bad : (updStart s f).t2bad = s.t2bad := rfl
@[simp] theorem updStart_mbc : (updStart s f).mbc = s.mbc := rfl
@[simp] theorem updStart_rowsUsed : (updStart s f).rowsUsed = s.rowsUsed := rfl
@[simp] theorem updStart_badRows : (updStart s f).badRows = s.badRows := rfl
@[simp] theorem updStart_badDies : (updStart s f).badDies = s.badDies := rfl
@[simp] theorem updStart_homeQ : (updStart s f).homeQ = s.homeQ := rfl
@[simp] theorem updStart_mover : (updStart s f).mover = s.mover := rfl
@[simp] theorem updStart_ports : (updStart s f).ports = s.ports := rfl
@[simp] theorem updStart_retained : (updStart s f).retained = s.retained := rfl
@[simp] theorem updStart_cab : (updStart s f).cab = s.cab := rfl
@[simp] theorem updStart_cabNext : (updStart s f).cabNext = s.cabNext := rfl
@[simp] theorem updStart_svnFloor : (updStart s f).svnFloor = s.svnFloor := rfl
@[simp] theorem updStart_plan : (updStart s f).plan = s.plan := rfl
@[simp] theorem updStart_planNext : (updStart s f).planNext = s.planNext := rfl
@[simp] theorem updStart_nwKept : (updStart s f).nwKept = s.nwKept := rfl
@[simp] theorem updStart_container : (updStart s f).container = s.container := rfl
@[simp] theorem updStart_power : (updStart s f).power = s.power := rfl
@[simp] theorem updStart_smap : (updStart s f).smap = s.smap := rfl
@[simp] theorem updStart_droop : (updStart s f).droop = s.droop := rfl
@[simp] theorem updStart_memUnits : (updStart s f).memUnits = s.memUnits := rfl
@[simp] theorem updStart_departing : (updStart s f).departing = s.departing := rfl
@[simp] theorem updStart_host : (updStart s f).host = s.host := rfl
@[simp] theorem updStart_trackers : (updStart s f).trackers = s.trackers := rfl
@[simp] theorem updStart_serv : (updStart s f).serv = s.serv := rfl
@[simp] theorem updStart_loader : (updStart s f).loader = s.loader := rfl
@[simp] theorem updStart_start : (updStart s f).start = f s.start := rfl
@[simp] theorem updStart_bst : (updStart s f).bst = s.bst := rfl
@[simp] theorem updStart_fo : (updStart s f).fo = s.fo := rfl
@[simp] theorem updStart_gop : (updStart s f).gop = s.gop := rfl
@[simp] theorem updStart_sec : (updStart s f).sec = s.sec := rfl
@[simp] theorem updStart_trc : (updStart s f).trc = s.trc := rfl
@[simp] theorem updStart_marks : (updStart s f).marks = s.marks := rfl

end

/-! ## updServ -/

section
variable (f : ServSt → ServSt)

@[simp] theorem updServ_now : (updServ s f).now = s.now := rfl
@[simp] theorem updServ_pending : (updServ s f).pending = s.pending := rfl
@[simp] theorem updServ_fresh : (updServ s f).fresh = s.fresh := rfl
@[simp] theorem updServ_lastRead : (updServ s f).lastRead = s.lastRead := rfl
@[simp] theorem updServ_lastBytes : (updServ s f).lastBytes = s.lastBytes := rfl
@[simp] theorem updServ_lastResp : (updServ s f).lastResp = s.lastResp := rfl
@[simp] theorem updServ_lastSent : (updServ s f).lastSent = s.lastSent := rfl
@[simp] theorem updServ_lastPort : (updServ s f).lastPort = s.lastPort := rfl
@[simp] theorem updServ_lastNote : (updServ s f).lastNote = s.lastNote := rfl
@[simp] theorem updServ_regs : (updServ s f).regs = s.regs := rfl
@[simp] theorem updServ_cnt : (updServ s f).cnt = s.cnt := rfl
@[simp] theorem updServ_cntLatch : (updServ s f).cntLatch = s.cntLatch := rfl
@[simp] theorem updServ_trans : (updServ s f).trans = s.trans := rfl
@[simp] theorem updServ_softWait : (updServ s f).softWait = s.softWait := rfl
@[simp] theorem updServ_armT : (updServ s f).armT = s.armT := rfl
@[simp] theorem updServ_shadow : (updServ s f).shadow = s.shadow := rfl
@[simp] theorem updServ_service : (updServ s f).service = s.service := rfl
@[simp] theorem updServ_rails : (updServ s f).rails = s.rails := rfl
@[simp] theorem updServ_dieReset : (updServ s f).dieReset = s.dieReset := rfl
@[simp] theorem updServ_meshOff : (updServ s f).meshOff = s.meshOff := rfl
@[simp] theorem updServ_accruals : (updServ s f).accruals = s.accruals := rfl
@[simp] theorem updServ_memGates : (updServ s f).memGates = s.memGates := rfl
@[simp] theorem updServ_upAt : (updServ s f).upAt = s.upAt := rfl
@[simp] theorem updServ_bench : (updServ s f).bench = s.bench := rfl
@[simp] theorem updServ_slice : (updServ s f).slice = s.slice := rfl
@[simp] theorem updServ_ny : (updServ s f).ny = s.ny := rfl
@[simp] theorem updServ_nz : (updServ s f).nz = s.nz := rfl
@[simp] theorem updServ_cores : (updServ s f).cores = s.cores := rfl
@[simp] theorem updServ_routers : (updServ s f).routers = s.routers := rfl
@[simp] theorem updServ_frs : (updServ s f).frs = s.frs := rfl
@[simp] theorem updServ_t1 : (updServ s f).t1 = s.t1 := rfl
@[simp] theorem updServ_t1line : (updServ s f).t1line = s.t1line := rfl
@[simp] theorem updServ_t1clean : (updServ s f).t1clean = s.t1clean := rfl
@[simp] theorem updServ_t2 : (updServ s f).t2 = s.t2 := rfl
@[simp] theorem updServ_t2bad : (updServ s f).t2bad = s.t2bad := rfl
@[simp] theorem updServ_mbc : (updServ s f).mbc = s.mbc := rfl
@[simp] theorem updServ_rowsUsed : (updServ s f).rowsUsed = s.rowsUsed := rfl
@[simp] theorem updServ_badRows : (updServ s f).badRows = s.badRows := rfl
@[simp] theorem updServ_badDies : (updServ s f).badDies = s.badDies := rfl
@[simp] theorem updServ_homeQ : (updServ s f).homeQ = s.homeQ := rfl
@[simp] theorem updServ_mover : (updServ s f).mover = s.mover := rfl
@[simp] theorem updServ_ports : (updServ s f).ports = s.ports := rfl
@[simp] theorem updServ_retained : (updServ s f).retained = s.retained := rfl
@[simp] theorem updServ_cab : (updServ s f).cab = s.cab := rfl
@[simp] theorem updServ_cabNext : (updServ s f).cabNext = s.cabNext := rfl
@[simp] theorem updServ_svnFloor : (updServ s f).svnFloor = s.svnFloor := rfl
@[simp] theorem updServ_plan : (updServ s f).plan = s.plan := rfl
@[simp] theorem updServ_planNext : (updServ s f).planNext = s.planNext := rfl
@[simp] theorem updServ_nwKept : (updServ s f).nwKept = s.nwKept := rfl
@[simp] theorem updServ_container : (updServ s f).container = s.container := rfl
@[simp] theorem updServ_power : (updServ s f).power = s.power := rfl
@[simp] theorem updServ_smap : (updServ s f).smap = s.smap := rfl
@[simp] theorem updServ_droop : (updServ s f).droop = s.droop := rfl
@[simp] theorem updServ_memUnits : (updServ s f).memUnits = s.memUnits := rfl
@[simp] theorem updServ_departing : (updServ s f).departing = s.departing := rfl
@[simp] theorem updServ_host : (updServ s f).host = s.host := rfl
@[simp] theorem updServ_trackers : (updServ s f).trackers = s.trackers := rfl
@[simp] theorem updServ_serv : (updServ s f).serv = f s.serv := rfl
@[simp] theorem updServ_loader : (updServ s f).loader = s.loader := rfl
@[simp] theorem updServ_start : (updServ s f).start = s.start := rfl
@[simp] theorem updServ_bst : (updServ s f).bst = s.bst := rfl
@[simp] theorem updServ_fo : (updServ s f).fo = s.fo := rfl
@[simp] theorem updServ_gop : (updServ s f).gop = s.gop := rfl
@[simp] theorem updServ_sec : (updServ s f).sec = s.sec := rfl
@[simp] theorem updServ_trc : (updServ s f).trc = s.trc := rfl
@[simp] theorem updServ_marks : (updServ s f).marks = s.marks := rfl

end

/-! ## updTracker -/

section
variable (k : Nat) (f : Tracker → Tracker)

@[simp] theorem updTracker_now : (updTracker s k f).now = s.now := rfl
@[simp] theorem updTracker_pending : (updTracker s k f).pending = s.pending := rfl
@[simp] theorem updTracker_fresh : (updTracker s k f).fresh = s.fresh := rfl
@[simp] theorem updTracker_lastRead : (updTracker s k f).lastRead = s.lastRead := rfl
@[simp] theorem updTracker_lastBytes : (updTracker s k f).lastBytes = s.lastBytes := rfl
@[simp] theorem updTracker_lastResp : (updTracker s k f).lastResp = s.lastResp := rfl
@[simp] theorem updTracker_lastSent : (updTracker s k f).lastSent = s.lastSent := rfl
@[simp] theorem updTracker_lastPort : (updTracker s k f).lastPort = s.lastPort := rfl
@[simp] theorem updTracker_lastNote : (updTracker s k f).lastNote = s.lastNote := rfl
@[simp] theorem updTracker_regs : (updTracker s k f).regs = s.regs := rfl
@[simp] theorem updTracker_cnt : (updTracker s k f).cnt = s.cnt := rfl
@[simp] theorem updTracker_cntLatch : (updTracker s k f).cntLatch = s.cntLatch := rfl
@[simp] theorem updTracker_trans : (updTracker s k f).trans = s.trans := rfl
@[simp] theorem updTracker_softWait : (updTracker s k f).softWait = s.softWait := rfl
@[simp] theorem updTracker_armT : (updTracker s k f).armT = s.armT := rfl
@[simp] theorem updTracker_shadow : (updTracker s k f).shadow = s.shadow := rfl
@[simp] theorem updTracker_service : (updTracker s k f).service = s.service := rfl
@[simp] theorem updTracker_rails : (updTracker s k f).rails = s.rails := rfl
@[simp] theorem updTracker_dieReset : (updTracker s k f).dieReset = s.dieReset := rfl
@[simp] theorem updTracker_meshOff : (updTracker s k f).meshOff = s.meshOff := rfl
@[simp] theorem updTracker_accruals : (updTracker s k f).accruals = s.accruals := rfl
@[simp] theorem updTracker_memGates : (updTracker s k f).memGates = s.memGates := rfl
@[simp] theorem updTracker_upAt : (updTracker s k f).upAt = s.upAt := rfl
@[simp] theorem updTracker_bench : (updTracker s k f).bench = s.bench := rfl
@[simp] theorem updTracker_slice : (updTracker s k f).slice = s.slice := rfl
@[simp] theorem updTracker_ny : (updTracker s k f).ny = s.ny := rfl
@[simp] theorem updTracker_nz : (updTracker s k f).nz = s.nz := rfl
@[simp] theorem updTracker_cores : (updTracker s k f).cores = s.cores := rfl
@[simp] theorem updTracker_routers : (updTracker s k f).routers = s.routers := rfl
@[simp] theorem updTracker_frs : (updTracker s k f).frs = s.frs := rfl
@[simp] theorem updTracker_t1 : (updTracker s k f).t1 = s.t1 := rfl
@[simp] theorem updTracker_t1line : (updTracker s k f).t1line = s.t1line := rfl
@[simp] theorem updTracker_t1clean : (updTracker s k f).t1clean = s.t1clean := rfl
@[simp] theorem updTracker_t2 : (updTracker s k f).t2 = s.t2 := rfl
@[simp] theorem updTracker_t2bad : (updTracker s k f).t2bad = s.t2bad := rfl
@[simp] theorem updTracker_mbc : (updTracker s k f).mbc = s.mbc := rfl
@[simp] theorem updTracker_rowsUsed : (updTracker s k f).rowsUsed = s.rowsUsed := rfl
@[simp] theorem updTracker_badRows : (updTracker s k f).badRows = s.badRows := rfl
@[simp] theorem updTracker_badDies : (updTracker s k f).badDies = s.badDies := rfl
@[simp] theorem updTracker_homeQ : (updTracker s k f).homeQ = s.homeQ := rfl
@[simp] theorem updTracker_mover : (updTracker s k f).mover = s.mover := rfl
@[simp] theorem updTracker_ports : (updTracker s k f).ports = s.ports := rfl
@[simp] theorem updTracker_retained : (updTracker s k f).retained = s.retained := rfl
@[simp] theorem updTracker_cab : (updTracker s k f).cab = s.cab := rfl
@[simp] theorem updTracker_cabNext : (updTracker s k f).cabNext = s.cabNext := rfl
@[simp] theorem updTracker_svnFloor : (updTracker s k f).svnFloor = s.svnFloor := rfl
@[simp] theorem updTracker_plan : (updTracker s k f).plan = s.plan := rfl
@[simp] theorem updTracker_planNext : (updTracker s k f).planNext = s.planNext := rfl
@[simp] theorem updTracker_nwKept : (updTracker s k f).nwKept = s.nwKept := rfl
@[simp] theorem updTracker_container : (updTracker s k f).container = s.container := rfl
@[simp] theorem updTracker_power : (updTracker s k f).power = s.power := rfl
@[simp] theorem updTracker_smap : (updTracker s k f).smap = s.smap := rfl
@[simp] theorem updTracker_droop : (updTracker s k f).droop = s.droop := rfl
@[simp] theorem updTracker_memUnits : (updTracker s k f).memUnits = s.memUnits := rfl
@[simp] theorem updTracker_departing : (updTracker s k f).departing = s.departing := rfl
@[simp] theorem updTracker_host : (updTracker s k f).host = s.host := rfl
@[simp] theorem updTracker_serv : (updTracker s k f).serv = s.serv := rfl
@[simp] theorem updTracker_loader : (updTracker s k f).loader = s.loader := rfl
@[simp] theorem updTracker_start : (updTracker s k f).start = s.start := rfl
@[simp] theorem updTracker_bst : (updTracker s k f).bst = s.bst := rfl
@[simp] theorem updTracker_fo : (updTracker s k f).fo = s.fo := rfl
@[simp] theorem updTracker_gop : (updTracker s k f).gop = s.gop := rfl
@[simp] theorem updTracker_sec : (updTracker s k f).sec = s.sec := rfl
@[simp] theorem updTracker_trc : (updTracker s k f).trc = s.trc := rfl
@[simp] theorem updTracker_marks : (updTracker s k f).marks = s.marks := rfl

end

/-! ## putPort -/

section
variable (p : Nat) (x : PortSt)

@[simp] theorem putPort_now : (putPort s p x).now = s.now := rfl
@[simp] theorem putPort_pending : (putPort s p x).pending = s.pending := rfl
@[simp] theorem putPort_fresh : (putPort s p x).fresh = s.fresh := rfl
@[simp] theorem putPort_lastRead : (putPort s p x).lastRead = s.lastRead := rfl
@[simp] theorem putPort_lastBytes : (putPort s p x).lastBytes = s.lastBytes := rfl
@[simp] theorem putPort_lastResp : (putPort s p x).lastResp = s.lastResp := rfl
@[simp] theorem putPort_lastSent : (putPort s p x).lastSent = s.lastSent := rfl
@[simp] theorem putPort_lastPort : (putPort s p x).lastPort = s.lastPort := rfl
@[simp] theorem putPort_lastNote : (putPort s p x).lastNote = s.lastNote := rfl
@[simp] theorem putPort_regs : (putPort s p x).regs = s.regs := rfl
@[simp] theorem putPort_cnt : (putPort s p x).cnt = s.cnt := rfl
@[simp] theorem putPort_cntLatch : (putPort s p x).cntLatch = s.cntLatch := rfl
@[simp] theorem putPort_trans : (putPort s p x).trans = s.trans := rfl
@[simp] theorem putPort_softWait : (putPort s p x).softWait = s.softWait := rfl
@[simp] theorem putPort_armT : (putPort s p x).armT = s.armT := rfl
@[simp] theorem putPort_shadow : (putPort s p x).shadow = s.shadow := rfl
@[simp] theorem putPort_service : (putPort s p x).service = s.service := rfl
@[simp] theorem putPort_rails : (putPort s p x).rails = s.rails := rfl
@[simp] theorem putPort_dieReset : (putPort s p x).dieReset = s.dieReset := rfl
@[simp] theorem putPort_meshOff : (putPort s p x).meshOff = s.meshOff := rfl
@[simp] theorem putPort_accruals : (putPort s p x).accruals = s.accruals := rfl
@[simp] theorem putPort_memGates : (putPort s p x).memGates = s.memGates := rfl
@[simp] theorem putPort_upAt : (putPort s p x).upAt = s.upAt := rfl
@[simp] theorem putPort_bench : (putPort s p x).bench = s.bench := rfl
@[simp] theorem putPort_slice : (putPort s p x).slice = s.slice := rfl
@[simp] theorem putPort_ny : (putPort s p x).ny = s.ny := rfl
@[simp] theorem putPort_nz : (putPort s p x).nz = s.nz := rfl
@[simp] theorem putPort_cores : (putPort s p x).cores = s.cores := rfl
@[simp] theorem putPort_routers : (putPort s p x).routers = s.routers := rfl
@[simp] theorem putPort_frs : (putPort s p x).frs = s.frs := rfl
@[simp] theorem putPort_t1 : (putPort s p x).t1 = s.t1 := rfl
@[simp] theorem putPort_t1line : (putPort s p x).t1line = s.t1line := rfl
@[simp] theorem putPort_t1clean : (putPort s p x).t1clean = s.t1clean := rfl
@[simp] theorem putPort_t2 : (putPort s p x).t2 = s.t2 := rfl
@[simp] theorem putPort_t2bad : (putPort s p x).t2bad = s.t2bad := rfl
@[simp] theorem putPort_mbc : (putPort s p x).mbc = s.mbc := rfl
@[simp] theorem putPort_rowsUsed : (putPort s p x).rowsUsed = s.rowsUsed := rfl
@[simp] theorem putPort_badRows : (putPort s p x).badRows = s.badRows := rfl
@[simp] theorem putPort_badDies : (putPort s p x).badDies = s.badDies := rfl
@[simp] theorem putPort_homeQ : (putPort s p x).homeQ = s.homeQ := rfl
@[simp] theorem putPort_mover : (putPort s p x).mover = s.mover := rfl
@[simp] theorem putPort_ports : (putPort s p x).ports = mapPut PortSt.reset s.ports p x := rfl
@[simp] theorem putPort_retained : (putPort s p x).retained = s.retained := rfl
@[simp] theorem putPort_cab : (putPort s p x).cab = s.cab := rfl
@[simp] theorem putPort_cabNext : (putPort s p x).cabNext = s.cabNext := rfl
@[simp] theorem putPort_svnFloor : (putPort s p x).svnFloor = s.svnFloor := rfl
@[simp] theorem putPort_plan : (putPort s p x).plan = s.plan := rfl
@[simp] theorem putPort_planNext : (putPort s p x).planNext = s.planNext := rfl
@[simp] theorem putPort_nwKept : (putPort s p x).nwKept = s.nwKept := rfl
@[simp] theorem putPort_container : (putPort s p x).container = s.container := rfl
@[simp] theorem putPort_power : (putPort s p x).power = s.power := rfl
@[simp] theorem putPort_smap : (putPort s p x).smap = s.smap := rfl
@[simp] theorem putPort_droop : (putPort s p x).droop = s.droop := rfl
@[simp] theorem putPort_memUnits : (putPort s p x).memUnits = s.memUnits := rfl
@[simp] theorem putPort_departing : (putPort s p x).departing = s.departing := rfl
@[simp] theorem putPort_host : (putPort s p x).host = s.host := rfl
@[simp] theorem putPort_trackers : (putPort s p x).trackers = s.trackers := rfl
@[simp] theorem putPort_serv : (putPort s p x).serv = s.serv := rfl
@[simp] theorem putPort_loader : (putPort s p x).loader = s.loader := rfl
@[simp] theorem putPort_start : (putPort s p x).start = s.start := rfl
@[simp] theorem putPort_bst : (putPort s p x).bst = s.bst := rfl
@[simp] theorem putPort_fo : (putPort s p x).fo = s.fo := rfl
@[simp] theorem putPort_gop : (putPort s p x).gop = s.gop := rfl
@[simp] theorem putPort_sec : (putPort s p x).sec = s.sec := rfl
@[simp] theorem putPort_trc : (putPort s p x).trc = s.trc := rfl
@[simp] theorem putPort_marks : (putPort s p x).marks = s.marks := rfl

end

/-! ## putMbc -/

section
variable (st : Nat) (x : Mbc)

@[simp] theorem putMbc_now : (putMbc s st x).now = s.now := rfl
@[simp] theorem putMbc_pending : (putMbc s st x).pending = s.pending := rfl
@[simp] theorem putMbc_fresh : (putMbc s st x).fresh = s.fresh := rfl
@[simp] theorem putMbc_lastRead : (putMbc s st x).lastRead = s.lastRead := rfl
@[simp] theorem putMbc_lastBytes : (putMbc s st x).lastBytes = s.lastBytes := rfl
@[simp] theorem putMbc_lastResp : (putMbc s st x).lastResp = s.lastResp := rfl
@[simp] theorem putMbc_lastSent : (putMbc s st x).lastSent = s.lastSent := rfl
@[simp] theorem putMbc_lastPort : (putMbc s st x).lastPort = s.lastPort := rfl
@[simp] theorem putMbc_lastNote : (putMbc s st x).lastNote = s.lastNote := rfl
@[simp] theorem putMbc_regs : (putMbc s st x).regs = s.regs := rfl
@[simp] theorem putMbc_cnt : (putMbc s st x).cnt = s.cnt := rfl
@[simp] theorem putMbc_cntLatch : (putMbc s st x).cntLatch = s.cntLatch := rfl
@[simp] theorem putMbc_trans : (putMbc s st x).trans = s.trans := rfl
@[simp] theorem putMbc_softWait : (putMbc s st x).softWait = s.softWait := rfl
@[simp] theorem putMbc_armT : (putMbc s st x).armT = s.armT := rfl
@[simp] theorem putMbc_shadow : (putMbc s st x).shadow = s.shadow := rfl
@[simp] theorem putMbc_service : (putMbc s st x).service = s.service := rfl
@[simp] theorem putMbc_rails : (putMbc s st x).rails = s.rails := rfl
@[simp] theorem putMbc_dieReset : (putMbc s st x).dieReset = s.dieReset := rfl
@[simp] theorem putMbc_meshOff : (putMbc s st x).meshOff = s.meshOff := rfl
@[simp] theorem putMbc_accruals : (putMbc s st x).accruals = s.accruals := rfl
@[simp] theorem putMbc_memGates : (putMbc s st x).memGates = s.memGates := rfl
@[simp] theorem putMbc_upAt : (putMbc s st x).upAt = s.upAt := rfl
@[simp] theorem putMbc_bench : (putMbc s st x).bench = s.bench := rfl
@[simp] theorem putMbc_slice : (putMbc s st x).slice = s.slice := rfl
@[simp] theorem putMbc_ny : (putMbc s st x).ny = s.ny := rfl
@[simp] theorem putMbc_nz : (putMbc s st x).nz = s.nz := rfl
@[simp] theorem putMbc_cores : (putMbc s st x).cores = s.cores := rfl
@[simp] theorem putMbc_routers : (putMbc s st x).routers = s.routers := rfl
@[simp] theorem putMbc_frs : (putMbc s st x).frs = s.frs := rfl
@[simp] theorem putMbc_t1 : (putMbc s st x).t1 = s.t1 := rfl
@[simp] theorem putMbc_t1line : (putMbc s st x).t1line = s.t1line := rfl
@[simp] theorem putMbc_t1clean : (putMbc s st x).t1clean = s.t1clean := rfl
@[simp] theorem putMbc_t2 : (putMbc s st x).t2 = s.t2 := rfl
@[simp] theorem putMbc_t2bad : (putMbc s st x).t2bad = s.t2bad := rfl
@[simp] theorem putMbc_mbc : (putMbc s st x).mbc = mapPut Mbc.reset s.mbc st x := rfl
@[simp] theorem putMbc_rowsUsed : (putMbc s st x).rowsUsed = s.rowsUsed := rfl
@[simp] theorem putMbc_badRows : (putMbc s st x).badRows = s.badRows := rfl
@[simp] theorem putMbc_badDies : (putMbc s st x).badDies = s.badDies := rfl
@[simp] theorem putMbc_homeQ : (putMbc s st x).homeQ = s.homeQ := rfl
@[simp] theorem putMbc_mover : (putMbc s st x).mover = s.mover := rfl
@[simp] theorem putMbc_ports : (putMbc s st x).ports = s.ports := rfl
@[simp] theorem putMbc_retained : (putMbc s st x).retained = s.retained := rfl
@[simp] theorem putMbc_cab : (putMbc s st x).cab = s.cab := rfl
@[simp] theorem putMbc_cabNext : (putMbc s st x).cabNext = s.cabNext := rfl
@[simp] theorem putMbc_svnFloor : (putMbc s st x).svnFloor = s.svnFloor := rfl
@[simp] theorem putMbc_plan : (putMbc s st x).plan = s.plan := rfl
@[simp] theorem putMbc_planNext : (putMbc s st x).planNext = s.planNext := rfl
@[simp] theorem putMbc_nwKept : (putMbc s st x).nwKept = s.nwKept := rfl
@[simp] theorem putMbc_container : (putMbc s st x).container = s.container := rfl
@[simp] theorem putMbc_power : (putMbc s st x).power = s.power := rfl
@[simp] theorem putMbc_smap : (putMbc s st x).smap = s.smap := rfl
@[simp] theorem putMbc_droop : (putMbc s st x).droop = s.droop := rfl
@[simp] theorem putMbc_memUnits : (putMbc s st x).memUnits = s.memUnits := rfl
@[simp] theorem putMbc_departing : (putMbc s st x).departing = s.departing := rfl
@[simp] theorem putMbc_host : (putMbc s st x).host = s.host := rfl
@[simp] theorem putMbc_trackers : (putMbc s st x).trackers = s.trackers := rfl
@[simp] theorem putMbc_serv : (putMbc s st x).serv = s.serv := rfl
@[simp] theorem putMbc_loader : (putMbc s st x).loader = s.loader := rfl
@[simp] theorem putMbc_start : (putMbc s st x).start = s.start := rfl
@[simp] theorem putMbc_bst : (putMbc s st x).bst = s.bst := rfl
@[simp] theorem putMbc_fo : (putMbc s st x).fo = s.fo := rfl
@[simp] theorem putMbc_gop : (putMbc s st x).gop = s.gop := rfl
@[simp] theorem putMbc_sec : (putMbc s st x).sec = s.sec := rfl
@[simp] theorem putMbc_trc : (putMbc s st x).trc = s.trc := rfl
@[simp] theorem putMbc_marks : (putMbc s st x).marks = s.marks := rfl

end

/-! ## setLine -/

section
variable (l : Nat) (v : LineSt)

@[simp] theorem setLine_now : (setLine s l v).now = s.now := rfl
@[simp] theorem setLine_pending : (setLine s l v).pending = s.pending := rfl
@[simp] theorem setLine_fresh : (setLine s l v).fresh = s.fresh := rfl
@[simp] theorem setLine_lastRead : (setLine s l v).lastRead = s.lastRead := rfl
@[simp] theorem setLine_lastBytes : (setLine s l v).lastBytes = s.lastBytes := rfl
@[simp] theorem setLine_lastResp : (setLine s l v).lastResp = s.lastResp := rfl
@[simp] theorem setLine_lastSent : (setLine s l v).lastSent = s.lastSent := rfl
@[simp] theorem setLine_lastPort : (setLine s l v).lastPort = s.lastPort := rfl
@[simp] theorem setLine_lastNote : (setLine s l v).lastNote = s.lastNote := rfl
@[simp] theorem setLine_regs : (setLine s l v).regs = s.regs := rfl
@[simp] theorem setLine_cnt : (setLine s l v).cnt = s.cnt := rfl
@[simp] theorem setLine_cntLatch : (setLine s l v).cntLatch = s.cntLatch := rfl
@[simp] theorem setLine_trans : (setLine s l v).trans = s.trans := rfl
@[simp] theorem setLine_softWait : (setLine s l v).softWait = s.softWait := rfl
@[simp] theorem setLine_armT : (setLine s l v).armT = s.armT := rfl
@[simp] theorem setLine_shadow : (setLine s l v).shadow = s.shadow := rfl
@[simp] theorem setLine_service : (setLine s l v).service = s.service := rfl
@[simp] theorem setLine_rails : (setLine s l v).rails = s.rails := rfl
@[simp] theorem setLine_dieReset : (setLine s l v).dieReset = s.dieReset := rfl
@[simp] theorem setLine_meshOff : (setLine s l v).meshOff = s.meshOff := rfl
@[simp] theorem setLine_accruals : (setLine s l v).accruals = s.accruals := rfl
@[simp] theorem setLine_memGates : (setLine s l v).memGates = s.memGates := rfl
@[simp] theorem setLine_upAt : (setLine s l v).upAt = s.upAt := rfl
@[simp] theorem setLine_bench : (setLine s l v).bench = s.bench := rfl
@[simp] theorem setLine_slice : (setLine s l v).slice = s.slice := rfl
@[simp] theorem setLine_ny : (setLine s l v).ny = s.ny := rfl
@[simp] theorem setLine_nz : (setLine s l v).nz = s.nz := rfl
@[simp] theorem setLine_cores : (setLine s l v).cores = s.cores := rfl
@[simp] theorem setLine_routers : (setLine s l v).routers = s.routers := rfl
@[simp] theorem setLine_frs : (setLine s l v).frs = s.frs := rfl
@[simp] theorem setLine_t1 : (setLine s l v).t1 = s.t1 := rfl
@[simp] theorem setLine_t1line : (setLine s l v).t1line = mapPut (lineDefault s l) s.t1line l v := rfl
@[simp] theorem setLine_t1clean : (setLine s l v).t1clean = s.t1clean := rfl
@[simp] theorem setLine_t2 : (setLine s l v).t2 = s.t2 := rfl
@[simp] theorem setLine_t2bad : (setLine s l v).t2bad = s.t2bad := rfl
@[simp] theorem setLine_mbc : (setLine s l v).mbc = s.mbc := rfl
@[simp] theorem setLine_rowsUsed : (setLine s l v).rowsUsed = s.rowsUsed := rfl
@[simp] theorem setLine_badRows : (setLine s l v).badRows = s.badRows := rfl
@[simp] theorem setLine_badDies : (setLine s l v).badDies = s.badDies := rfl
@[simp] theorem setLine_homeQ : (setLine s l v).homeQ = s.homeQ := rfl
@[simp] theorem setLine_mover : (setLine s l v).mover = s.mover := rfl
@[simp] theorem setLine_ports : (setLine s l v).ports = s.ports := rfl
@[simp] theorem setLine_retained : (setLine s l v).retained = s.retained := rfl
@[simp] theorem setLine_cab : (setLine s l v).cab = s.cab := rfl
@[simp] theorem setLine_cabNext : (setLine s l v).cabNext = s.cabNext := rfl
@[simp] theorem setLine_svnFloor : (setLine s l v).svnFloor = s.svnFloor := rfl
@[simp] theorem setLine_plan : (setLine s l v).plan = s.plan := rfl
@[simp] theorem setLine_planNext : (setLine s l v).planNext = s.planNext := rfl
@[simp] theorem setLine_nwKept : (setLine s l v).nwKept = s.nwKept := rfl
@[simp] theorem setLine_container : (setLine s l v).container = s.container := rfl
@[simp] theorem setLine_power : (setLine s l v).power = s.power := rfl
@[simp] theorem setLine_smap : (setLine s l v).smap = s.smap := rfl
@[simp] theorem setLine_droop : (setLine s l v).droop = s.droop := rfl
@[simp] theorem setLine_memUnits : (setLine s l v).memUnits = s.memUnits := rfl
@[simp] theorem setLine_departing : (setLine s l v).departing = s.departing := rfl
@[simp] theorem setLine_host : (setLine s l v).host = s.host := rfl
@[simp] theorem setLine_trackers : (setLine s l v).trackers = s.trackers := rfl
@[simp] theorem setLine_serv : (setLine s l v).serv = s.serv := rfl
@[simp] theorem setLine_loader : (setLine s l v).loader = s.loader := rfl
@[simp] theorem setLine_start : (setLine s l v).start = s.start := rfl
@[simp] theorem setLine_bst : (setLine s l v).bst = s.bst := rfl
@[simp] theorem setLine_fo : (setLine s l v).fo = s.fo := rfl
@[simp] theorem setLine_gop : (setLine s l v).gop = s.gop := rfl
@[simp] theorem setLine_sec : (setLine s l v).sec = s.sec := rfl
@[simp] theorem setLine_trc : (setLine s l v).trc = s.trc := rfl
@[simp] theorem setLine_marks : (setLine s l v).marks = s.marks := rfl

end

/-! ## putMover -/

section
variable (x : Mover)

@[simp] theorem putMover_now : (putMover s x).now = s.now := rfl
@[simp] theorem putMover_pending : (putMover s x).pending = s.pending := rfl
@[simp] theorem putMover_fresh : (putMover s x).fresh = s.fresh := rfl
@[simp] theorem putMover_lastRead : (putMover s x).lastRead = s.lastRead := rfl
@[simp] theorem putMover_lastBytes : (putMover s x).lastBytes = s.lastBytes := rfl
@[simp] theorem putMover_lastResp : (putMover s x).lastResp = s.lastResp := rfl
@[simp] theorem putMover_lastSent : (putMover s x).lastSent = s.lastSent := rfl
@[simp] theorem putMover_lastPort : (putMover s x).lastPort = s.lastPort := rfl
@[simp] theorem putMover_lastNote : (putMover s x).lastNote = s.lastNote := rfl
@[simp] theorem putMover_regs : (putMover s x).regs = s.regs := rfl
@[simp] theorem putMover_cnt : (putMover s x).cnt = s.cnt := rfl
@[simp] theorem putMover_cntLatch : (putMover s x).cntLatch = s.cntLatch := rfl
@[simp] theorem putMover_trans : (putMover s x).trans = s.trans := rfl
@[simp] theorem putMover_softWait : (putMover s x).softWait = s.softWait := rfl
@[simp] theorem putMover_armT : (putMover s x).armT = s.armT := rfl
@[simp] theorem putMover_shadow : (putMover s x).shadow = s.shadow := rfl
@[simp] theorem putMover_service : (putMover s x).service = s.service := rfl
@[simp] theorem putMover_rails : (putMover s x).rails = s.rails := rfl
@[simp] theorem putMover_dieReset : (putMover s x).dieReset = s.dieReset := rfl
@[simp] theorem putMover_meshOff : (putMover s x).meshOff = s.meshOff := rfl
@[simp] theorem putMover_accruals : (putMover s x).accruals = s.accruals := rfl
@[simp] theorem putMover_memGates : (putMover s x).memGates = s.memGates := rfl
@[simp] theorem putMover_upAt : (putMover s x).upAt = s.upAt := rfl
@[simp] theorem putMover_bench : (putMover s x).bench = s.bench := rfl
@[simp] theorem putMover_slice : (putMover s x).slice = s.slice := rfl
@[simp] theorem putMover_ny : (putMover s x).ny = s.ny := rfl
@[simp] theorem putMover_nz : (putMover s x).nz = s.nz := rfl
@[simp] theorem putMover_cores : (putMover s x).cores = s.cores := rfl
@[simp] theorem putMover_routers : (putMover s x).routers = s.routers := rfl
@[simp] theorem putMover_frs : (putMover s x).frs = s.frs := rfl
@[simp] theorem putMover_t1 : (putMover s x).t1 = s.t1 := rfl
@[simp] theorem putMover_t1line : (putMover s x).t1line = s.t1line := rfl
@[simp] theorem putMover_t1clean : (putMover s x).t1clean = s.t1clean := rfl
@[simp] theorem putMover_t2 : (putMover s x).t2 = s.t2 := rfl
@[simp] theorem putMover_t2bad : (putMover s x).t2bad = s.t2bad := rfl
@[simp] theorem putMover_mbc : (putMover s x).mbc = s.mbc := rfl
@[simp] theorem putMover_rowsUsed : (putMover s x).rowsUsed = s.rowsUsed := rfl
@[simp] theorem putMover_badRows : (putMover s x).badRows = s.badRows := rfl
@[simp] theorem putMover_badDies : (putMover s x).badDies = s.badDies := rfl
@[simp] theorem putMover_homeQ : (putMover s x).homeQ = s.homeQ := rfl
@[simp] theorem putMover_mover : (putMover s x).mover = x := rfl
@[simp] theorem putMover_ports : (putMover s x).ports = s.ports := rfl
@[simp] theorem putMover_retained : (putMover s x).retained = s.retained := rfl
@[simp] theorem putMover_cab : (putMover s x).cab = s.cab := rfl
@[simp] theorem putMover_cabNext : (putMover s x).cabNext = s.cabNext := rfl
@[simp] theorem putMover_svnFloor : (putMover s x).svnFloor = s.svnFloor := rfl
@[simp] theorem putMover_plan : (putMover s x).plan = s.plan := rfl
@[simp] theorem putMover_planNext : (putMover s x).planNext = s.planNext := rfl
@[simp] theorem putMover_nwKept : (putMover s x).nwKept = s.nwKept := rfl
@[simp] theorem putMover_container : (putMover s x).container = s.container := rfl
@[simp] theorem putMover_power : (putMover s x).power = s.power := rfl
@[simp] theorem putMover_smap : (putMover s x).smap = s.smap := rfl
@[simp] theorem putMover_droop : (putMover s x).droop = s.droop := rfl
@[simp] theorem putMover_memUnits : (putMover s x).memUnits = s.memUnits := rfl
@[simp] theorem putMover_departing : (putMover s x).departing = s.departing := rfl
@[simp] theorem putMover_host : (putMover s x).host = s.host := rfl
@[simp] theorem putMover_trackers : (putMover s x).trackers = s.trackers := rfl
@[simp] theorem putMover_serv : (putMover s x).serv = s.serv := rfl
@[simp] theorem putMover_loader : (putMover s x).loader = s.loader := rfl
@[simp] theorem putMover_start : (putMover s x).start = s.start := rfl
@[simp] theorem putMover_bst : (putMover s x).bst = s.bst := rfl
@[simp] theorem putMover_fo : (putMover s x).fo = s.fo := rfl
@[simp] theorem putMover_gop : (putMover s x).gop = s.gop := rfl
@[simp] theorem putMover_sec : (putMover s x).sec = s.sec := rfl
@[simp] theorem putMover_trc : (putMover s x).trc = s.trc := rfl
@[simp] theorem putMover_marks : (putMover s x).marks = s.marks := rfl

end

/-! ## putMemUnit -/

section
variable (st u : Nat) (m : ClkMode)

@[simp] theorem putMemUnit_now : (putMemUnit s st u m).now = s.now := rfl
@[simp] theorem putMemUnit_pending : (putMemUnit s st u m).pending = s.pending := rfl
@[simp] theorem putMemUnit_fresh : (putMemUnit s st u m).fresh = s.fresh := rfl
@[simp] theorem putMemUnit_lastRead : (putMemUnit s st u m).lastRead = s.lastRead := rfl
@[simp] theorem putMemUnit_lastBytes : (putMemUnit s st u m).lastBytes = s.lastBytes := rfl
@[simp] theorem putMemUnit_lastResp : (putMemUnit s st u m).lastResp = s.lastResp := rfl
@[simp] theorem putMemUnit_lastSent : (putMemUnit s st u m).lastSent = s.lastSent := rfl
@[simp] theorem putMemUnit_lastPort : (putMemUnit s st u m).lastPort = s.lastPort := rfl
@[simp] theorem putMemUnit_lastNote : (putMemUnit s st u m).lastNote = s.lastNote := rfl
@[simp] theorem putMemUnit_regs : (putMemUnit s st u m).regs = s.regs := rfl
@[simp] theorem putMemUnit_cnt : (putMemUnit s st u m).cnt = s.cnt := rfl
@[simp] theorem putMemUnit_cntLatch : (putMemUnit s st u m).cntLatch = s.cntLatch := rfl
@[simp] theorem putMemUnit_trans : (putMemUnit s st u m).trans = s.trans := rfl
@[simp] theorem putMemUnit_softWait : (putMemUnit s st u m).softWait = s.softWait := rfl
@[simp] theorem putMemUnit_armT : (putMemUnit s st u m).armT = s.armT := rfl
@[simp] theorem putMemUnit_shadow : (putMemUnit s st u m).shadow = s.shadow := rfl
@[simp] theorem putMemUnit_service : (putMemUnit s st u m).service = s.service := rfl
@[simp] theorem putMemUnit_rails : (putMemUnit s st u m).rails = s.rails := rfl
@[simp] theorem putMemUnit_dieReset : (putMemUnit s st u m).dieReset = s.dieReset := rfl
@[simp] theorem putMemUnit_meshOff : (putMemUnit s st u m).meshOff = s.meshOff := rfl
@[simp] theorem putMemUnit_accruals : (putMemUnit s st u m).accruals = s.accruals := rfl
@[simp] theorem putMemUnit_memGates : (putMemUnit s st u m).memGates = s.memGates := rfl
@[simp] theorem putMemUnit_upAt : (putMemUnit s st u m).upAt = s.upAt := rfl
@[simp] theorem putMemUnit_bench : (putMemUnit s st u m).bench = s.bench := rfl
@[simp] theorem putMemUnit_slice : (putMemUnit s st u m).slice = s.slice := rfl
@[simp] theorem putMemUnit_ny : (putMemUnit s st u m).ny = s.ny := rfl
@[simp] theorem putMemUnit_nz : (putMemUnit s st u m).nz = s.nz := rfl
@[simp] theorem putMemUnit_cores : (putMemUnit s st u m).cores = s.cores := rfl
@[simp] theorem putMemUnit_routers : (putMemUnit s st u m).routers = s.routers := rfl
@[simp] theorem putMemUnit_frs : (putMemUnit s st u m).frs = s.frs := rfl
@[simp] theorem putMemUnit_t1 : (putMemUnit s st u m).t1 = s.t1 := rfl
@[simp] theorem putMemUnit_t1line : (putMemUnit s st u m).t1line = s.t1line := rfl
@[simp] theorem putMemUnit_t1clean : (putMemUnit s st u m).t1clean = s.t1clean := rfl
@[simp] theorem putMemUnit_t2 : (putMemUnit s st u m).t2 = s.t2 := rfl
@[simp] theorem putMemUnit_t2bad : (putMemUnit s st u m).t2bad = s.t2bad := rfl
@[simp] theorem putMemUnit_mbc : (putMemUnit s st u m).mbc = s.mbc := rfl
@[simp] theorem putMemUnit_rowsUsed : (putMemUnit s st u m).rowsUsed = s.rowsUsed := rfl
@[simp] theorem putMemUnit_badRows : (putMemUnit s st u m).badRows = s.badRows := rfl
@[simp] theorem putMemUnit_badDies : (putMemUnit s st u m).badDies = s.badDies := rfl
@[simp] theorem putMemUnit_homeQ : (putMemUnit s st u m).homeQ = s.homeQ := rfl
@[simp] theorem putMemUnit_mover : (putMemUnit s st u m).mover = s.mover := rfl
@[simp] theorem putMemUnit_ports : (putMemUnit s st u m).ports = s.ports := rfl
@[simp] theorem putMemUnit_retained : (putMemUnit s st u m).retained = s.retained := rfl
@[simp] theorem putMemUnit_cab : (putMemUnit s st u m).cab = s.cab := rfl
@[simp] theorem putMemUnit_cabNext : (putMemUnit s st u m).cabNext = s.cabNext := rfl
@[simp] theorem putMemUnit_svnFloor : (putMemUnit s st u m).svnFloor = s.svnFloor := rfl
@[simp] theorem putMemUnit_plan : (putMemUnit s st u m).plan = s.plan := rfl
@[simp] theorem putMemUnit_planNext : (putMemUnit s st u m).planNext = s.planNext := rfl
@[simp] theorem putMemUnit_nwKept : (putMemUnit s st u m).nwKept = s.nwKept := rfl
@[simp] theorem putMemUnit_container : (putMemUnit s st u m).container = s.container := rfl
@[simp] theorem putMemUnit_power : (putMemUnit s st u m).power = s.power := rfl
@[simp] theorem putMemUnit_smap : (putMemUnit s st u m).smap = s.smap := rfl
@[simp] theorem putMemUnit_droop : (putMemUnit s st u m).droop = s.droop := rfl
@[simp] theorem putMemUnit_departing : (putMemUnit s st u m).departing = s.departing := rfl
@[simp] theorem putMemUnit_host : (putMemUnit s st u m).host = s.host := rfl
@[simp] theorem putMemUnit_trackers : (putMemUnit s st u m).trackers = s.trackers := rfl
@[simp] theorem putMemUnit_serv : (putMemUnit s st u m).serv = s.serv := rfl
@[simp] theorem putMemUnit_loader : (putMemUnit s st u m).loader = s.loader := rfl
@[simp] theorem putMemUnit_start : (putMemUnit s st u m).start = s.start := rfl
@[simp] theorem putMemUnit_bst : (putMemUnit s st u m).bst = s.bst := rfl
@[simp] theorem putMemUnit_fo : (putMemUnit s st u m).fo = s.fo := rfl
@[simp] theorem putMemUnit_gop : (putMemUnit s st u m).gop = s.gop := rfl
@[simp] theorem putMemUnit_sec : (putMemUnit s st u m).sec = s.sec := rfl
@[simp] theorem putMemUnit_trc : (putMemUnit s st u m).trc = s.trc := rfl
@[simp] theorem putMemUnit_marks : (putMemUnit s st u m).marks = s.marks := rfl

end

/-! ## putBst -/

section
variable (die : Nat) (x : BstSt)

@[simp] theorem putBst_now : (putBst s die x).now = s.now := rfl
@[simp] theorem putBst_pending : (putBst s die x).pending = s.pending := rfl
@[simp] theorem putBst_fresh : (putBst s die x).fresh = s.fresh := rfl
@[simp] theorem putBst_lastRead : (putBst s die x).lastRead = s.lastRead := rfl
@[simp] theorem putBst_lastBytes : (putBst s die x).lastBytes = s.lastBytes := rfl
@[simp] theorem putBst_lastResp : (putBst s die x).lastResp = s.lastResp := rfl
@[simp] theorem putBst_lastSent : (putBst s die x).lastSent = s.lastSent := rfl
@[simp] theorem putBst_lastPort : (putBst s die x).lastPort = s.lastPort := rfl
@[simp] theorem putBst_lastNote : (putBst s die x).lastNote = s.lastNote := rfl
@[simp] theorem putBst_regs : (putBst s die x).regs = s.regs := rfl
@[simp] theorem putBst_cnt : (putBst s die x).cnt = s.cnt := rfl
@[simp] theorem putBst_cntLatch : (putBst s die x).cntLatch = s.cntLatch := rfl
@[simp] theorem putBst_trans : (putBst s die x).trans = s.trans := rfl
@[simp] theorem putBst_softWait : (putBst s die x).softWait = s.softWait := rfl
@[simp] theorem putBst_armT : (putBst s die x).armT = s.armT := rfl
@[simp] theorem putBst_shadow : (putBst s die x).shadow = s.shadow := rfl
@[simp] theorem putBst_service : (putBst s die x).service = s.service := rfl
@[simp] theorem putBst_rails : (putBst s die x).rails = s.rails := rfl
@[simp] theorem putBst_dieReset : (putBst s die x).dieReset = s.dieReset := rfl
@[simp] theorem putBst_meshOff : (putBst s die x).meshOff = s.meshOff := rfl
@[simp] theorem putBst_accruals : (putBst s die x).accruals = s.accruals := rfl
@[simp] theorem putBst_memGates : (putBst s die x).memGates = s.memGates := rfl
@[simp] theorem putBst_upAt : (putBst s die x).upAt = s.upAt := rfl
@[simp] theorem putBst_bench : (putBst s die x).bench = s.bench := rfl
@[simp] theorem putBst_slice : (putBst s die x).slice = s.slice := rfl
@[simp] theorem putBst_ny : (putBst s die x).ny = s.ny := rfl
@[simp] theorem putBst_nz : (putBst s die x).nz = s.nz := rfl
@[simp] theorem putBst_cores : (putBst s die x).cores = s.cores := rfl
@[simp] theorem putBst_routers : (putBst s die x).routers = s.routers := rfl
@[simp] theorem putBst_frs : (putBst s die x).frs = s.frs := rfl
@[simp] theorem putBst_t1 : (putBst s die x).t1 = s.t1 := rfl
@[simp] theorem putBst_t1line : (putBst s die x).t1line = s.t1line := rfl
@[simp] theorem putBst_t1clean : (putBst s die x).t1clean = s.t1clean := rfl
@[simp] theorem putBst_t2 : (putBst s die x).t2 = s.t2 := rfl
@[simp] theorem putBst_t2bad : (putBst s die x).t2bad = s.t2bad := rfl
@[simp] theorem putBst_mbc : (putBst s die x).mbc = s.mbc := rfl
@[simp] theorem putBst_rowsUsed : (putBst s die x).rowsUsed = s.rowsUsed := rfl
@[simp] theorem putBst_badRows : (putBst s die x).badRows = s.badRows := rfl
@[simp] theorem putBst_badDies : (putBst s die x).badDies = s.badDies := rfl
@[simp] theorem putBst_homeQ : (putBst s die x).homeQ = s.homeQ := rfl
@[simp] theorem putBst_mover : (putBst s die x).mover = s.mover := rfl
@[simp] theorem putBst_ports : (putBst s die x).ports = s.ports := rfl
@[simp] theorem putBst_retained : (putBst s die x).retained = s.retained := rfl
@[simp] theorem putBst_cab : (putBst s die x).cab = s.cab := rfl
@[simp] theorem putBst_cabNext : (putBst s die x).cabNext = s.cabNext := rfl
@[simp] theorem putBst_svnFloor : (putBst s die x).svnFloor = s.svnFloor := rfl
@[simp] theorem putBst_plan : (putBst s die x).plan = s.plan := rfl
@[simp] theorem putBst_planNext : (putBst s die x).planNext = s.planNext := rfl
@[simp] theorem putBst_nwKept : (putBst s die x).nwKept = s.nwKept := rfl
@[simp] theorem putBst_container : (putBst s die x).container = s.container := rfl
@[simp] theorem putBst_power : (putBst s die x).power = s.power := rfl
@[simp] theorem putBst_smap : (putBst s die x).smap = s.smap := rfl
@[simp] theorem putBst_droop : (putBst s die x).droop = s.droop := rfl
@[simp] theorem putBst_memUnits : (putBst s die x).memUnits = s.memUnits := rfl
@[simp] theorem putBst_departing : (putBst s die x).departing = s.departing := rfl
@[simp] theorem putBst_host : (putBst s die x).host = s.host := rfl
@[simp] theorem putBst_trackers : (putBst s die x).trackers = s.trackers := rfl
@[simp] theorem putBst_serv : (putBst s die x).serv = s.serv := rfl
@[simp] theorem putBst_loader : (putBst s die x).loader = s.loader := rfl
@[simp] theorem putBst_start : (putBst s die x).start = s.start := rfl
@[simp] theorem putBst_bst : (putBst s die x).bst = mapPut BstSt.reset s.bst die x := rfl
@[simp] theorem putBst_fo : (putBst s die x).fo = s.fo := rfl
@[simp] theorem putBst_gop : (putBst s die x).gop = s.gop := rfl
@[simp] theorem putBst_sec : (putBst s die x).sec = s.sec := rfl
@[simp] theorem putBst_trc : (putBst s die x).trc = s.trc := rfl
@[simp] theorem putBst_marks : (putBst s die x).marks = s.marks := rfl

end

/-! ## updTrc -/

section
variable (die : Nat) (f : TrcSt → TrcSt)

@[simp] theorem updTrc_now : (updTrc s die f).now = s.now := rfl
@[simp] theorem updTrc_pending : (updTrc s die f).pending = s.pending := rfl
@[simp] theorem updTrc_fresh : (updTrc s die f).fresh = s.fresh := rfl
@[simp] theorem updTrc_lastRead : (updTrc s die f).lastRead = s.lastRead := rfl
@[simp] theorem updTrc_lastBytes : (updTrc s die f).lastBytes = s.lastBytes := rfl
@[simp] theorem updTrc_lastResp : (updTrc s die f).lastResp = s.lastResp := rfl
@[simp] theorem updTrc_lastSent : (updTrc s die f).lastSent = s.lastSent := rfl
@[simp] theorem updTrc_lastPort : (updTrc s die f).lastPort = s.lastPort := rfl
@[simp] theorem updTrc_lastNote : (updTrc s die f).lastNote = s.lastNote := rfl
@[simp] theorem updTrc_regs : (updTrc s die f).regs = s.regs := rfl
@[simp] theorem updTrc_cnt : (updTrc s die f).cnt = s.cnt := rfl
@[simp] theorem updTrc_cntLatch : (updTrc s die f).cntLatch = s.cntLatch := rfl
@[simp] theorem updTrc_trans : (updTrc s die f).trans = s.trans := rfl
@[simp] theorem updTrc_softWait : (updTrc s die f).softWait = s.softWait := rfl
@[simp] theorem updTrc_armT : (updTrc s die f).armT = s.armT := rfl
@[simp] theorem updTrc_shadow : (updTrc s die f).shadow = s.shadow := rfl
@[simp] theorem updTrc_service : (updTrc s die f).service = s.service := rfl
@[simp] theorem updTrc_rails : (updTrc s die f).rails = s.rails := rfl
@[simp] theorem updTrc_dieReset : (updTrc s die f).dieReset = s.dieReset := rfl
@[simp] theorem updTrc_meshOff : (updTrc s die f).meshOff = s.meshOff := rfl
@[simp] theorem updTrc_accruals : (updTrc s die f).accruals = s.accruals := rfl
@[simp] theorem updTrc_memGates : (updTrc s die f).memGates = s.memGates := rfl
@[simp] theorem updTrc_upAt : (updTrc s die f).upAt = s.upAt := rfl
@[simp] theorem updTrc_bench : (updTrc s die f).bench = s.bench := rfl
@[simp] theorem updTrc_slice : (updTrc s die f).slice = s.slice := rfl
@[simp] theorem updTrc_ny : (updTrc s die f).ny = s.ny := rfl
@[simp] theorem updTrc_nz : (updTrc s die f).nz = s.nz := rfl
@[simp] theorem updTrc_cores : (updTrc s die f).cores = s.cores := rfl
@[simp] theorem updTrc_routers : (updTrc s die f).routers = s.routers := rfl
@[simp] theorem updTrc_frs : (updTrc s die f).frs = s.frs := rfl
@[simp] theorem updTrc_t1 : (updTrc s die f).t1 = s.t1 := rfl
@[simp] theorem updTrc_t1line : (updTrc s die f).t1line = s.t1line := rfl
@[simp] theorem updTrc_t1clean : (updTrc s die f).t1clean = s.t1clean := rfl
@[simp] theorem updTrc_t2 : (updTrc s die f).t2 = s.t2 := rfl
@[simp] theorem updTrc_t2bad : (updTrc s die f).t2bad = s.t2bad := rfl
@[simp] theorem updTrc_mbc : (updTrc s die f).mbc = s.mbc := rfl
@[simp] theorem updTrc_rowsUsed : (updTrc s die f).rowsUsed = s.rowsUsed := rfl
@[simp] theorem updTrc_badRows : (updTrc s die f).badRows = s.badRows := rfl
@[simp] theorem updTrc_badDies : (updTrc s die f).badDies = s.badDies := rfl
@[simp] theorem updTrc_homeQ : (updTrc s die f).homeQ = s.homeQ := rfl
@[simp] theorem updTrc_mover : (updTrc s die f).mover = s.mover := rfl
@[simp] theorem updTrc_ports : (updTrc s die f).ports = s.ports := rfl
@[simp] theorem updTrc_retained : (updTrc s die f).retained = s.retained := rfl
@[simp] theorem updTrc_cab : (updTrc s die f).cab = s.cab := rfl
@[simp] theorem updTrc_cabNext : (updTrc s die f).cabNext = s.cabNext := rfl
@[simp] theorem updTrc_svnFloor : (updTrc s die f).svnFloor = s.svnFloor := rfl
@[simp] theorem updTrc_plan : (updTrc s die f).plan = s.plan := rfl
@[simp] theorem updTrc_planNext : (updTrc s die f).planNext = s.planNext := rfl
@[simp] theorem updTrc_nwKept : (updTrc s die f).nwKept = s.nwKept := rfl
@[simp] theorem updTrc_container : (updTrc s die f).container = s.container := rfl
@[simp] theorem updTrc_power : (updTrc s die f).power = s.power := rfl
@[simp] theorem updTrc_smap : (updTrc s die f).smap = s.smap := rfl
@[simp] theorem updTrc_droop : (updTrc s die f).droop = s.droop := rfl
@[simp] theorem updTrc_memUnits : (updTrc s die f).memUnits = s.memUnits := rfl
@[simp] theorem updTrc_departing : (updTrc s die f).departing = s.departing := rfl
@[simp] theorem updTrc_host : (updTrc s die f).host = s.host := rfl
@[simp] theorem updTrc_trackers : (updTrc s die f).trackers = s.trackers := rfl
@[simp] theorem updTrc_serv : (updTrc s die f).serv = s.serv := rfl
@[simp] theorem updTrc_loader : (updTrc s die f).loader = s.loader := rfl
@[simp] theorem updTrc_start : (updTrc s die f).start = s.start := rfl
@[simp] theorem updTrc_bst : (updTrc s die f).bst = s.bst := rfl
@[simp] theorem updTrc_fo : (updTrc s die f).fo = s.fo := rfl
@[simp] theorem updTrc_gop : (updTrc s die f).gop = s.gop := rfl
@[simp] theorem updTrc_sec : (updTrc s die f).sec = s.sec := rfl
@[simp] theorem updTrc_trc : (updTrc s die f).trc = mapPut TrcSt.reset s.trc die (f (trcOf s die)) := rfl
@[simp] theorem updTrc_marks : (updTrc s die f).marks = s.marks := rfl

end

end Sys2Proof.Machine
end

