-- ==== Sys2Proof/Laws/Ops.lean ====
section
/-!
SUPPORT. Sys2Proof/Laws/Ops.lean: what each shared operation can do, said once: the register file, errors and interrupts, event counters, free
values, the trace unit, guarded register writes, and the reads of cores, routers and sequencers after they are replaced.
-/
namespace Sys2Proof.Machine

variable (s : State)

/-! ## The register file -/

/-- A register written reads as what was written. -/
@[simp] theorem getReg_putReg_same (k : Nat) (v : Word) : getReg (putReg s k v) k = v := mapGet_mapPut_same s.regs k v _

/-- A write of one register leaves the others. -/
theorem getReg_putReg_ne {k j : Nat} (h : j ≠ k) (v : Word) : getReg (putReg s k v) j = getReg s j := mapGet_mapPut_ne s.regs h v _ _

theorem getReg_putReg (k j : Nat) (v : Word) : getReg (putReg s k v) j = if j = k then v else getReg s j := by
  by_cases h : j = k
  · subst h; simp
  · rw [getReg_putReg_ne s h, if_neg h]

@[simp] theorem reg_setReg_same (d p o : Nat) (v : Word) : reg (setReg s d p o v) d p o = v := getReg_putReg_same s _ v

theorem getReg_setReg (d p o k : Nat) (v : Word) : getReg (setReg s d p o v) k = if k = barOff d p o then v else getReg s k := getReg_putReg s _ k v

/-- Registers at different offsets of one page, or of pages with different offsets, do not meet. -/
theorem reg_setReg_ne {d p o d' p' o' : Nat} (h : barOff d' p' o' ≠ barOff d p o) (v : Word) : reg (setReg s d p o v) d' p' o' = reg s d' p' o' :=
  getReg_putReg_ne s h v

@[simp] theorem reg_setRegFld_same (d p o lo n v : Nat) : reg (setRegFld s d p o lo n v) d p o = setFld (reg s d p o) lo n v := reg_setReg_same s d p o _

theorem getReg_setRegFld_ne {d p o k : Nat} (h : k ≠ barOff d p o) (lo n v : Nat) : getReg (setRegFld s d p o lo n v) k = getReg s k :=
  getReg_putReg_ne s h _

/-- A field of a register written reads back, modulo its width. -/
theorem fld_setRegFld (d p o lo n v : Nat) (h : lo + n ≤ 32) : fld (reg (setRegFld s d p o lo n v) d p o) lo n = v % 2 ^ n := by
  rw [reg_setRegFld_same, fld_setFld_same _ _ _ _ h]

/-- Two offsets below the size of a page name one register only when they are equal. -/
theorem barOff_inj {d p o d' p' o' : Nat} (hp : p < 256) (hp' : p' < 256) (ho : o < 4096) (ho' : o' < 4096) (h : barOff d p o = barOff d' p' o') :
    d = d' ∧ p = p' ∧ o = o' := by
  simp only [barOff] at h
  omega

/-! ## The marks of a cycle -/

@[simp] theorem getReg_putMark (d p k : Nat) (m : PageMark) : getReg (putMark s d p m) k = getReg s k := rfl

@[simp] theorem reg_putMark (d p d' p' o : Nat) (m : PageMark) : reg (putMark s d p m) d' p' o = reg s d' p' o := rfl

/-! ## Errors and interrupts -/

/-- An event's IRQ_STATUS bit reads 1 (R18). -/
theorem setIrq_sets (d p i : Nat) (h : i < 32) : tbit (reg (setIrq s d p i) d p 0x010) i = true := by
  rw [setIrq, reg_setReg_same, tbit_setBit_same _ _ _ h]

/-- An event's interrupt bit changes no other register (R18). -/
theorem getReg_setIrq {d p i k : Nat} (h : k ≠ barOff d p 0x010) : getReg (setIrq s d p i) k = getReg s k := by
  rw [setIrq, setReg, getReg_putReg_ne _ h, getReg_putMark]

theorem RegsOnly.refl (T : Nat → Prop) : RegsOnly T s s := ⟨rfl, fun _ _ => rfl⟩

/-- A further write of a register among those touched keeps `RegsOnly`. -/
theorem RegsOnly.setReg {T : Nat → Prop} {s u : State} (h : RegsOnly T s u) (d p o : Nat) (v : Word) (ht : T (barOff d p o)) :
    RegsOnly T s (setReg u d p o v) := by
  refine ⟨?_, fun k hk => ?_⟩
  · exact (congrArg (fun z : State => { z with regs := (Machine.setReg u d p o v).regs }) h.1 : _)
  · rw [getReg_setReg, if_neg (fun e => hk (by rw [e]; exact ht)), h.2 k hk]

/-- New marks keep `RegsOnly`. -/
theorem RegsOnly.putMark {T : Nat → Prop} {s u : State} (h : RegsOnly T s u) (d p : Nat) (m : PageMark) : RegsOnly T s (putMark u d p m) :=
  ⟨(congrArg (fun z : State => { z with marks := (Machine.putMark u d p m).marks }) h.1 : _), h.2⟩

/-- Drawing a free value keeps `RegsOnly`. -/
theorem RegsOnly.draw {T : Nat → Prop} {s u : State} (h : RegsOnly T s u) (n : Nat) : RegsOnly T s { u with fresh := n } :=
  ⟨(congrArg (fun z : State => { z with fresh := n }) h.1 : _), h.2⟩

/-- A recorded error after other changes of that kind. -/
theorem RegsOnly.recordError {s u : State} {d p : Nat} (h : RegsOnly (errRegs d p) s u) (c i : Nat) :
    RegsOnly (errRegs d p) s (recordError u d p c i) := by
  unfold Machine.recordError
  have h1 := h.putMark d p (markIrq (pageMark u d p) (pageCycle u d p) 0 [(c % 2 ^ 16, i % 2 ^ 24)])
  split
  · exact h1.setReg d p 0x024 _ (.inr (.inr rfl))
  · exact ((h1.setReg d p 0x020 _ (.inr (.inl rfl))).setReg d p 0x024 _ (.inr (.inr rfl))).setReg d p 0x010 _ (.inl rfl)

/-- Everything a recorded error does (R20): nothing but the page's ERR bit, ERR_CODE and ERR_INFO, and the marks of this cycle, changes. -/
theorem recordError_regsOnly (d p c i : Nat) : RegsOnly (errRegs d p) s (recordError s d p c i) := (RegsOnly.refl s _).recordError c i

/-- The registers of the error record of a page are three different ones. -/
theorem errRegs_apart (d p : Nat) :
    barOff d p 0x010 ≠ barOff d p 0x020 ∧ barOff d p 0x010 ≠ barOff d p 0x024 ∧ barOff d p 0x020 ≠ barOff d p 0x024 := by
  simp [barOff]

/-- The first error of a page is captured whole (R20). -/
theorem recordError_first {d p c i : Nat} (hc : c < 2 ^ 16) (hi : i < 2 ^ 24) (h : errHeld s d p = false) :
    tbit (reg (recordError s d p c i) d p 0x010) 0 = true ∧ reg (recordError s d p c i) d p 0x020 = BitVec.ofNat 32 c ∧
      reg (recordError s d p c i) d p 0x024 = BitVec.ofNat 32 i := by
  obtain ⟨h1, h2, h3⟩ := errRegs_apart d p
  simp only [recordError, h, Bool.false_eq_true, if_false]
  refine ⟨?_, ?_, ?_⟩
  · rw [reg_setReg_same, tbit_setBit_same _ _ _ (by omega)]
  · rw [reg_setReg_ne _ h1.symm, reg_setReg_ne _ h3, reg_setReg_same, Nat.mod_eq_of_lt hc]
  · rw [reg_setReg_ne _ h2.symm, reg_setReg_same, Nat.mod_eq_of_lt hi]

/-- A later error raises OVERRUN, up to 255, and leaves the captured code (R20). -/
theorem recordError_later {d p c i : Nat} (h : errHeld s d p = true) :
    tbit (reg (recordError s d p c i) d p 0x010) 0 = true ∧ reg (recordError s d p c i) d p 0x020 = reg s d p 0x020 ∧
      fld (reg (recordError s d p c i) d p 0x024) 24 8 = min (fld (reg s d p 0x024) 24 8 + 1) 255 := by
  obtain ⟨_, h2, h3⟩ := errRegs_apart d p
  simp only [recordError, h, if_true]
  refine ⟨?_, ?_, ?_⟩
  · rw [setRegFld, reg_setReg_ne _ h2, reg_putMark]
    simp only [errHeld, Bool.and_eq_true] at h
    exact h.1
  · rw [setRegFld, reg_setReg_ne _ h3, reg_putMark]
  · rw [fld_setRegFld _ _ _ _ _ _ _ (by omega), Nat.mod_eq_of_lt (by omega)]

/-- A recorded error is taken by its page (R20). -/
theorem recordError_taken {d p c i : Nat} (hc : c < 2 ^ 16) (hi : i < 2 ^ 24) : ErrorTaken d p c i s (recordError s d p c i) := by
  cases h : errHeld s d p
  · obtain ⟨h1, h2, h3⟩ := recordError_first s hc hi h
    exact ⟨⟨h1, by simp [h, h2]⟩, fun _ => h3⟩
  · obtain ⟨h1, h2, h3⟩ := recordError_later (c := c) (i := i) s h
    exact ⟨⟨h1, by simp [h, h2, h3]⟩, fun e => by rw [h] at e; cases e⟩

/-! ## Free values -/

/-- Drawing a free value advances the count and nothing else. -/
@[simp] theorem drawFree_state (r k : Nat) : (drawFree s r k).2 = { s with fresh := s.fresh + 1 } := rfl

/-- An error with a free detail changes what an error with any detail changes, and advances the count of free values. -/
theorem recordErrorFree_regsOnly (d p c : Nat) : RegsOnly (errRegs d p) s (recordErrorFree s d p c) :=
  ((RegsOnly.refl s _).draw (s.fresh + 1)).recordError c _

/-- An error with a free detail is taken by its page. -/
theorem recordErrorFree_taken {d p c : Nat} (hc : c < 2 ^ 16) : CodeTaken d p c s (recordErrorFree s d p c) := by
  cases h : errHeld s d p
  · obtain ⟨h1, _, h3⟩ := errRegs_apart d p
    have hs : errHeld (drawFree s 20 c).2 d p = false := h
    refine ⟨?_, ?_⟩
    · simp only [recordErrorFree, recordError, hs, Bool.false_eq_true, if_false]
      rw [reg_setReg_same, tbit_setBit_same _ _ _ (by omega)]
    · simp only [h, Bool.false_eq_true, if_false, recordErrorFree, recordError, hs]
      rw [reg_setReg_ne _ h1.symm, reg_setReg_ne _ h3, reg_setReg_same, Nat.mod_eq_of_lt hc]
  · have hs : errHeld (drawFree s 20 c).2 d p = true := h
    obtain ⟨h1, h2, h3⟩ := recordError_later (c := c) (i := (drawFree s 20 c).1.toNat) _ hs
    exact ⟨h1, by rw [h]; exact ⟨h2, h3⟩⟩

/-! ## Trace capture and guarded writes -/

/-- The trace unit changes trace buffers and the count of free values only. -/
theorem traceRec_only (d src arg : Nat) : traceRec s d src arg = { s with trc := (traceRec s d src arg).trc, fresh := (traceRec s d src arg).fresh } := rfl

@[simp] theorem getReg_traceRec (d src arg k : Nat) : getReg (traceRec s d src arg) k = getReg s k := rfl

/-- Everything a guarded register write can do (R15, R536): nothing, the error of a locked page, or its effect. -/
theorem pageWrite_cases (d p o : Nat) (rw_ : Bool) (f : State → State) :
    (reachable s d p = false ∧ pageWrite s d p o rw_ f = s) ∨
    (reachable s d p = true ∧ rw_ = true ∧ pageLocked s d p = true ∧ pageWrite s d p o rw_ f = lockedWrite (traceRec s d 5 0) d p o) ∨
    (reachable s d p = true ∧ (rw_ = false ∨ pageLocked s d p = false) ∧ pageWrite s d p o rw_ f = f (traceRec s d 5 0)) := by
  have hl : pageLocked (traceRec s d 5 0) d p = pageLocked s d p := rfl
  cases hr : reachable s d p
  · simp [pageWrite, hr]
  · cases rw_ <;> cases hk : pageLocked s d p <;> simp [pageWrite, hr, hl, hk]

/-! ## Event counters -/

/-- Counting in one counter changes the page's IRQ_STATUS at most, besides counters and marks (R16, R17). -/
theorem getReg_countOne {d p c n i k : Nat} (h : k ≠ barOff d p 0x010) : getReg (countOne s d p c n i) k = getReg s k := by
  unfold countOne
  extract_lets
  split
  · split
    · exact getReg_setIrq _ h
    · rfl
  · rfl

/-- Counting changes the page's IRQ_STATUS at most, besides counters and marks (R16, R17). -/
theorem getReg_count {d p c n k : Nat} (h : k ≠ barOff d p 0x010) : getReg (count s d p c n) k = getReg s k := by
  unfold count
  split
  · rfl
  · rw [getReg_countOne _ h, getReg_countOne _ h]

/-! ## Cores, routers and sequencers -/

/-- What a write of the present cycle changed is noted beside the core's contents (R47). -/
@[simp] theorem noteWrite_spm (t : Time) (old x : CoreSt) : (noteWrite t old x).spm = x.spm := by
  unfold noteWrite
  split <;> rfl

@[simp] theorem noteWrite_poison (t : Time) (old x : CoreSt) : (noteWrite t old x).poison = x.poison := by
  unfold noteWrite
  split <;> rfl

/-- A core whose scratchpad stays as it was has nothing to note. -/
theorem noteWrite_same (t : Time) {old x : CoreSt} (h : old.spm = x.spm) (hp : old.poison = x.poison) : noteWrite t old x = x := by
  simp only [noteWrite, h, hp, and_self, if_true]

/-- A core replaced reads back, with what it changed in its scratchpad noted, unless it mirrors itself. -/
theorem core_putCore_same (c : Nat) (x : CoreSt) (h : x.mirrorTo ≠ some c) : core (putCore s c x) c = noteWrite s.now (core s c) x := by
  unfold putCore
  dsimp only
  cases hm : x.mirrorTo with
  | none => exact mapGet_mapPut_same _ _ _ _
  | some t =>
    have ht : c ≠ t := fun e => h (by rw [hm, e])
    dsimp only
    split
    · exact mapGet_mapPut_same _ _ _ _
    · exact (mapGet_mapPut_ne _ ht _ _ _).trans (mapGet_mapPut_same _ _ _ _)

/-- A core that does not mirror leaves the other cores as they were. -/
theorem core_putCore_ne {c j : Nat} {x : CoreSt} (h : x.mirrorTo = none) (hj : j ≠ c) : core (putCore s c x) j = core s j := by
  simp only [putCore, h]
  exact mapGet_mapPut_ne _ hj _ _ _

@[simp] theorem getReg_putCore (c k : Nat) (x : CoreSt) : getReg (putCore s c x) k = getReg s k := by
  unfold putCore
  dsimp only
  split
  · rfl
  · split <;> rfl

@[simp] theorem router_putRouter_same (d : Nat) (x : Router) : router (putRouter s d x) d = x := mapGet_mapPut_same _ _ _ _

theorem router_putRouter_ne {d e : Nat} (h : e ≠ d) (x : Router) : router (putRouter s d x) e = router s e := mapGet_mapPut_ne _ h _ _ _

@[simp] theorem frsOf_putFrs_same (d : Nat) (x : Frs) : frsOf (putFrs s d x) d = x := mapGet_mapPut_same _ _ _ _

theorem frsOf_putFrs_ne {d e : Nat} (h : e ≠ d) (x : Frs) : frsOf (putFrs s d x) e = frsOf s e := mapGet_mapPut_ne _ h _ _ _

end Sys2Proof.Machine
end

