-- ==== Sys2Proof/WellFormed.lean ====
section
/-!
DEFINITION. Sys2Proof/WellFormed.lean: what a command that can come to the module looks like. Most operands are bounded by their types;
what the types leave is checked here. `exec` does not need it: it gives every command a meaning.
-/
namespace Sys2Proof

/-- A mesh flit carries at most 3,000 bytes of payload (R26). -/
def Flit.wf (f : Flit) : Bool := decide (f.bytes.length ≤ 3000)

/-- A dynamic message carries at most 256 bytes of payload (R30). -/
def DynAct.wf (a : DynAct) : Bool :=
  match a with
  | .enter _ p => decide (p.length ≤ 256)
  | .forward _ => true

/-- A crossbar access stays in a Tier 0 slot, and a write carries its bytes (R40, R46). -/
def XbarAccess.wf (a : XbarAccess) : Bool :=
  decide (1 ≤ a.len ∧ a.off + a.len ≤ 2 ^ 25) && (!a.write || decide (a.data.length = a.len))

/-- A link flit has a TYPE that is not reserved, a 24-bit SEQ and at most 492 bytes of payload (R312). -/
def LinkFlit.wf (f : LinkFlit) : Bool :=
  decide (f.kind ≤ 6 ∧ f.frame < 2 ^ 8 ∧ f.seq < 2 ^ 24 ∧ f.payload.length ≤ 492)

/-- A fabric message's fields fit the header that R343 lays out. -/
def FabMsg.wf (m : FabMsg) : Bool :=
  decide (m.dest < 2 ^ 16 ∧ m.src < 2 ^ 16 ∧ m.offset < 2 ^ 48 ∧ m.op < 2 ^ 8 ∧ m.cls < 2 ^ 7)
    && decide (m.len ≤ 4096 ∧ m.job < 2 ^ 8 ∧ m.hops < 2 ^ 8 ∧ m.tag < 2 ^ 32 ∧ m.expiry < 2 ^ 32 ∧ m.status < 2 ^ 16)

/-- A submission entry is 64 bytes and begins with its opcode (R254). -/
def submissionWf (op : Nat) (entry : List Byte) : Bool :=
  decide (entry.length = 64) && decide (entry.head? = some (BitVec.ofNat 8 op))

/-- Whether a command is well formed. -/
def Instr.wf (i : Instr) : Bool :=
  match i with
  | .registerWrite _ _ off _ => decide (off % 4 = 0)
  | .misalignedRegisterAccess _ off size _ => decide (size ≠ 4 ∨ off % 4 ≠ 0) && [1, 2, 4, 8, 16, 32, 64].contains size
  | .softReset .. => true
  | .powerReqWrite .. => true
  | .powerTransitionComplete .. => true
  | .pageLock .. => true
  | .irqStatusClear .. => true
  | .irqForce .. => true
  | .cntClr .. => true
  | .loReadLatch _ _ _ off => decide (off.val % 4 = 0)
  | .plannedFlit .. => true
  | .dynamicMessage _ _ act => act.wf
  | .edgeMarkedDown .. => true
  | .schedSwapArm .. => true
  | .mapNextArm .. => true
  | .crossbarAccess _ _ _ a _ => a.wf
  | .descriptorEnqueue .. => true
  | .mma .. => true
  | .accStore .. => true
  | .accZero .. => true
  | .mxeNop .. => true
  | .add .. => true
  | .sub .. => true
  | .mul .. => true
  | .fma .. => true
  | .max .. => true
  | .min .. => true
  | .scale .. => true
  | .convert .. => true
  | .exp .. => true
  | .recip .. => true
  | .rsqrt .. => true
  | .tanh .. => true
  | .silu .. => true
  | .gelu .. => true
  | .rowSum .. => true
  | .rowMax .. => true
  | .rowSqsum .. => true
  | .cumsum .. => true
  | .norm2 .. => true
  | .topk .. => true
  | .gatherRows .. => true
  | .rng .. => true
  | .matchEntries .. => true
  | .vxeNop .. => true
  | .copyIn .. => true
  | .copyOut .. => true
  | .gatherIn .. => true
  | .scatterOut .. => true
  | .load .. => true
  | .store .. => true
  | .fetchAdd .. => true
  | .swap .. => true
  | .compareAndSwap .. => true
  | .signedMinimum .. => true
  | .signedMaximum .. => true
  | .unsignedMinimum .. => true
  | .unsignedMaximum .. => true
  | .fenceLocal .. => true
  | .fenceNode .. => true
  | .fenceGlobal .. => true
  | .fenceComplete .. => true
  | .mveNop .. => true
  | .fill .. => true
  | .mouCopy .. => true
  | .mouNop .. => true
  | .commandRetire .. => true
  | .mveRequestGenerate .. => true
  | .mveRequestCompletion .. => true
  | .contextAssign .. => true
  | .contextRelease .. => true
  | .contextOwnerWrite .. => true
  | .contextFillDone .. => true
  | .sbHwClr .. => true
  | .mveHwClr .. => true
  | .normVerdict .. => true
  | .jumpReport _ _ r => decide (r.step < 2 ^ 32 ∧ r.frame < 2 ^ 32)
  | .stepNotice _ _ n => decide (n.frame < 2 ^ 32)
  | .nwCtrlWrite .. => true
  | .planLoad .. => true
  | .injectionEnqueue _ _ _ f => f.wf
  | .lateInjectionFlit .. => true
  | .syncPulse .. => true
  | .syncPulseMissing .. => true
  | .frameSequencerStart .. => true
  | .frameBoundary .. => true
  | .slot .. => true
  | .push .. => true
  | .pushDescriptorEnter .. => true
  | .wake .. => true
  | .gate .. => true
  | .coreGatedWhenIdle .. => true
  | .unitWakeComplete .. => true
  | .refresh .. => true
  | .test .. => true
  | .jump .. => true
  | .report .. => true
  | .reportReceived .. => true
  | .exchange .. => true
  | .agreementResult .. => true
  | .slotChangeSubmit .. => true
  | .frameRunArm .. => true
  | .frameRunDisarm .. => true
  | .frameStop .. => true
  | .progSwapArm .. => true
  | .sealPage .. => true
  | .localSequenceNotExtended .. => true
  | .parityRegionWrite .. => true
  | .generate _ _ entry param _ => submissionWf 0x01 entry && decide (param.length = 384)
  | .cancel _ _ entry => submissionWf 0x02 entry
  | .park _ _ entry => submissionWf 0x03 entry
  | .parkTtlExpiry .. => true
  | .canopyLoad _ _ entry param _ _ _ => submissionWf 0x10 entry && decide (param.length = 64)
  | .canopyPin _ _ entry _ => submissionWf 0x11 entry
  | .canopyUnpin _ _ entry _ => submissionWf 0x12 entry
  | .requestAdmit .. => true
  | .requestDeadline .. => true
  | .retainedSessionExpiry .. => true
  | .tokenRelease .. => true
  | .streamHoldDrain .. => true
  | .completionHoldDrain .. => true
  | .graftVerdict .. => true
  | .tier1PlannedAccess _ _ _ addr write len data _ _ => decide (1 ≤ len ∧ addr + len ≤ 48 * 2 ^ 30) && (!write || decide (data.length = len))
  | .arbitrationGrant .. => true
  | .extensionRefreshRound .. => true
  | .autonomousRefresh .. => true
  | .poisonInit .. => true
  | .poisonInitDone .. => true
  | .scrubRead .. => true
  | .scrubBehind .. => true
  | .pprStart .. => true
  | .pprComplete .. => true
  | .segmentWrite .. => true
  | .tier2Access .. => true
  | .tier2DeadlineExpiry .. => true
  | .tierMoveQueue .. => true
  | .tierMoveTile .. => true
  | .tierMoveComplete .. => true
  | .tierMoveDeadline .. => true
  | .tmDoneRead .. => true
  | .hostLinkDown .. => true
  | .portSignalDetected .. => true
  | .portDetectTimeout .. => true
  | .portTrainingComplete .. => true
  | .portRetry .. => true
  | .hello _ _ nonce => decide (nonce < 2 ^ 256)
  | .proof .. => true
  | .nonceStale .. => true
  | .retrain .. => true
  | .forceQuarantine .. => true
  | .lpiReq .. => true
  | .lpiEntry .. => true
  | .portLpiExit .. => true
  | .plannedLinkFlit _ _ _ _ f => f.wf && decide (f.kind = 1)
  | .plannedReplay _ _ _ f => f.wf && decide (f.kind = 2)
  | .plannedDelivery .. => true
  | .dynamicLinkFlit _ _ _ f _ => f.wf && decide (f.kind = 3 ∨ f.kind = 4)
  | .linkErrorWindow _ _ corrected _ => decide (corrected.length = 8)
  | .laneLockLoss .. => true
  | .noFlitTimeout .. => true
  | .elasticBufferFault .. => true
  | .linkSlotSwapArm .. => true
  | .injectDrop _ _ _ f => f.wf
  | .injectCorrupt _ _ _ f => f.wf
  | .injectReorder _ _ _ f => f.wf
  | .injectDelay _ _ _ f => f.wf
  | .cablePresentChange .. => true
  | .fabricRead _ _ _ _ m => m.wf
  | .fabricWrite _ _ _ _ m => m.wf && decide (m.data.length = m.len)
  | .fabricAtomic _ _ _ _ m => m.wf && decide (m.data.length = 16)
  | .readResponse _ _ m => m.wf
  | .writeCompletion _ _ m => m.wf
  | .atomicResponse _ _ m => m.wf
  | .errorResponse _ _ m => m.wf && decide (m.status ≠ 0)
  | .controlMessage .. => true
  | .homeQueueAdmit .. => true
  | .requestDeadlineExpiry .. => true
  | .orphanSlotRelease .. => true
  | .protSwapArm .. => true
  | .barrier .. => true
  | .broadcast .. => true
  | .snapshot .. => true
  | .resetOp .. => true
  | .barrierRelease .. => true
  | .shardQueue .. => true
  | .loadShardComplete .. => true
  | .ldDeadlineExpiry .. => true
  | .ldDoneRead .. => true
  | .digestStart .. => true
  | .digestComplete .. => true
  | .periodicDigest .. => true
  | .powerSample .. => true
  | .controllerMillisecond .. => true
  | .bladeCurrentLoss .. => true
  | .inputUndervoltage .. => true
  | .inputFault .. => true
  | .referenceClockLoss .. => true
  | .thermalTrip .. => true
  | .droop .. => true
  | .droopTimeout .. => true
  | .auxRailLoss .. => true
  | .nextFreq .. => true
  | .synthLocked .. => true
  | .fsynArm .. => true
  | .synthSwitch .. => true
  | .auxPowerOn .. => true
  | .coldStart .. => true
  | .warmStart .. => true
  | .shutdownToParked .. => true
  | .shutdownToStandby .. => true
  | .abandonShutdown .. => true
  | .autoColdStart .. => true
  | .startStepTimeout .. => true
  | .shutdownCommit .. => true
  | .dieReset .. => true
  | .dieResetEnd .. => true
  | .bstRun .. => true
  | .selfTestSliceDone .. => true
  | .failHeadRead .. => true
  | .cursorRst .. => true
  | .mirrorEn .. => true
  | .copyStart .. => true
  | .copyDone .. => true
  | .mirrorEnd .. => true
  | .trunkHeartbeat .. => true
  | .trunkClusterLost .. => true
  | .moduleHeartbeat .. => true
  | .heartbeatMiss .. => true
  | .membershipRound .. => true
  | .alive .. => true
  | .membershipWaitExpiry .. => true
  | .decision .. => true
  | .decisionTimeout .. => true
  | .depart .. => true
  | .departNotice .. => true
  | .rebuildComplete .. => true
  | .zeroInit .. => true
  | .zeroInitDone .. => true
  | .status .. => true
  | .authChallenge .. => true
  | .authRespond .. => true
  | .authLockoutExpiry .. => true
  | .logout .. => true
  | .verifyFirmware .. => true
  | .verifySignature .. => true
  | .unwrapInstall _ _ _ keyId _ salt _ => decide (keyId < 2 ^ 64 ∧ salt < 2 ^ 32)
  | .clearKeys .. => true
  | .linkSign .. => true
  | .linkVerify .. => true
  | .quote _ _ nonce => decide (nonce.length = 48)
  | .random _ _ n => decide (n ≤ 256)
  | .importKek _ _ _ id _ _ => decide (id < 2 ^ 61)
  | .importAppliance .. => true
  | .advanceFloor .. => true
  | .servicePermit .. => true
  | .servicePermissionArrival .. => true
  | .debugUnlock .. => true
  | .zeroise .. => true
  | .serviceComplete .. => true
  | .environmentalFailure .. => true
  | .firmwareLoad .. => true
  | .pageInterrupt .. => true
  | .logMirrorCopy .. => true
  | .setCablingRecord .. => true
  | .getCablingRecord .. => true
  | .getSpeedMap .. => true
  | .getFaultRecord .. => true
  | .setSpeedMap .. => true
  | .perstAssert .. => true
  | .perstDeassert .. => true
  | .functionLevelReset .. => true
  | .traceArm .. => true
  | .traceDisarm .. => true
  | .traceRelease .. => true
  | .swTrigger .. => true
  | .traceTrigger .. => true
  | .xdieTrigger .. => true
  | .tracePreFilled .. => true
  | .traceCaptureComplete .. => true
  | .rearmEnd .. => true
  | .hostLinkUp .. => true
  | .referenceClockReturn .. => true
  | .droopRecovery .. => true
  | .continuousHealthTestFailure .. => true

end Sys2Proof
end

