-- ==== Sys2Proof/Tests/Slice0.lean ====
section
/-!
SUPPORT. Sys2Proof/Tests/Slice0.lean: tests of the model. First what the well-formedness checks refuse; then, for every obligation that has
hypotheses, a concrete state and operands that meet them, clause by clause and at boundary values; then small results of single commands, each
with its source in the specification.
-/
namespace Sys2Proof.Tests
open Sys2Proof Sys2Proof.Machine

set_option Elab.async false

/-! ## Helpers -/

/-- The module with every rail on. -/
def up : State := { State.reset with rails := (upFrom 0 12).map (fun k => (k, true)) }

/-- A state with one register set, by die, page and offset. -/
def withReg (s : State) (d p o v : Nat) : State := setReg s d p o (BitVec.ofNat 32 v)

/-- The state a command leaves (the state itself if it stopped). -/
def after (i : Instr) (s : State) : State :=
  match exec i s with
  | .next u => u
  | _ => s

/-- No ECC event. -/
def clean : Ecc := { entryBad := false, badWords := [], corrected := 0, met := [] }

/-- A descriptor of words W0, W1, ..., the rest zero. -/
def descOf (ws : List Nat) : BitVec 512 := BitVec.ofNat 512 (ws.foldr (fun w n => w + 2 ^ 32 * n) 0)

/-- A descriptor as a queue entry without dependency. -/
def entOf (d : BitVec 512) : QEntry := { desc := d, stamps := [0, 0, 0, 0], parity := false, overrun := false, slot := 0, counted := true }

/-- A fabric message with no data. -/
def msg0 : FabMsg :=
  { dest := 0, src := 0, offset := 0, op := 1, cls := 0, len := 0, job := 0, hops := 0, tag := 0, expiry := 0, status := 0, data := [], poison := [] }

/-- A link flit with no payload. -/
def flit0 : LinkFlit := { kind := 1, first := false, frame := 0, poison := false, seq := 0, payload := [] }

/-- Bytes of a length from (offset, value) fields, little-endian. -/
def bytesOf (n : Nat) (l : List (Nat × Nat)) : List Byte := toLE n (l.foldr (fun p a => p.2 * 256 ^ p.1 + a) 0)

/-! ## Ill-formed terms -/

theorem test_wf_refuses_a_long_planned_flit : Flit.wf { poison := false, bytes := List.replicate 3001 0#8 } = false := by
  rw [Flit.wf, List.length_replicate]; decide

theorem test_wf_refuses_a_long_dynamic_message : (Instr.dynamicMessage 0 0 (.enter 1 (List.replicate 257 0#8))).wf = false := by
  rw [Instr.wf, DynAct.wf, List.length_replicate]; decide

theorem test_wf_refuses_an_access_past_its_slot :
    (Instr.crossbarAccess 0 0 0 { off := 2 ^ 25 - 1, write := false, len := 2, data := [], poison := [] } clean).wf = false := by decide

theorem test_wf_refuses_a_write_without_its_bytes :
    (Instr.crossbarAccess 0 0 0 { off := 0, write := true, len := 2, data := [1#8], poison := [] } clean).wf = false := by decide

theorem test_wf_refuses_a_link_flit_of_type_7 : (Instr.plannedLinkFlit 0 0 0 true { flit0 with kind := 7 }).wf = false := by decide

theorem test_wf_refuses_a_planned_flit_of_type_3 : (Instr.plannedLinkFlit 0 0 0 true { flit0 with kind := 3 }).wf = false := by decide

theorem test_wf_refuses_a_replay_of_type_1 : (Instr.plannedReplay 0 0 true flit0).wf = false := by decide

theorem test_wf_refuses_a_dynamic_flit_of_type_1 : (Instr.dynamicLinkFlit 0 0 true flit0 none).wf = false := by decide

theorem test_wf_refuses_a_long_request : (Instr.fabricRead 0 none 0 clean { msg0 with len := 4097 }).wf = false := by decide

theorem test_wf_refuses_an_offset_of_49_bits : (Instr.fabricRead 0 none 0 clean { msg0 with offset := 2 ^ 48 }).wf = false := by decide

theorem test_wf_refuses_a_write_request_without_data : (Instr.fabricWrite 0 none 0 clean { msg0 with len := 8 }).wf = false := by decide

theorem test_wf_refuses_an_atomic_without_operands : (Instr.fabricAtomic 0 none 0 clean msg0).wf = false := by decide

theorem test_wf_refuses_an_error_response_without_error : (Instr.errorResponse 0 none msg0).wf = false := by decide

theorem test_wf_refuses_a_submission_of_another_opcode : (Instr.cancel 0 0 (List.replicate 64 1#8)).wf = false := by decide

theorem test_wf_refuses_a_short_submission : (Instr.park 0 0 [3#8]).wf = false := by decide

theorem test_wf_refuses_a_short_parameter_block : (Instr.generate 0 0 (List.replicate 64 1#8) [] none).wf = false := by decide

theorem test_wf_refuses_an_unaligned_register_write : (Instr.registerWrite 0 .host 2 0#32).wf = false := by decide

theorem test_wf_refuses_an_aligned_access_as_misaligned : (Instr.misalignedRegisterAccess 0 8 4 false).wf = false := by decide

theorem test_wf_refuses_an_unaligned_counter_read : (Instr.loReadLatch 0 0 0 0x031).wf = false := by decide

theorem test_wf_refuses_a_jump_report_of_33_bits :
    (Instr.jumpReport 0 0 { job := 0, layer := 0, step := 2 ^ 32, frame := 0, recompute := false, inRecompute := false }).wf = false := by decide

theorem test_wf_refuses_a_notice_of_33_bits :
    (Instr.stepNotice 0 0 { job := 0, layer := 0, frame := 2 ^ 32, wide := false, normal := true, replay := false }).wf = false := by decide

theorem test_wf_refuses_an_access_past_its_stack :
    (Instr.tier1PlannedAccess 0 0 0 (48 * 2 ^ 30) false 1 [] false { ready := true, lines := { bad := [], corrected := [] } }).wf = false := by decide

theorem test_wf_refuses_a_nonce_of_257_bits : (Instr.hello 0 0 (2 ^ 256)).wf = false := by decide

theorem test_wf_refuses_an_error_window_of_7_lanes : (Instr.linkErrorWindow 0 0 (List.replicate 7 0) { fixed := 0, uncorr := 0 }).wf = false := by decide

theorem test_wf_refuses_a_long_key_number : (Instr.unwrapInstall 0 0 0 (2 ^ 64) 0 0 true).wf = false := by decide

theorem test_wf_refuses_a_short_nonce : (Instr.quote 0 0 []).wf = false := by decide

theorem test_wf_refuses_257_random_bytes : (Instr.random 0 0 257).wf = false := by decide

theorem test_wf_refuses_a_kek_number_of_62_bits : (Instr.importKek 0 0 0 (2 ^ 61) 0 true).wf = false := by decide

/-! ## Witnesses: the header and the machine as a whole -/

/-- The Taproot die's power page locked. -/
def locked : State := withReg up 90 8 0x01C 1

theorem witness_StepPerformsTheFrontCommand :
    (∃ c rest, ({ up with pending := [Instr.auxRailLoss 0, .abandonShutdown 0 true] } : State).pending = c :: rest) ∧ up.pending = [] ∧
      ∀ p < 42, transmits up p = false :=
  ⟨⟨_, _, rfl⟩, rfl, by decide +kernel⟩

theorem witness_StepsKeepTheStateWellFormed :
    let s : State := { up with pending := [Instr.pageLock 0 90 8 1#32], t1 := [(5, 7#8)], t2 := [(9, 1#8)] }
    (∃ u, step s = .next u) ∧ memoryWf s = true ∧ scratchpadsWf s = true ∧ routersWf s = true :=
  ⟨⟨_, rfl⟩, by decide⟩

theorem witness_RegisterWritesFollowTheirAccessCodes :
    (reachable (advance up 0) 90 8 = true ∧ sealedPage 90 8 = false ∧ whoReaches (advance up 0) .trunk0 (barOff 90 8 0x014) = true) ∧
    (whoReaches (advance up 0) .trunk0 (barOff 90 8 0x000) = true ∧ whoReaches (advance up 0) .trunk99 (barOff 90 8 0x024) = true) ∧
    (pageBlock 90 8 = some .tpr ∧ regRw .tpr 90 0x104 = true ∧ pageLocked (advance locked 0) 90 8 = true ∧
      reachable (advance locked 0) 90 8 = true ∧ whoReaches (advance locked 0) .bmc (barOff 90 8 0x104) = true) ∧
    (reachable (advance up 0) 9 8 = true ∧ trunkOf .trunk0 ≠ none) := by decide

theorem witness_MisalignedAccessIsRecordedAndDiscarded :
    (pageBlock 0 200 = none) ∧
    (¬ (2 = 4 ∧ barOff 90 8 0x040 % 4 = 0) ∧ reachable (advance up 0) (barOff 90 8 0x040 / 0x100000) (barOff 90 8 0x040 / 0x1000 % 256) = true) ∧
    (¬ (64 = 4 ∧ barOff 99 255 0xFFF % 4 = 0) ∧
      ¬ (barOff 99 255 0xFFF / 0x100000 < 100 ∧ reachable (advance up 0) (barOff 99 255 0xFFF / 0x100000) (barOff 99 255 0xFFF / 0x1000 % 256) = true)) ∧
    (¬ (4 = 4 ∧ (100 * 0x100000 + 2) % 4 = 0) ∧ ¬ (100 * 0x100000 + 2) / 0x100000 < 100) := by decide

theorem witness_SoftResetClearsThePageHeader :
    (reachable (advance up 0) 11 19 = true ∧ sealedPage 11 19 = false ∧ pageLocked (advance up 0) 11 19 = false ∧ pageBlock 11 19 = some .mve ∧
      tbit 0x32#32 1 = true ∧ fld 0x32#32 4 4 ≤ 3) ∧
    (reachable (advance up 0) 11 0 = true ∧ sealedPage 11 0 = false ∧ pageLocked (advance up 0) 11 0 = false) := by decide

/-- Counter 0 of die 11's CORE page counts code 1, and stands at its end. -/
def counting : State := { withReg (withReg up 11 16 0x028 1) 11 16 0x02C 1 with cnt := [(pageKey 11 16 * 2, BitVec.ofNat 64 (2 ^ 64 - 1))] }

theorem witness_HeaderControlsActAsStated :
    (reachable (advance up 0) 90 8 = true ∧ sealedPage 90 8 = false ∧ tbit 0x30#32 1 = false ∧ pageLocked (advance up 0) 90 8 = false ∧
      fld 0x30#32 4 4 ≤ 3 ∧ fld 0xF0#32 4 4 > 3 ∧ tbit 0xF2#32 1 = true ∧ fld 0xF2#32 4 4 > 3) ∧
    (reachable (advance State.reset 0) 11 0 = false ∧ reachable (advance up 0) 9 2 = true ∧ sealedPage 9 2 = true) ∧
    (pageLocked (advance locked 0) 90 8 = true ∧ reachable (advance locked 0) 90 8 = true ∧ errHeld (advance locked 0) 90 8 = false ∧
      [0x30#32, 0xF0#32, 0x31#32, 0xF2#32].map (fun v => decide (fld v 0 1 ≠ fld (reg (advance locked 0) 90 8 0x008) 0 1) || tbit v 1) =
        [false, false, true, true] ∧ fld 0x31#32 4 4 ≤ 3) ∧
    (inTransition (advance (withReg up 90 8 0x008 0x10) 0) 90 8 = true ∧ reachable (advance (withReg up 90 8 0x008 0x10) 0) 90 8 = true ∧
      inTransition (advance (withReg up 90 8 0x00C 0) 0) 90 8 = false) ∧
    (pageBlock 90 8 ≠ none ∧ reachable (advance up 0) 0 1 = true ∧ pageBlock 0 8 = some .tcc ∧ reachable (advance up 0) 0 8 = true ∧
      reachable (advance up 0) 90 9 = true) ∧
    (∀ n, n < 2 → tbit 0x33#32 (4 + n) = true → (cntMark (pageMark (advance counting 0) 11 16) n).wrap ≠ some (pageCycle (advance counting 0) 11 16)) ∧
    (reachable (advance counting 0) 11 16 = true) ∧
    (tbit (reg counting 11 16 0x02C) 0 = true ∧ fld (reg counting 11 16 0x028) (8 * 0) 8 = 1 ∧
      (cntMark (pageMark counting 11 16) 0).clr ≠ some (pageCycle counting 11 16) ∧ (pageMark counting 11 16).cfgCyc ≠ some (pageCycle counting 11 16) ∧
      (mapGet counting.cnt (pageKey 11 16 * 2 + 0) 0#64).toNat + 1 ≥ 2 ^ 64) := by
  exact ⟨by decide +kernel, by decide +kernel, by decide +kernel, by decide +kernel, by decide +kernel, by decide +kernel, by decide +kernel,
    by decide⟩

theorem witness_StatusBitsStickAndForceNeedsPermission :
    (reg (advance up 0) 90 8 0x010 &&& reg (advance up 0) 90 8 0x014 = 0#32) ∧
    (reachable (advance up 0) 90 8 = true ∧ sealedPage 90 8 = false ∧ (pageMark (advance up 0) 90 8).irqCyc ≠ some (pageCycle (advance up 0) 90 8)) ∧
    ((pageMark (advance (recordError up 90 8 0x1003 0) 0) 90 8).irqCyc = some (pageCycle (advance (recordError up 90 8 0x1003 0) 0) 90 8) ∧
      reachable (advance (recordError up 90 8 0x1003 0) 0) 90 8 = true) ∧
    (hasService (advance { up with service := [(90, true)] } 0) 90 = true) ∧
    (hasService (advance up 0) 90 = false ∧ (1#32) &&& irqMask 90 8 ≠ 0#32) := by decide

/-! ## Witnesses: the engines of a core -/

/-- Whether the head of queue `e` meets every condition of issue. -/
def issues (s : State) (c e : Nat) (ecc : Ecc) (ent : QEntry) (ready : State → BitVec 512 → Bool) (coded : BitVec 512 → Nat)
    (ranges : BitVec 512 → List Rng) (remote : State → BitVec 512 → Bool) : Bool :=
  decide ((queueOf s c e).entries.head? = some ent) && decide ((Machine.core s c).clk.mode = .run)
    && (decide (isHalted s (coreDie c) (corePage c 0) = false) && decide (ecc.entryBad = false))
    && decide ((queueOf s c e).evalNext ≤ coreCycle s c) && decide (jobStopped s c (coreCycle s c) (dJob ent.desc) = false)
    && (ready s ent.desc && timeMet s c ent && depMet (Machine.core s c) e ent)
    && decide (firstFault s c ent.desc (coded ent.desc) (ranges ent.desc) (remote s ent.desc) = 0)
    && decide (ctxFilling s c (dCtx ent.desc) (coreCycle s c) = false)
    && (dLocked ent.desc || ownsStage s c || paceAllows s 0 (coreCycle s c))
    && decide ((absRanges s c ent.desc (ranges ent.desc)).any (sbConflict (sbVisible (Machine.core s c) (coreCycle s c))) = false)
    && decide ((sbVisible (Machine.core s c) (coreCycle s c)).length + (absRanges s c ent.desc (ranges ent.desc)).length ≤ 64)

theorem headIssues_of_issues {s : State} {c e : Nat} {ecc : Ecc} {ent : QEntry} {ready : State → BitVec 512 → Bool} {coded : BitVec 512 → Nat}
    {ranges : BitVec 512 → List Rng} {remote : State → BitVec 512 → Bool} (h : issues s c e ecc ent ready coded ranges remote = true) :
    HeadIssues s c e ecc ent ready coded ranges remote := by
  simp only [issues, Bool.and_eq_true, decide_eq_true_eq] at h
  obtain ⟨⟨⟨⟨⟨⟨⟨⟨⟨⟨a, b⟩, c1⟩, d⟩, e1⟩, f⟩, g⟩, i⟩, p⟩, j⟩, k⟩ := h
  exact ⟨a, b, c1, d, e1, p, ⟨f.1.1, f.1.2, f.2⟩, g, i, j, k⟩

/-- The module with core 0 clocked, its context 0 covering the scratchpad, and bytes 1, 2, 3, ... at 0. -/
def coreUp : State :=
  putCore (withReg (withReg up 11 20 0x104 98304) 11 20 0x10C 1) 0
    { CoreSt.reset with clk := { CoreClk.reset with mode := .run }, spm := (upFrom 0 16).map (fun i => (i, BitVec.ofNat 8 (i + 1))) }

/-- Core 0 with a descriptor at the head of a queue. -/
def headed (e : Nat) (d : BitVec 512) : State := putQueue coreUp 0 e { Queue.reset with entries := [entOf d] }

/-- A VXE descriptor: 2 rows of 4 columns, S0 at 0, S1 as given, D at 0x200, pitches 64. -/
def vxeDesc (op s1 d imm : Nat) : BitVec 512 := descOf [op, 0, 0, s1, 0x200 + d * 2 ^ 25, imm, 1 + 3 * 2 ^ 7, 1 + 2 ^ 16]

/-- Whether a VXE descriptor of an opcode issues at the head of core 0's queue 1. -/
def vxeGoes (op : Nat) (d : BitVec 512) : Bool :=
  let s := settle (advance (headed 1 d) 0) 0
  decide (dOpcode d = op) && issues s 0 1 clean (entOf d) (fun u _ => vxeReady u 0) vxeCoded vxeRanges (fun _ _ => false)

theorem witness_VxeElementwiseResults :
    (∀ op ∈ [0x40, 0x41, 0x42, 0x43, 0x44, 0x45], vxeGoes op (vxeDesc op 0x100 0 0) = true) ∧
    (∀ op ∈ [0x50, 0x51, 0x52, 0x53, 0x54, 0x55, 0x48], vxeGoes op (vxeDesc op 0 0 0) = true) ∧
    (vxeGoes 0x46 (vxeDesc 0x46 0 0 0x40000000) = true) ∧
    HeadIssues (settle (advance (headed 1 (vxeDesc 0x48 0 1 4)) 0) 0) 0 1 clean (entOf (vxeDesc 0x48 0 1 4)) (fun u _ => vxeReady u 0) vxeCoded vxeRanges
      (fun _ _ => false) :=
  ⟨by decide +kernel, by decide +kernel, by decide +kernel, headIssues_of_issues (by decide +kernel)⟩

theorem witness_VxeReductionResults : ∀ op ∈ [0x58, 0x59, 0x5A, 0x5B, 0x5C], vxeGoes op (vxeDesc op 0 0 0) = true := by decide +kernel

theorem witness_VxeSelectionResults :
    vxeGoes 0x60 (vxeDesc 0x60 0 0 2) = true ∧ vxeGoes 0x61 (vxeDesc 0x61 0x100 0 2) = true ∧ vxeGoes 0x62 (vxeDesc 0x62 0 0 0) = true ∧
    vxeGoes 0x63 (vxeDesc 0x63 0x100 8 1) = true ∧ vxeGoes 0x7F (descOf [0x7F]) = true := by decide +kernel

/-- Whether an MXE descriptor of an opcode issues at the head of core 0's queue 0. -/
def mxeGoes (op : Nat) (d : BitVec 512) : Bool :=
  let s := settle (advance (headed 0 d) 0) 0
  decide (dOpcode d = op) && issues s 0 0 clean (entOf d) (fun u e => mxeReady u 0 e) mxeCoded mxeRanges (fun _ _ => false)

theorem witness_MxeCommandResults :
    mxeGoes 0x00 (descOf [0x00, 0, 0, 0x100, 0, 0, 4 + 2 ^ 16 + 2 ^ 23, 1 + 2 ^ 16]) = true ∧
    mxeGoes 0x01 (descOf [0x01, 0, 0x200, 0, 0x3F800000, 0, 1 + 2 ^ 16 + 2 ^ 23]) = true ∧
    storePaged (descOf [0x01, 0, 0x200, 0, 0x3F800000, 0, 1 + 2 ^ 16 + 2 ^ 23]) = false ∧
    mxeGoes 0x01 (descOf [0x01, 0, 0x200 + 2 ^ 31, 0x100, 0x3F800000, 0x20, 1 + 2 ^ 16 + 2 ^ 23, 0x400]) = true ∧
    storePaged (descOf [0x01, 0, 0x200 + 2 ^ 31, 0x100, 0x3F800000, 0x20, 1 + 2 ^ 16 + 2 ^ 23, 0x400]) = true ∧
    mxeGoes 0x02 (descOf [0x02, 0, 0, 0, 0, 0, 2 ^ 30]) = true ∧ mxeGoes 0x3F (descOf [0x3F]) = true := by decide +kernel

/-- Whether a MOU descriptor of an opcode issues at the head of core 0's queue 3. -/
def mouGoes (op : Nat) (d : BitVec 512) : Bool :=
  let s := settle (advance (headed 3 d) 0) 0
  decide (dOpcode d = op) && issues s 0 3 clean (entOf d) (fun u _ => mouReady u 0) mouCoded mouRanges (fun _ _ => false)

theorem witness_MouCommandResults :
    mouGoes 0xC0 (descOf [0xC0, 0, 0, 0, 0x40, 0x11223344, 0x80]) = true ∧ mouGoes 0xC1 (descOf [0xC1, 0, 0, 0, 0x40, 0, 0x80]) = true ∧
    (let s := settle (advance (headed 3 (descOf [0xC1, 0, 0, 0, 0x40, 0, 0x80])) 7) 0
     issues s 0 3 clean (entOf (descOf [0xC1, 0, 0, 0, 0x40, 0, 0x80])) (fun u _ => mouReady u 0) mouCoded mouRanges (fun _ _ => false) = true ∧
       (Machine.core s 0).before.cyc ≠ coreCycle s 0) ∧
    mouGoes 0xFF (descOf [0xFF]) = true := by decide +kernel

/-- Core 0 with an MVE descriptor at the head of queue 2, and a region entry that permits job 0 everything on the module. -/
def mveHeaded (d : BitVec 512) : State :=
  putRouter (headed 2 d) 11
    { Router.reset with
      protA := { entries := [(0, { ProtEntry.empty with valid := true, mode := 2, limit := 2 ^ 40, perm := 7, qos := 15 })], routes := [] } }

/-- Whether an MVE descriptor of an opcode issues at the head of core 0's queue 2. -/
def mveGoes (op : Nat) (d : BitVec 512) : Bool :=
  let s := settle (advance (mveHeaded d) 0) 0
  decide (dOpcode d = op) && issues s 0 2 clean (entOf d) (fun u _ => mveReady u 0) mveCoded mveRanges (fun u e => mveRefused u 0 e)

theorem witness_MveCommandsEnterExecution :
    (∀ op ∈ [0x80, 0x81], mveGoes op (descOf [op, 0, 0, 0x1000, 0, 64 + 2 ^ 20, 64, 1 + 2 ^ 17]) = true) ∧
    (∀ op ∈ [0x84, 0x85], mveGoes op (descOf [op, 0, 0, 0x1000, 0, 64, 64, 1 + 2 ^ 17, 0, 0, 0, 0, 0x100, 2]) = true) ∧
    (∀ op ∈ [0x88, 0x89], mveGoes op (descOf [op, 0, 0, 0x1000, 0, 8, 0, 2 ^ 17]) = true) ∧
    (∀ k ∈ [0, 1, 2, 3, 4, 5, 6], mveGoes 0x8A (descOf [0x8A, 0, 0, 0x1000, 0, 0, 0, 2 ^ 17 + k * 2 ^ 19]) = true ∧
      mveAtomicOp (descOf [0x8A, 0, 0, 0x1000, 0, 0, 0, 2 ^ 17 + k * 2 ^ 19]) = k) ∧
    (∀ k ∈ [0, 1, 2], mveGoes 0x8C (descOf [0x8C, 0, 0, 0, 0, 0, 0, k * 2 ^ 23]) = true ∧ mveScope (descOf [0x8C, 0, 0, 0, 0, 0, 0, k * 2 ^ 23]) = k) ∧
    mveGoes 0xBF (descOf [0xBF]) = true := by decide +kernel

/-- Core 0 with 256 entries in queue 1. -/
def fullQueue : State := putQueue coreUp 0 1 { Queue.reset with entries := List.replicate 256 (entOf 0) }

theorem witness_DescriptorsEnterTheirQueue :
    (reachable (advance up 0) (coreDie 0) (corePage 0 0) = true ∧ (queueOf (advance up 0) 0 1).entries.length < 256 ∧ (Machine.core (advance up 0) 0).clk.mode = .gated) ∧
    ((Machine.core (advance coreUp 0) 0).clk.mode = .run ∧ (queueOf (advance coreUp 0) 0 1).entries.length < 256) ∧
    (reachable (advance fullQueue 0) (coreDie 0) (corePage 0 0) = true ∧ (queueOf (advance fullQueue 0) 0 1).entries.length ≥ 256) := by decide +kernel

/-- A command of the VXE in execution on core 0. -/
def execOf (d : BitVec 512) : Exec :=
  { desc := d, slot := 0, retire := 0, seq := 0, lateFault := 0, gen := 0, genDone := true, orphan := false, issuedAt := 0, poisonSeen := false, counted := true,
    pack := [], packBad := false }

theorem witness_CommandsRetire :
    let s := putQueue coreUp 0 1 { Queue.reset with exec := [execOf (descOf [0x7F + 2 ^ 31 + 3 * 2 ^ 27])] }
    let s1 := settle (advance s 0) 0
    let e := execOf (descOf [0x7F + 2 ^ 31 + 3 * 2 ^ 27])
    (1 ≠ 2 ∧ (queueOf s1 0 1).exec = [e] ∧ e.retire ≤ coreCycle s1 0 ∧ e.orphan = false ∧ e.lateFault = 0 ∧ (Machine.core s1 0).notifyTo = none ∧
      (mapFind s1.softWait (pageKey (coreDie 0) (corePage 0 2))).isNone = true) ∧ dNotifyEn e.desc = true ∧ dNotifyIdx e.desc = 3 := by decide +kernel

/-- Core 0 with a context 1 of 256 bytes that is not VALID. -/
def ctxOne : State := withReg coreUp 11 20 0x114 1

/-- The same with a queued command of context 0. -/
def ctxUsed : State := headed 1 (descOf [0x7F])

theorem witness_TaskContextsFollowTheirRules :
    (let s := settle (advance ctxOne 0) 0
     reachable s 11 20 = true ∧ pageLocked s 11 20 = false ∧ tbit 0x100#32 9 = false ∧ tbit 0x100#32 8 = true ∧ tbit (ctxReg s 0 1 0xC) 0 = false ∧
       ctxBase s 0 1 < ctxBound s 0 1 ∧ ctxBound s 0 1 ≤ 24 * 2 ^ 20 ∧ ctxOverlaps s 0 1 (fld 0x100#32 0 8) = false ∧
       tbit (ctxReg s 0 0 0xC) 0 = true ∧ tbit 0x200#32 9 = true ∧ ctxRefs (Machine.core s 0) 0 = 0 ∧ tbit 5#32 9 = false ∧ tbit 5#32 8 = false) ∧
    (ctxRefs (Machine.core (settle (advance ctxUsed 0) 0) 0) 0 ≠ 0) ∧
    (coreDie 0 = 11 ∧ corePage 0 4 = 20) ∧
    (let s := putCore coreUp 0 { Machine.core coreUp 0 with fills := [{ ctx := 0, start := 0, last := 10, lo := 0, hi := 256, pos := 256 }] }
     ∀ f ∈ (Machine.core (advance s 100) 0).fills, f.last < coreCycle (advance s 100) 0) := by decide +kernel

/-- Request `n` of core 0, of a scope (0 for a request that travels). -/
def reqOf (n scope : Nat) : MveReq :=
  { slot := n, generation := 1, seq := n, laddr := 0, len := 8, node := 0, offset := 0x1000, inward := true, fenceScope := scope, expiry := 0, orphanAt := none,
    trip := none }

/-- Core 0 with requests outstanding. -/
def asked (l : List MveReq) : State := putCore coreUp 0 { Machine.core coreUp 0 with reqs := l }

/-- Request 5 on its way through the crossbar to the slot of logical core 0: the cycle at which it is due, and its answer. -/
def travels (due : Option Nat) (ans : Option Resp) : MveReq :=
  { reqOf 5 0 with
    trip := some { target := some 0, msg := { msg0 with offset := 0x010000000000, len := 8 }, sent := 0, arrive := 0, left := 0, last := 0, due := due, ans := ans } }

/-- Core 0 with a mapping change armed. -/
def armedMap (s : State) : State := withReg s 11 (corePage 0 0) 0x040 0x100

/-- A KV_LAYOUT of job 1: one layer and group, 2 local and 2 spread slots, 4 layers of pages on one module. -/
def kv0 : KvLayout :=
  { job := 1, format := 0, slots := 4, localSlots := 2, layers := 1, groups := 1, n := 1, sink := 0,
    frames := [{ layer := 0, first := 0, count := 4, pages := 4, base := 0x100000, slotStride := 0x100000, groupStride := 0x40000 }],
    rings := [{ layer := 0, die := 11, core := 0, ctx := 0, first := 0, count := 4, group := 0, ring := 0, sink := 0, stage := 0, stageUnits := 1 }],
    parity := [] }

/-- A plan of one module that runs job 1 and holds model 0 for it. -/
def plan0 : PlanInfo :=
  { id := 0, unit := 0, profile := 1, freqMode := 0, base := 1024, origin := 0, x := 1, y := 1, z := 1, floor := 0, jobs := [{ tag := 1, depth := 1, chunk := 1, slots := 4 }],
    stages := [], contexts := [], extents := [], kv := [kv0],
    env := some { pool := 0, thresh := 0x40000000, alpha := 0, warmup := 1, stop := 2, layers := [], targets := [] }, canopy := [(0, [1])], fallback := [] }

/-- A plan with a stage for logical core 1 of die 11, faster than physical core 0 allows. -/
def slowStage : State :=
  { coreUp with plan := some { plan0 with stages := [{ node := 0, die := 11, logical := 1, job := 1, layer := 0, group := 0, mhz := 1900 }] } }

theorem witness_CoreRegistersAndCrossbar :
    (reachable (advance coreUp 0) 11 (corePage 0 0) = true ∧ reachable (advance coreUp 0) 11 (corePage 0 3) = true ∧ tbit 1#32 0 = true) ∧
    (let s1 := advance coreUp 0
     pageLocked s1 11 (corePage 0 0) = false ∧ mapPending s1 0 = false ∧ takeOk s1 0 (fld 0x101#32 0 5) = true ∧ tbit 0x101#32 8 = true ∧ tbit 1#32 8 = false) ∧
    (let s1 := advance (armedMap coreUp) 0
     pageLocked s1 11 (corePage 0 0) = false ∧ mapPending s1 0 = true) ∧
    (let s1 := advance slowStage 0
     pageLocked s1 11 (corePage 0 0) = false ∧ mapPending s1 0 = false ∧ takeOk s1 0 (fld 0x101#32 0 5) = false) ∧
    (let s0 := servePorts (advance coreUp 0) 0
     tripFor s0 (cpDie 0) 0 { off := 0x017FFFF8, write := true, len := 8, data := [1#8, 2#8, 3#8, 4#8, 5#8, 6#8, 7#8, 8#8], poison := [] } = none ∧
       0x017FFFF8 + 8 ≤ 0x01800000 ∧ physOf s0 (cpDie 0) 0 = some 0 ∧ (Machine.core (settle s0 0) 0).fills = [] ∧ 0x017FFFF9 + 8 > 0x01800000) ∧
    (let s0 := servePorts (advance (withReg coreUp 11 (corePage 0 0) 0x040 31) 0) 0
     physOf s0 (cpDie 0) 0 = none ∧ tripFor s0 (cpDie 0) 0 { off := 0, write := false, len := 8, data := [], poison := [] } = none) ∧
    (∀ b ∈ [true, false], let s0 := servePorts (advance (asked [travels (if b then some 0 else some 9) none]) 0) 0
     (tripFor s0 (cpDie 0) 0 { off := 0, write := false, len := 8, data := [], poison := [] }).map
       (fun x => (x.1, tripReady s0 x.1 x.2.2)) = some (0, b)) := by decide +kernel

/-- Core 0 with a LOAD of 8 bytes of a class in execution that has sent no request. -/
def loadingOf (cls : Nat) : State :=
  putQueue coreUp 0 2 { Queue.reset with exec := [{ execOf (descOf [0x88, 0, 0, 0x1000, 0, 8, 0, 2 ^ 16 * cls]) with genDone := false }] }

/-- The same in class 2. -/
def loading : State := loadingOf 2

/-- The load with its planned class, 32 flits in the queue of its first hop's output. -/
def crowded : State :=
  putRouter (loadingOf 0) 11
    { Router.reset with inj := (upFrom 0 5).map (fun _ => { InjQueue.reset with flits := List.replicate 32 ({ poison := false, bytes := [] } : Flit) }) }

/-- A response without error. -/
def resp0 : Resp := { generation := 1, err := 0, data := [1#8, 2#8, 3#8, 4#8, 5#8, 6#8, 7#8, 8#8], poison := [], late := false }

theorem witness_MveRequestsLiveAndEnd :
    ((Machine.core (advance up 0) 0).clk.mode ≠ .run) ∧
    (∀ b ∈ [false, true], let s1 := advance (if b then crowded else loading) 0
     let s2 := settle (servePorts s1 0) 0
     (Machine.core s1 0).clk.mode = .run ∧ isHalted s1 (coreDie 0) (corePage 0 0) = false ∧ (Machine.core s2 0).genNext ≤ coreCycle s2 0 ∧
       (Machine.core s2 0).reqs.length < 512 ∧
       (generating (Machine.core s2 0).q2).map (fun e => (dOpcode e.desc, mveNode e.desc, e.gen, mveBytes e.desc)) = some (0x88, ownNode s2, 0, 8) ∧
       nodeX (ownNode s2) < 4 ∧
       (generating (Machine.core s2 0).q2).map (fun e => planWaits s2 0 (formRequest s2 0 e 0 0 8 0x1000 0 0)) = some b) ∧
    (let s1 := advance (putCore loading 0 { Machine.core loading 0 with reqs := (upFrom 0 512).map (fun n => reqOf n 0) }) 0
     let s2 := settle (servePorts s1 0) 0
     (Machine.core s2 0).reqs.length ≥ 512 ∧ (generating (Machine.core s2 0).q2).isSome = true ∧ (Machine.core s1 0).clk.mode = .run ∧
       (Machine.core s2 0).genNext ≤ coreCycle s2 0) ∧
    (let s0 := servePorts (advance (asked [reqOf 5 0, reqOf 6 0]) 0) 0
     (Machine.core s0 0).reqs = reqOf 5 0 :: [reqOf 6 0] ∧ (reqOf 5 0).slot = 5 ∧ (reqOf 5 0).fenceScope = 0 ∧ (reqOf 5 0).orphanAt = none ∧
       (reqOf 5 0).generation = resp0.generation ∧ resp0.err = 0 ∧ ({ resp0 with err := 0x4010 } : Resp).err ≠ 0 ∧
       (Machine.core s0 0).reqs.find? (fun r => decide (r.slot = 5) && r.trip.isSome) = none) ∧
    (let s0 := servePorts (advance (putCore loading 0 { Machine.core loading 0 with reqs := [reqOf 0 0] }) 0) 0
     execBySeq (Machine.core (settle s0 0) 0) (reqOf 0 0).seq ≠ none ∧ (Machine.core s0 0).reqs = reqOf 0 0 :: []) ∧
    (∀ q ∈ (Machine.core (servePorts (advance (asked [reqOf 5 0]) 0) 0) 0).reqs, q.slot = 5 → q.generation ≠ { resp0 with generation := 2 }.generation) ∧
    (∀ b ∈ [true, false], let r := travels (if b then some 0 else some 9) (some resp0)
     let s0 := servePorts (advance (asked [r]) 0) 0
     (Machine.core s0 0).reqs.find? (fun r => decide (r.slot = 5) && r.trip.isSome) = some r ∧ r.trip.map (fun tr => (tripReady s0 0 tr, tr.ans)) = some (b, some resp0) ∧
       r.orphanAt = none) ∧
    (((Machine.core (advance (asked [reqOf 5 3]) 0) 0).reqs.filter (fun r => decide (r.fenceScope ≠ 0))).head? = some (reqOf 5 3) ∧
      (∀ r ∈ (Machine.core (advance (asked [reqOf 5 3]) 0) 0).reqs, r.fenceScope = 0 → r.seq < 5 → r.orphanAt = none →
        inScope (advance (asked [reqOf 5 3]) 0) 0 (3 - 1) r = false)) ∧
    (((Machine.core (advance (asked [reqOf 5 0, reqOf 6 0]) 0) 0).reqs.map (fun r => r.slot)).Nodup) :=
  ⟨by decide +kernel, by decide +kernel, by decide +kernel, by decide +kernel, by decide +kernel, by decide +kernel, by decide +kernel, by decide +kernel,
    by decide +kernel⟩

/-! ## Witnesses: the mesh and the frame sequencers -/

/-- Frames run at a die: FRAME_STATUS.RUNNING, with the sequencer as given. -/
def running (s : State) (d : Nat) (x : Frs) : State := putFrs (withReg s d 1 0x044 1) d x

/-- A planned flit. -/
def flit7 : Flit := { poison := false, bytes := [7#8] }

/-- Die 11 in a frame whose schedule forwards input `inp` to output `o` in planned cycle 0, its edges up or down, with flits on their way and
queued. -/
def planned (inp o : Nat) (edges : Bool) (hops : List Hop) (flits : List Flit) : State :=
  putRouter (running (withReg (withReg up 11 0 0x040 3) 11 0 0x044 (if edges then 0xF else 0)) 11 { Frs.reset with ends := 64000 }) 11
    { Router.reset with
      bankA := { cycles := 97, runs := [{ first := 1, count := 1, out := o, inp := inp }] }, hops := hops,
      inj := (upFrom 0 5).map (fun _ => { InjQueue.reset with flits := flits }) }

/-- The same with one flit due from the west. -/
def flitDue (o : Nat) (edges : Bool) : State := planned 3 o edges [{ inp := 3, due := 0, flit := flit7 }] []

/-- What every planned forwarding of an input of die 11 needs. -/
def forwards (s1 : State) (inp o : Nat) : Bool :=
  tbit (reg s1 11 0 0x040) 0 && decide (isDynamic s1 11 = false ∧ isHalted s1 11 0 = false)
    && decide (plannedIndex (frameCyc s1 11) < (schedBank s1 11).cycles ∧ inp ∉ fedInputs s1 11 (plannedIndex (frameCyc s1 11)) ∧
      outputsOf (schedBank s1 11) (plannedIndex (frameCyc s1 11)) inp = [o])

/-- The flits due at an input of die 11 in its planned cycle. -/
def dueAt (s1 : State) (inp : Nat) : List Hop :=
  (router s1 11).hops.filter (fun h => decide (h.inp = inp) && decide (h.due = plannedIndex (frameCyc s1 11)))

theorem witness_PlannedFlitsFollowTheSchedule :
    (isDynamic (advance (flitDue 4 true) 0) 11 = true ∧ (schedBank (advance up 0) 11).cycles ≤ plannedIndex (frameCyc (advance up 0) 11)) ∧
    (let s1 := advance (putRouter (flitDue 4 true) 11 { router (flitDue 4 true) 11 with fed := some (0, 0, [3]) }) 5
     3 ∈ fedInputs s1 11 (plannedIndex (frameCyc s1 11)) ∧ isDynamic s1 11 = false) ∧
    (∀ o ∈ [4, 1], ∀ b ∈ [true, false], let s := flitDue o b
      let s1 := advance s 5
      routersWf s = true ∧ forwards s1 3 o = true ∧ dueAt s1 3 = [{ inp := 3, due := 0, flit := flit7 }] ∧ edgeUp s1 11 3 = b) ∧
    (∀ o ∈ [4, 1], ∀ b ∈ [true, false], let s1 := advance (planned 3 o b [] []) 5
      forwards s1 3 o = true ∧ dueAt s1 3 = [] ∧ edgeUp s1 11 3 = b) ∧
    (∀ o ∈ [4, 1], let s1 := advance (planned 4 o true [] [flit7]) 5
      forwards s1 4 o = true ∧ (injQ (router s1 11) o).flits = flit7 :: []) ∧
    (∀ o ∈ [4, 1], let s1 := advance (planned 4 o true [] []) 5
      forwards s1 4 o = true ∧ (injQ (router s1 11) o).flits = []) ∧
    (neighbour 11 1 = some 12) := by decide +kernel

/-- The module with die 11's edges up. -/
def edges : State := withReg up 11 0 0x044 0xF

/-- A message for a die, entered in mesh cycle 0. -/
def dynMsg (dst : Nat) : DynMsg := { dst := dst, payload := [1#8], entered := 0, report := none }

/-- Die 11 with one dynamic message at its local input. -/
def msgAt (dst : Nat) : State := putRouter (withReg edges 11 0 0x040 3) 11 { Router.reset with inputs := [[dynMsg dst], [], [], [], []] }

theorem witness_DynamicMessagesMoveOneHop :
    (routersWf up = true ∧ isDynamic (advance (flitDue 4 true) 5) 11 = false ∧ routersWf (flitDue 4 true) = true ∧
      meshCyc (advance edges 0) (advance edges 0).now < (router (advance (putRouter edges 11 { Router.reset with dynNext := 1 }) 0) 11).dynNext) ∧
    (let s1 := advance (msgAt 11) 5
     routersWf (msgAt 11) = true ∧ isDynamic s1 11 = true ∧ (router s1 11).dynNext ≤ meshCyc s1 s1.now ∧ tbit (reg s1 11 0 0x040) 1 = true ∧
       (router s1 11).inputs = [[dynMsg 11], [], [], [], []] ∧ (router s1 11).flits = [[], [], [], [], []] ∧ (dynMsg 11).report = none ∧ (dynMsg 11).entered < meshCyc s1 s1.now ∧ (dynMsg 11).payload.length ≤ 256 ∧
       dynRoute s1 11 11 = 4) ∧
    (let s1 := advance (msgAt 12) 5
     isDynamic s1 11 = true ∧ (router s1 11).inputs = [[dynMsg 12], [], [], [], []] ∧ dynRoute s1 11 12 = 1 ∧ neighbour 11 1 = some 12 ∧
       edgeUp s1 11 1 = true ∧ (∀ b ∈ ([] : List (Fin 4)), b.val ≠ 1) ∧ (∃ b ∈ ([1] : List (Fin 4)), b.val = 1) ∧
       nth (router s1 12).fails (facing 1) 0 < 7 ∧
       nth (router (advance (putRouter (msgAt 12) 12 { Router.reset with fails := [7, 7, 7, 7] }) 5) 12).fails (facing 1) 0 = 7) := by decide +kernel

/-- Die 11 with an injection queue for the north. -/
def injecting (q : InjQueue) : State := putRouter up 11 { Router.reset with inj := q :: Router.reset.inj.tail }

theorem witness_EdgesBanksAndInjection :
    (routersWf edges = true ∧ edgeUp (advance edges 0) 11 1 = true ∧ reachable (advance up 0) 11 0 = true ∧ pageLocked (advance up 0) 11 0 = false ∧
      tbit (reg (advance up 0) 11 0 0x04C) 1 = false ∧ edgeUp (advance up 0) 11 1 = false) ∧
    (tbit (reg (advance (withReg up 11 0 0x04C 2) 0) 11 0 0x04C) 1 = true ∧ reachable (advance (withReg up 11 0 0x04C 2) 0) 11 0 = true) ∧
    (∀ q ∈ [InjQueue.reset, { InjQueue.reset with flits := List.replicate 31 ({ poison := false, bytes := [] } : Flit) }, { InjQueue.reset with flits := List.replicate 32 ({ poison := false, bytes := [] } : Flit) },
        { InjQueue.reset with late := 1 }, { InjQueue.reset with waiting := [flit7] }], routersWf (injecting q) = true ∧ injQ (router (advance (injecting q) 0) 11) 0 = q) := by decide +kernel

theorem witness_SyncPulsesBeginEpochs :
    (11 ∈ frsDies ∧ reachable (advance up 0) 11 1 = true ∧ (frsOf (advance up 0) 11).synced = false) ∧
    (let s := putFrs up 11 { Frs.reset with synced := true, missing := 15 }
     epochTick (advance s 0) 11 = 0 ∧ epochTick (advance s 64) 11 ≠ 0 ∧ (frsOf (advance s 64) 11).synced = true ∧
       (frsOf (advance s 0) 11).missing = 15 ∧ reachable (advance s 64) 11 1 = true) := by decide +kernel

theorem witness_RunArmsAndStopsFrames :
    (let s1 := advance (withReg up 11 1 0x05C 1) 0
     reachable s1 11 1 = true ∧ pageLocked s1 11 1 = false ∧ tbit 0x01000400#32 24 = true ∧ tbit (reg s1 11 1 0x040) 24 = false ∧
       frsRunning s1 11 = false ∧ startArmed s1 11 = false ∧ syncEpoch s1 11 < (reg s1 11 1 0x05C).toNat) ∧
    (syncEpoch (advance up 0) 11 ≥ (reg (advance up 0) 11 1 0x05C).toNat ∧ tbit (reg (advance up 0) 11 1 0x064) 1 = false) ∧
    (startArmed (advance (withReg up 11 1 0x044 2) 0) 11 = true ∧ tbit 0x400#32 24 = false) ∧
    (frsRunning (advance (withReg up 11 1 0x044 1) 0) 11 = true ∧ startArmed (advance (withReg up 11 1 0x044 1) 0) 11 = false) ∧
    (tbit (reg (advance (withReg up 11 1 0x064 2) 0) 11 1 0x064) 1 = true ∧ reachable (advance (withReg up 11 1 0x064 2) 0) 11 1 = true) := by
  decide +kernel

/-- Die 11 with a start armed for epoch 0, in step. -/
def armed : State := putFrs (withReg (withReg up 11 1 0x044 2) 11 1 0x040 0x01000400) 11 { Frs.reset with synced := true }

/-- Die 11 at the end of a frame of 1,024 ticks. -/
def frameEnd (stop : Bool) : State := running (withReg up 11 1 0x040 0x01000400) 11 { Frs.reset with ends := 65536, stop := stop }

theorem witness_FramesStartAdvanceAndStop :
    (armed.plan = none ∧ armed.planNext = none ∧ armed.gop.capture = none ∧ armed.gop.resetAt = none ∧ 11 ∈ frsDies ∧
      startDue (advance armed 0) 11 = true) ∧
    (let s1 := advance (putFrs (withReg (withReg up 0 1 0x044 2) 0 1 0x040 0x01000400) 0 { Frs.reset with synced := true }) 0
     startDue s1 0 = true ∧ ∀ d ∈ frsDies, frsRunning s1 d = false) ∧
    (∀ b ∈ [false, true], (frameEnd b).plan = none ∧ (frameEnd b).planNext = none ∧ (frameEnd b).gop.capture = none ∧ (frameEnd b).gop.resetAt = none ∧
      frsRunning (advance (frameEnd b) 65536) 11 = true ∧ (frsOf (advance (frameEnd b) 65536) 11).ends ≤ (advance (frameEnd b) 65536).now ∧
      isHalted (advance (withReg (frameEnd b) 11 1 0x00C 4) 65536) 11 1 = true ∧ isHalted (advance (frameEnd b) 65536) 11 1 = false ∧ (frsOf (advance (frameEnd b) 65536) 11).stop = b ∧
      (advance (frameEnd b) 65535).now < (frsOf (advance (frameEnd b) 65535) 11).ends) := by decide +kernel

/-- A die in a frame of 1,024 ticks whose program's one segment holds one entry. -/
def entryDue (s : State) (d : Nat) (e : BitVec 128) (ds : List (BitVec 512)) : State :=
  running s d
    { Frs.reset with
      ends := 65536,
      bankA :=
        { FBank.empty with base := 1024, segs := [{ start := 0, len := 1024, firstEntry := 0, count := 1, nxt := 0 }], entries := [e], descs := ds } }

/-- Whether the entry starts at a moment. -/
def starts (s : State) (die op : Nat) (e : BitVec 128) : Bool :=
  decide (frsRunning s die = true ∧ outOfStep s die = false ∧ isHalted s die 1 = false)
    && decide (((segEntries (progBank s die) (segOf (progBank s die) (entryPlace s die).seg)).drop (entryPlace s die).idx).head? = some e)
    && decide (entOp e = op)
    && decide ((frsOf s die).began + 64 * entAt e ≤ entryEdge s die ∧ (frsOf s die).startNext ≤ entryEdge s die ∧
      entryEdge s die < (frsOf s die).began + 64 * baseTicks s die)

theorem entryStarts_of_starts {s : State} {die op : Nat} {e : BitVec 128} (h : starts s die op e = true) : EntryStarts s die op e := by
  simp only [starts, Bool.and_eq_true, decide_eq_true_eq] at h
  obtain ⟨⟨⟨a, b⟩, c⟩, d⟩ := h
  exact ⟨a, b, c, d⟩

/-- An entry of an operation at tick 0 with fields from bit 32 on. -/
def entry (op rest : Nat) : BitVec 128 := BitVec.ofNat 128 (op + rest * 2 ^ 32)

theorem witness_ProgramEntriesAct :
    (∀ op ∈ [1, 7, 8], starts (advance (entryDue up 11 (entry op 0) []) 0) 11 op (entry op 0) = true) ∧
    (starts (advance (entryDue up 0 (entry 9 0) []) 0) 0 9 (entry 9 0) = true) ∧
    (jumpHolds (edgeState (advance (entryDue up 11 (entry 7 0) []) 0) 11) 11 (entry 7 0) = true ∧
      jumpHolds (edgeState (advance (entryDue up 11 (entry 7 4) []) 3) 11) 11 (entry 7 4) = false ∧
      starts (advance (entryDue up 11 (entry 7 4) []) 3) 11 7 (entry 7 4) = true) ∧
    (starts (advance (entryDue coreUp 11 (entry 2 1) [descOf [0x7F]]) 0) 11 2 (entry 2 1) = true ∧
      physOf (advance (entryDue coreUp 11 (entry 2 1) [descOf [0x7F]]) 0) 11 (fld (entry 2 1) 56 4) = some 0) ∧
    (let h : HeldDesc := { core := 0, queue := 1, desc := descOf [0x7F], earliest := 0 }
     let s1 := advance (putFrs coreUp 11 { Frs.reset with held := [h] }) 0
     takeHeld 0 (frsOf s1 (cpDie 0)).held = some (h, []) ∧ h.queue < 4 ∧ (Machine.core s1 0).clk.mode = .run ∧ h.earliest ≤ coreCycle s1 0 ∧
       mapGet (frsOf s1 (cpDie 0)).pushNext 0 0 ≤ coreCycle s1 0 ∧ (queueOf s1 0 1).entries.length < 256) ∧
    EntryStarts (advance (entryDue up 11 (entry 1 0) []) 0) 11 1 (entry 1 0) :=
  ⟨by decide +kernel, by decide +kernel, by decide +kernel, by decide +kernel, by decide +kernel, entryStarts_of_starts (by decide +kernel)⟩

theorem witness_ClockEntriesAct :
    (starts (advance (entryDue up 3 (entry 3 3) []) 0) 3 3 (entry 3 3) = true ∧ dieType 3 = .memory ∧ (1 : Nat) < 2 ∧ fld (entry 3 3) 32 32 / 2 ^ 1 % 2 = 1 ∧
      memUnit (advance (entryDue up 3 (entry 3 3) []) 0) (dieOrd 3) 1 = .gated) ∧
    (let s1 := advance (entryDue up 11 (entry 3 1) []) 0
     starts s1 11 3 (entry 3 1) = true ∧ dieType 11 = .compute ∧ maskCores s1 11 (fld (entry 3 1) 32 32) = [0] ∧ coreDie 0 = 11 ∧
       (Machine.core s1 0).clk.mode = .gated) ∧
    (∀ s ∈ [coreUp, headed 1 (descOf [0x7F])], let s1 := advance (entryDue s 11 (entry 4 1) []) 0
     starts s1 11 4 (entry 4 1) = true ∧ maskCores s1 11 (fld (entry 4 1) 32 32) = [0] ∧ (Machine.core s1 0).clk.mode = .run) ∧
    (coreWorks (Machine.core coreUp 0) = false ∧ coreWorks (Machine.core (headed 1 (descOf [0x7F])) 0) = true) ∧
    (starts (advance (entryDue up 3 (entry 5 0xF) []) 0) 3 5 (entry 5 0xF) = true) ∧
    (let s1 := advance (entryDue (withReg up 11 3 0x040 1) 11 (entry 6 (0x1000 + 16 * 2 ^ 16)) []) 0
     starts s1 11 6 (entry 6 (0x1000 + 16 * 2 ^ 16)) = true ∧ tbit (bstReg s1 11 0x040) 0 = true ∧ reachable s1 11 3 = true ∧
       fld (entry 6 (0x1000 + 16 * 2 ^ 16)) 32 16 ≠ 0xFFFF ∧ fld (entry 6 (0x1000 + 16 * 2 ^ 16)) 48 16 ≠ 0xFFFF ∧
       sliceMay s1 11 (fld (entry 6 (0x1000 + 16 * 2 ^ 16)) 32 16) (fld (entry 6 (0x1000 + 16 * 2 ^ 16)) 48 16) = true) ∧
    (∀ b ∈ [false, true], let s := { up with memUnits := [(0, .run)], mbc := [(0, { Mbc.reset with dgAt := if b then some 0 else none })] }
     let s1 := advance (entryDue s 3 (entry 4 1) []) 0
     starts s1 3 4 (entry 4 1) = true ∧ fld (entry 4 1) 32 32 / 2 ^ 0 % 2 = 1 ∧ memUnit s1 (dieOrd 3) 0 = .run ∧ memWorks s1 (dieOrd 3) 0 = b) ∧
    (let x : CoreSt := { Machine.core coreUp 0 with clk := { CoreClk.reset with mode := .waking, wakeAt := 512 } }
     (Machine.core (advance (putCore coreUp 0 x) 512) (dieOrd 11 * 18 + 0)).clk.mode = .waking ∧
       (Machine.core (advance (putCore coreUp 0 x) 512) (dieOrd 11 * 18 + 0)).clk.wakeAt ≤ (advance (putCore coreUp 0 x) 512).now) ∧
    (let x : CoreSt := { Machine.core coreUp 0 with clk := { CoreClk.reset with mode := .run, gateIdle := true } }
     (Machine.core (advance (putCore coreUp 0 x) 0) 0).clk.gateIdle = true ∧ coreWorks (Machine.core (advance (putCore coreUp 0 x) 0) 0) = false ∧
       (Machine.core (advance (putCore coreUp 0 x) 0) 0).clk.mode = .run) := by decide +kernel

/-- A slot change. -/
def chg0 : SlotChg := { node := 0, job := 1, slot := 2, newState := 1, len := 5 }

theorem witness_AgreementsAndSlotChanges :
    (frsRunning (advance (running up 0 Frs.reset) 0) 0 = true) ∧ (frsRunning (advance (running up 11 Frs.reset) 0) 11 = true) ∧
    (([{ node := 0, level := 3, changes := [chg0], boundary := 0 }] : List Xchg) ≠ [] ∧
      rackLead (sortXchgs [{ node := 0, level := 3, changes := [chg0], boundary := 0 }, { node := 256, level := 0, changes := [], boundary := 81 }])
        (fld (reg (advance up 0) 90 8 0x040) 8 8) > 80) ∧
    (reachable (advance up 0) 0 1 = true ∧ (frsOf (advance up 0) 0).chgQueue.length < 64) ∧
    (let s1 := advance (putFrs up 0 { Frs.reset with chgQueue := List.replicate 64 chg0 }) 0
     reachable s1 0 1 = true ∧ (frsOf s1 0).chgQueue.length ≥ 64) := by decide +kernel

/-- Die 11 with norm-watch entry 0 valid and in effect, its tick the first of the frame. -/
def watching : State := running (withReg (withReg (withReg (withReg coreUp 11 1 0x840 0x80000000) 11 1 0x800 3) 11 1 0x848 1040) 11 1 0x040 1040) 11
  { Frs.reset with nwEn := true, ends := 64 * 1040 }

theorem witness_NormWatchSteps :
    (verdictDue (advance watching 60) 11 0 = true ∧ cpDie 0 = 11 ∧ (readSample (advance watching 60) 11 0).1 = .value 0x21B72243#32) ∧
    (let s1 := advance (putCore watching 0 { Machine.core watching 0 with spm := [(0, 0xFF#8), (1, 0xFF#8), (2, 0xFF#8), (3, 0xFF#8)] }) 60
     verdictDue s1 11 0 = true ∧ (readSample s1 11 0).1 = .missing) ∧
    (frsRunning (advance watching 0) 11 = true ∧ frameNum (advance watching 0) 11 ≤ 0) ∧
    (frsRunning (advance (withReg watching 11 1 0x048 1) 0) 11 = true ∧ 0 < frameNum (advance (withReg watching 11 1 0x048 1) 0) 11) ∧
    (dieType 0 = .trunk ∧ reachable (advance up 0) 0 9 = true ∧
      tbit (rq (advance (withReg up 0 9 0x300 1) 0) (dieOrd 0) (0x300 + 4 * ((0 : Fin 256).val / 32))) ((0 : Fin 256).val % 32) = true) ∧
    (reachable (advance up 0) 11 1 = true ∧ pageLocked (advance up 0) 11 1 = false ∧ fld 1#32 1 3 = 0 ∧ fld 3#32 1 3 ≠ 0 ∧
      fld 2#32 1 3 ≠ 0 ∧ tbit (reg (advance up 0) 11 1 0x800) 0 = false ∧ tbit 2#32 0 = false) := by decide +kernel

/-- The module with stack 0's first line as given and parity region 0 of it off or on. -/
def lineIs (st : LineSt) (parity : Bool) : State :=
  { (if parity then withReg up 3 8 0x304 0x80000001 else up) with t1line := [(0, st)] }

theorem witness_PlannedAccessesFollowTheirLines :
    ((0 : Nat) < stackSize ∧ isHalted (advance up 0) (mmDie 0) 8 = false ∧ inOrder (advance up 0) 0 0 = true ∧
      isHalted (advance (withReg up 3 8 0x00C 4) 0) (mmDie 0) 8 = true ∧
      inOrder (advance { up with mbc := [(0, { Mbc.reset with planIn := 3 })] } 0) 0 0 = false) ∧
    (initialising (mbcOf (advance { up with mbc := [(0, { Mbc.reset with initAt := some 0 })] } 0) 0) = true) ∧
    (initialising (mbcOf (advance up 0) 0) = false ∧ (0 : Nat) % 64 = 0 ∧ (List.replicate 64 1#8).length = 64 ∧ xorRegion (advance up 0) 0 0 = none) ∧
    (60 % 64 + [1#8, 2#8, 3#8, 4#8].length ≤ 64 ∧ 0 < [1#8, 2#8, 3#8, 4#8].length ∧ (xorRegion (advance (lineIs .clean true) 0) 0 60).isSome = true ∧
      lineSt (advance (lineIs .clean true) 0) 0 = .clean) ∧
    (xorRegion (advance (lineIs .never false) 0) 0 60 = none ∧ lineSt (advance (lineIs .never false) 0) 0 = .never) ∧
    (refreshLate (mbcOf (advance (lineIs .clean false) 0) 0) 60 4 0 = false ∧ (4 : Nat) < 64 ∧
      refreshLate (mbcOf (advance { lineIs .clean false with mbc := [(0, { Mbc.reset with refAt := List.replicate 16 1 })] } 2) 0) 60 4 2 = true) ∧
    (isHalted (advance (lineIs .clean false) 0) (mmDie 0) 8 = false ∧ lineSt (advance (lineIs .clean false) 0) ((0 * stackSize + 60) / 64) = .clean) := by
  decide +kernel

/-- A write of 64 bytes to line 0, from node 0. -/
def lineWrite : FabMsg := { msg0 with op := 2, len := 64, data := List.replicate 64 5#8, tag := 9 }

/-- A die whose home queue holds a request and whose mesh port holds another. -/
def queued (d : Nat) : State :=
  { up with homeQ := [(d, { q := [{ msg := lineWrite, inp := 0, pool := none }], held := [{ msg := lineWrite, inp := 0, pool := none }], since := 0 })] }

/-- Die 98 with a Tier 2 request granted: a read of a message at a pool address. -/
def granted (pool : Option Nat) (m : FabMsg) : State :=
  { withReg (withReg up 98 8 0x044 0x200) 98 8 0x040 1 with mover := { Mover.reset with run := [{ msg := m, inp := 0, pool := pool }] } }

/-- A move of two tiles from Tier 1 to Tier 2. -/
def move0 : Move :=
  { t1 := 0, t2 := 0, tiles := 2, inward := false, srcPoison := false, tag := 7, due := 500, moved := 0, status := 0 }

/-- Die 98 with its CXL link up, segment 0 mapped, and a move in progress. -/
def moving (m : Move) : State :=
  { withReg (granted none msg0) 98 8 0x800 0x80000000 with
    mover := { Mover.reset with cur := some m, grant := true }, mbc := [(0, { Mbc.reset with grant := some 1 })], t1line := (upFrom 0 64).map (fun l => (l, .clean)) }

theorem witness_ArbitersGrantAndQueuesAdmit :
    (dieType 0 ≠ .memory ∧ isHalted (advance (withReg up 3 8 0x00C 4) 0) 3 8 = true ∧ isHalted (advance up 0) 3 8 = false ∧ dieType 3 = .memory) ∧
    (initialising (mbcOf (advance { up with mbc := [(0, { Mbc.reset with initAt := some 0 })] } 0) 0) = true) ∧
    (let s1 := advance (withReg { up with mbc := [(0, { Mbc.reset with grant := some 2 })] } 3 8 0x050 1) 0
     (mbcOf s1 0).grant = some 2 ∧ portWaits s1 0 2 = true) ∧
    (let s1 := advance (withReg up 3 8 0x050 1) 0
     initialising (mbcOf s1 (dieOrd 3)) = false ∧ (mbcOf s1 (dieOrd 3)).grant = none ∧ (homeQ s1 3).q = [] ∧
       waitingPorts s1 0 [2, 3] = [2, 3] ∧ paced s1 (mbcOf s1 0).arb [2, 3] = [2, 3]) ∧
    (let s1 := advance (withReg { up with power := { PowerSt.reset with pace := [0, 3, 0] }, mbc := [(0, { Mbc.reset with arb := { waits := [0, 0, 0, 0], last := 3, held := 1 } })] } 3 8 0x050 1) 0
     waitingPorts s1 0 [2] = [2] ∧ paced s1 (mbcOf s1 0).arb [2] = []) ∧
    (let s := { up with mbc := [(0, { Mbc.reset with arb := { waits := [0, 0, 1024, 0], last := 3 } })] }
     nth (mbcOf (advance s 0) 0).arb.waits 2 0 ≥ 1024) ∧
    (let s1 := advance (queued 3) 0
     (homeQ s1 3).q = [{ msg := lineWrite, inp := 0, pool := none }] ∧ lineWrite.op = 2 ∧ lineWrite.data.length = 64 ∧ lineWrite.offset % 64 = 0 ∧
       lineWrite.offset < t1Size ∧
       xorRegion (putMbc s1 0 { mbcOf s1 0 with regionsOf := [] }) (lineWrite.offset / stackSize) (lineWrite.offset % stackSize) = none ∧
       initialising (mbcOf s1 (dieOrd 3)) = false ∧ (mbcOf s1 (dieOrd 3)).grant = none ∧ isHalted s1 3 8 = false ∧
       refreshingAt (mbcOf s1 0) (lineWrite.offset % stackSize) (max lineWrite.len lineWrite.data.length) s1.now = false) ∧
    (let s1 := advance { queued 3 with mbc := [(0, { Mbc.reset with refAt := List.replicate 16 1 })] } 2
     refreshingAt (mbcOf s1 0) (lineWrite.offset % stackSize) (max lineWrite.len lineWrite.data.length) s1.now = true) ∧
    (isHalted (advance (queued 98) 0) 98 8 = false ∧ (homeQ (advance (queued 98) 0) 98).q = [{ msg := lineWrite, inp := 0, pool := none }] ∧
      (queued 98).mover.grant = false) ∧
    (∀ b ∈ [true, false], let s1 := advance { moving move0 with mover := { (moving move0).mover with grant := b } } 0
     s1.mover.grant = b ∧ (tileWanted s1).isSome = true ∧ (homeQ s1 98).q = [] ∧ paceAllows s1 1 s1.mover.arb.held = true ∧ isHalted s1 98 8 = false) ∧
    (let s1 := advance (queued 3) 0
     takeHeldOf 0 (homeQ s1 3).held = some ({ msg := lineWrite, inp := 0, pool := none }, []) ∧ (homeQ s1 3).q.length < homeDepth 3 ∧
       takeHeldOf 1 (homeQ s1 3).held = none) := by
  decide +kernel

/-- Memory die 3 in the extension of a frame of 1,024 ticks. -/
def extended : State := running (withReg up 3 1 0x040 0x01000400) 3 { Frs.reset with ends := 64 * 2048 }

theorem witness_MemoryDiesRefreshAndInitialise :
    (let s1 := advance extended (64 * 1040)
     mmDie 0 = 3 ∧ frsRunning s1 3 = true ∧ baseTicks s1 3 ≤ frameTick s1 3 ∧ (frameTick s1 3 - baseTicks s1 3) % 96 = 0 ∧
       (frsOf s1 3).began + 64 * (frameTick s1 3 + 96) ≤ (frsOf s1 3).ends) ∧
    (frameTick (advance extended (64 * 1040 - 1)) 3 < baseTicks (advance extended (64 * 1040 - 1)) 3) ∧
    (let s1 := advance up 39040
     frsRunning s1 3 = false ∧ tbit (mbcReg s1 0 0x044) 2 = false ∧ startArmed s1 3 = false ∧ nth (mbcOf s1 0).refAt 15 0 = 0 ∧
       reachable s1 3 8 = true ∧ tbit 1#32 0 = true) ∧
    (let s1 := advance { up with mbc := [(0, { Mbc.reset with refAt := List.replicate 16 7 })] } 39046
     frsRunning s1 3 = false ∧ ∀ r ∈ (mbcOf s1 0).refAt, r ≠ 0 ∧ ¬ r + 39040 ≤ s1.now ∧ ¬ r < (frsOf s1 3).ends) ∧
    (reachable (advance extended 0) 3 8 = true ∧ frsRunning (advance extended 0) 3 = true) ∧
    (let s1 := advance { up with mbc := [(0, { Mbc.reset with initAt := some 0, zeroAt := some 0 })] } 168000000
     (mbcOf s1 0).initAt = some 0 ∧ (mbcOf s1 0).zeroAt = some 0 ∧ (mbcOf s1 0).waiting = [] ∧ 0 + 168000000 ≤ s1.now) ∧
    ((advance { up with mbc := [(0, { Mbc.reset with zeroAt := some 0 })] } 167999999).now < 0 + 168000000) := by decide +kernel

/-- Stack 0 with a row under repair, and rows already used in its bank. -/
def repairing (n : Nat) : State := { up with mbc := [(0, { Mbc.reset with ppr := some 5 })], rowsUsed := [(bankKey 0 5, n)] }

theorem witness_ScrubRepairAndRegions :
    (let s1 := advance (withReg { up with t1line := [(0, .clean)], mbc := [(0, { Mbc.reset with grant := some 2 })] } 3 8 0x050 0x101) (hour + 1)
     tbit (mbcReg s1 0 0x050) 0 = true ∧ initialising (mbcOf s1 0) = false ∧ (mbcOf s1 0).scrubLine + 1 < stackLines ∧ lineSt s1 0 = .clean ∧
       (mbcOf s1 0).grant = some 2 ∧ refreshingAt (mbcOf s1 0) ((mbcOf s1 0).scrubLine * 64) 64 s1.now = false ∧
       (mbcOf s1 0).scrubLate = false ∧ s1.now > (mbcOf s1 0).scrubStart + fld (mbcReg s1 0 0x050) 8 8 * hour) ∧
    (tbit (mbcReg (advance up 0) 0 0x050) 0 = false ∧ (mbcOf (advance up 0) 0).grant ≠ some 2 ∧
      refreshingAt (mbcOf (advance { up with mbc := [(0, { Mbc.reset with refAt := List.replicate 16 1 })] } 2) 0) 0 64 2 = true) ∧
    (reachable (advance up 0) 3 8 = true ∧ pageLocked (advance up 0) 3 8 = false ∧ tbit 0x40000005#32 30 = true ∧ frsRunning (advance up 0) 3 = false ∧
      (homeQ (advance up 0) 3).q = [] ∧ (homeQ (advance up 0) 3).held = [] ∧ (mbcOf (advance up 0) 0).ppr = none ∧
      (mbcOf (advance up 0) 0).grant = none ∧ initialising (mbcOf (advance up 0) 0) = false) ∧
    ((homeQ (advance (queued 3) 0) 3).q ≠ [] ∧ frsRunning (advance extended 0) 3 = true) ∧
    (∀ n ∈ [1, 2], (mbcOf (advance (repairing n) 0) 0).ppr = some 5 ∧ mapGet (advance (repairing n) 0).rowsUsed (bankKey 0 5) 0 = n) ∧
    (regionOverlaps (advance up 0) 0 1 (fld (mbcReg (advance up 0) 0 0x308) 0 24) (fld 0x80000001#32 0 24) = false ∧ tbit 1#32 31 = false) ∧
    (let s1 := advance (lineIs .clean true) 0
     tbit 0x80000001#32 31 = true ∧ regionOverlaps s1 0 1 (fld (mbcReg s1 0 0x308) 0 24) (fld 0x80000001#32 0 24) = true) := by decide +kernel

/-! ## Witnesses: Tier 2 and serving -/

theorem witness_PoolRequestsAreAnswered :
    (reachable (advance State.reset 0) 98 8 = false ∧ pageLocked (advance (withReg up 98 8 0x01C 1) 0) 98 8 = true ∧
      reachable (advance up 0) 98 8 = true ∧ pageLocked (advance up 0) 98 8 = false ∧ tbit 5#32 31 = false) ∧
    (let s1 := advance (withReg up 98 8 0x050 4) 0
     tbit 0x80000003#32 31 = true ∧ baseTaken s1 1 (fld 0x80000003#32 0 12) = false ∧ fld 0x80000003#32 0 12 < fld (hlk s1 0x050) 0 13) ∧
    (let s1 := advance (withReg (withReg up 98 8 0x050 4) 98 8 0x800 0x80000003) 0
     baseTaken s1 1 (fld 0x80000003#32 0 12) = true) ∧
    (fld (hlk (advance up 0) 0x050) 0 13 ≤ fld 0x80000000#32 0 12) ∧
    ((advance (granted none { msg0 with expiry := 1 }) 0).mover.run = [{ msg := { msg0 with expiry := 1 }, inp := 0, pool := none }]) ∧
    (let s1 := advance (granted (some 64) { lineWrite with expiry := 1 }) 0
     s1.mover.run = [{ msg := { lineWrite with expiry := 1 }, inp := 0, pool := some 64 }] ∧ cxlUp s1 = true ∧ lineWrite.op = 2) ∧
    (cxlUp (advance { up with mover := (granted (some 64) msg0).mover } 0) = false) ∧
    (let s1 := advance (granted (some 64) { msg0 with len := 8 }) 0
     msg0.op = 1 ∧ poolRangeBad s1 { fail := false, poison := [] } 64 8 = false ∧ poolRangeBad s1 { fail := false, poison := [1] } 64 8 = true ∧
       ({ msg0 with op := 3 } : FabMsg).op = 3 ∧ poolRangeBad s1 { fail := false, poison := [] } 64 (atomicBytes { msg0 with op := 3 }) = false ∧
       poolRangeBad s1 { fail := false, poison := [1] } 64 (atomicBytes { msg0 with op := 3 }) = true) ∧
    (expired (advance (granted none msg0) 64) msg0 = true ∧ (advance up 0).mover.run = []) ∧
    (let s1 := advance (queued 98) 64
     s1.mover.run.find? (fun h => expired s1 h.msg) = none ∧ (homeQ s1 98).q.find? (fun h => expired s1 h.msg) = some { msg := lineWrite, inp := 0, pool := none } ∧
       (homeQ (advance up 64) 98).q = []) := by decide +kernel

theorem witness_TierMovesRunAndEnd :
    (let s1 := advance up 0
     reachable s1 98 8 = true ∧ s1.mover.queue.length < 64 ∧ moveBad (moveOf s1 (fld 7#32 0 16)) = false) ∧
    ({ Mover.reset with queue := List.replicate 64 move0 }.queue.length ≥ 64 ∧ moveBad (moveOf (advance (withReg up 98 8 0x600 64) 0) 7) = true) ∧
    (let s1 := advance (moving move0) 0
     s1.mover.cur = some move0 ∧ move0.moved < move0.tiles ∧ s1.mover.done.length < 64 ∧ cxlUp s1 = true ∧ mayMove s1 = true ∧ move0.inward = false ∧
       tileGranted s1 move0 = true ∧
       move0.t1 % 4096 = 0 ∧ (∀ i, i < 64 → lineSt s1 (move0.t1 / 64 + move0.moved * 64 + i) = .clean) ∧
       poolAddr s1 (move0.t2 + move0.moved * 4096) = some 0 ∧ 0 % 4096 = 0) ∧
    (let m := { move0 with t2 := 2 ^ 38 }
     (advance (moving m) 0).mover.cur = some m ∧ poolAddr (advance (moving m) 0) (m.t2 + m.moved * 4096) = none ∧ tileGranted (advance (moving m) 0) m = true) ∧
    (let s1 := advance (running (moving move0) 98 { Frs.reset with ends := 64 * 1040 }) 0
     cxlUp s1 = true ∧ mayMove s1 = false ∧ s1.mover.cur = some move0) ∧
    (cxlUp (advance { up with mover := (moving move0).mover } 0) = false ∧ (advance { up with mover := (moving move0).mover } 0).mover.cur = some move0) ∧
    (∀ b ∈ [false, true], let m := { move0 with moved := 2, srcPoison := b }
     (advance (moving m) 0).mover.cur = some m ∧ m.tiles ≤ m.moved ∧ m.t1 + m.tiles * 4096 ≤ t1Size ∧
       lineStack (m.t1 / 64 + m.tiles * 64 - 1) = lineStack 0 ∧ lineStack 0 = lineStack (m.t1 / 64)) ∧
    (move0.due ≤ (advance (moving move0) 500).now ∧ (advance (moving move0) 500).mover.queue = []) ∧
    (let d : MoveDone := { tag := 7, late := false, status := 0, moved := 2 }
     (advance { up with mover := { Mover.reset with done := [d] } } 0).mover.done = d :: [] ∧ d.tag < 2 ^ 16 ∧ d.status < 2 ^ 16 ∧ d.moved < 2 ^ 16) ∧
    ((advance up 0).mover.done = []) ∧
    (let s1 := advance (withReg up 98 8 0x044 0x200) 0
     tbit (reg s1 (hlDie 1) 8 0x044) 9 = true ∧ s1.mover.cur = none ∧ s1.mover.run = []) ∧
    (∀ h : Fin 2, tbit (reg (advance up 0) (hlDie h.val) 8 0x044) 9 = false ∧ reachable (advance up 0) (hlDie h.val) 8 = true ∧
      linkHeld (advance up 0) (hlDie h.val) = false) := by decide +kernel

/-- Its WEIGHT_PLACEMENT alone, as a container: one tile of job 1 at module offset 0. -/
def container0 : List Byte :=
  bytesOf 436 [(0x0C, 1), (0x32, 1), (0x33, 1), (0x34, 1), (0x38, 256), (256, 0x40), (264, 340), (272, 96), (340, 1), (404, 1), (408, 1)]

/-- The firmware runs on a module whose plan is plan0, model 0 in a state, with all features; tracker 0 is enabled, tracks jobs 0 to 31 and has
one submission waiting. -/
def serving (st : Nat) : State :=
  let s := withReg (withReg (withReg up 0 8 0x050 2) 0 9 0x040 1) 0 9 0x054 1
  { withReg (withReg s 0 9 0x300 0xFFFFFFFF) 0 8 0x090 0xFFFFFFFF with
    plan := some plan0, container := container0, serv := { ServSt.reset with models := [(0, { Model.absent with st := st })] } }

/-- A submission entry for request 5. -/
def submission (op job len : Nat) : List Byte := bytesOf 64 [(0, op), (1, job), (8, 5), (24, len)]

/-- A parameter block that passes every check: prompt 4, one token to generate, temperature 1, top p 1, no graft, session 9. -/
def params : List Byte :=
  bytesOf 384 ([(8, 4), (0xC, 1), (0x18, 0x3F800000), (0x1C, 0x3F800000), (0x28, 0xFFFFFFFF), (0x30, 9)] ++ (upFrom 0 16).map (fun i => (0x40 + 4 * i, 0xFFFFFFFF)))

/-- A request of job 1. -/
def req0 (phase : Nat) : Request :=
  { id := 5, job := 1, ring := 0, home := 0, prompt := 4, maxNew := 1, due := none, inclStop := false, seed := 0, seedChosen := false, graft := none, graftAt := [],
    ttl := 0, session := 9, resume := false, spread := false, base := 0, phase := phase, slot := 0, poolEnt := 0, anomaly := false, written := 0, next := 0, at0 := 0,
    token := 0, param := [] }

/-- Serving with requests open at tracker 0. -/
def opened (l : List Request) : State := { serving 3 with trackers := [(0, { Tracker.reset with reqs := l })] }

theorem witness_SubmissionsThatFailAreCompleted :
    (takesSubmission (advance up 0) 0 = false) ∧
    (takesSubmission (advance (serving 3) 0) 0 = true ∧ malformed (submission 4 1 0) = true) ∧
    (malformed (submission 2 40 0) = false ∧ tracks (advance (serving 3) 0) 0 40 = false) ∧
    (let s1 := advance (opened [req0 2]) 0
     takesSubmission s1 0 = true ∧ malformed (submission 1 1 384) = false ∧ tracks s1 0 1 = true ∧
       (tracker s1 0).reqs.any (fun r => decide (r.id % 2 ^ 32 = leAt (submission 1 1 384) 8 4)) = true) ∧
    ((tracker (advance (serving 3) 0) 0).reqs.any (fun r => decide (r.id % 2 ^ 32 = leAt (submission 1 1 384) 8 4)) = false ∧
      paramFault (List.replicate 384 0#8) = some 0x00C) ∧
    (malformed (submission 2 1 0) = false ∧ findReq (advance (serving 3) 0) 0 (leAt (submission 2 1 0) 8 8) 1 = none) := by decide +kernel

theorem witness_RequestsOpenAndEnd :
    (let s1 := advance (serving 3) 0
     takesSubmission s1 0 = true ∧ malformed (submission 1 1 384) = false ∧ tracks s1 0 1 = true ∧ leAt (submission 1 1 384) 0 1 = 1 ∧
       (∀ r ∈ (tracker s1 0).reqs, r.id % 2 ^ 32 ≠ leAt (submission 1 1 384) 8 4) ∧ paramFault params = none ∧ leAt params 0x16 1 / 4 % 2 = 0 ∧
       leAt params 0x08 4 ≠ 0 ∧ leAt params 0x28 4 = 0xFFFFFFFF ∧ (if isOrigin s1 then jobResident s1 1 || jobLoading s1 1 else !jobSkipped s1 1) = true) ∧
    (let s1 := advance (opened [req0 2]) 0
     takesSubmission s1 0 = true ∧ findReq s1 0 (leAt (submission 2 1 0) 8 8) 1 = some (req0 2) ∧ (req0 2).phase = 2 ∧ (frsOf s1 0).chgQueue.length < 64 ∧
       (req0 2).home = 0 ∧ (req0 2).job < 256 ∧ (req0 2).slot < 4096 ∧ leAt (submission 2 1 0) 0 1 = 2 ∧ leAt (submission 3 1 0) 0 1 = 3 ∧ malformed (submission 3 1 0) = false ∧ hasFeature s1 4 = true) ∧
    (let r := { req0 2 with due := some 0 }
     let s1 := advance (opened [r]) 0
     trackerActs s1 0 = true ∧ (tracker s1 0).reqs = [r] ∧ r.due = some 0 ∧ 0 ≤ s1.power.slowMs ∧ r.phase = 2 ∧ r.home = 0 ∧
       (frsOf s1 0).chgQueue.length < 64 ∧ r.job < 256 ∧ r.slot < 4096) := by decide +kernel

theorem witness_AdmissionAndExpiry :
    (let s1 := advance (opened [req0 0]) 0
     trackerActs s1 0 = true ∧ (tracker s1 0).reqs = [req0 0] ∧ (req0 0).phase = 0 ∧ (req0 0).resume = false ∧ (req0 0).graft = none ∧ (req0 0).prompt ≠ 0 ∧
       modelReady s1 1 = true ∧ evicting s1 = false ∧ (frsOf s1 0).chgQueue.length < 64 ∧ freeJobSlot s1 1 false = some 0 ∧ (req0 0).job < 256 ∧ (req0 0).prompt < 2 ^ 23) ∧
    (fwRuns (advance (serving 3) 0) = true ∧ mapWf (fun _ => (none : Option Session)) (serving 3).serv.sessions = true) := by decide +kernel

/-- What the sampler has of slot 0 of job 1: a logit row. -/
def tok0 : TokenRec := { job := 1, slot := 0, logits := [0#32, 0x3F800000#32], poison := false }

/-- A tracker with a request in decode in slot 0 of job 1, whose sampler stands before its first token of at most `n`. -/
def sampling (n : Nat) : State :=
  let s := putFrs (opened [req0 2]) 0 { Frs.reset with steps := [(1, 1)], slots := [(slotKey 1 0, [{ step := 0, st := 2, len := 0 }])] }
  { s with serv := { s.serv with samplers := [(slotKey 1 0, some { newSampler params 0 0 with maxNew := n })] } }

theorem witness_TokensAndHeldEntriesReachTheHost :
    (∀ p ∈ [(2, 0), (1, 3)], let s1 := advance (sampling p.1) 0
     let r := req0 2
     let y := { newSampler params 0 0 with maxNew := p.1 }
     trackerActs s1 0 = true ∧ (tracker s1 0).reqs = [r] ∧ tok0.poison = false ∧ tbit (frsOf s1 0).replay 1 = false ∧
       mapGet s1.serv.samplers (slotKey 1 0) none = some y ∧ y.stopped = false ∧ producesToken s1 1 0 = true ∧
       r.job = tok0.job.val ∧ r.slot = tok0.slot.val ∧ r.phase = 2 ∧ r.next ≤ y.index ∧ r.home = 0 ∧ r.due = none ∧ r.ring < 16 ∧
       streamRoom s1 0 r.ring = true ∧ heldStream s1 0 r.ring = [] ∧ (tracker s1 0).jumps = [] ∧ jobRebuilding s1 r.job = false ∧
       mapGet (tracker s1 0).replayed r.job false = false ∧ (sampleStep y tok0.logits).1.2.2.1 = p.2 ∧ (frsOf s1 0).chgQueue.length < 64) ∧
    (let s1 := advance { serving 3 with trackers := [(0, { Tracker.reset with holdS := [(0, [[1#8], [2#8]])] })] } 0
     ringsServed s1 0 = true ∧ (heldStream s1 0 0).length ≤ 1024 ∧ heldStream s1 0 0 ≠ []) ∧
    (let s1 := advance { serving 3 with trackers := [(0, { Tracker.reset with holdC := [[1#8], [2#8]] })] } 0
     ringsServed s1 0 = true ∧ (tracker s1 0).holdC.length ≤ 4096 ∧ (tracker s1 0).holdS = []) := by decide +kernel

/-- The one entry of a manifest: shard 0, one tile at module offset 0. -/
def shard0 : List Byte := bytesOf 96 [(16, 1)]

/-- A manifest of that entry for plan0, with the digest of its entries. -/
def manifest0 : List Byte :=
  bytesOf 96 [(0, 0x4D505956), (4, 65536), (0xC, 1), (0x18, 0xFFFFFFFF)] ++ (toLE 48 (Config.sha384 shard0).toNat ++ (bytesOf 112 [] ++ shard0))

theorem manifest0_digest : digestIs (manifest0.drop 256) (bytesAt manifest0 0x60 48) = true := by
  have h1 : manifest0.drop 256 = shard0 := by decide +kernel
  have h2 : bytesAt manifest0 0x60 48 = toLE 48 (Config.sha384 shard0).toNat := rfl
  have h3 : (256 : Nat) ^ 48 = 2 ^ 384 := by decide +kernel
  rw [h1, h2, digestIs, ofLE_toLE_mod, h3, Nat.mod_eq_of_lt (Config.sha384 shard0).isLt]
  simp

theorem manifest0_trusted : manifestFault (advance (serving 0) 0) manifest0 true = none := by
  unfold manifestFault manifestTrusted
  rw [manifest0_digest]
  decide +kernel

/-- Parameters of a CANOPY_LOAD of model 0. -/
def loadParams : List Byte := bytesOf 64 []

theorem witness_CanopyCommandsAndGraftVerdicts :
    (let s1 := advance { serving 3 with plan := none } 0
     takesSubmission s1 0 = true ∧ servesCanopy s1 0 = false ∧ malformed (submission 0x10 0 64) = false ∧ leAt (submission 0x10 0 64) 0 1 ≥ 0x10) ∧
    (∀ st ∈ [2, 3, 4], let s1 := advance (serving st) 0
     takesSubmission s1 0 = true ∧ servesCanopy s1 0 = true ∧ malformed (submission 0x10 0 64) = false ∧ leAt (submission 0x10 0 64) 0 1 = 0x10 ∧
       leAt loadParams 0 1 < 32 ∧ leAt loadParams 1 1 ≤ 1 ∧ zeroAt loadParams 2 6 = true ∧ zeroAt loadParams 20 44 = true ∧
       (modelOf s1 (leAt loadParams 0 1)).st ∈ [2, 3, 4]) ∧
    ((let s1 := advance (serving 0) 0
      takesSubmission s1 0 = true ∧ servesCanopy s1 0 = true ∧ (modelOf s1 (leAt loadParams 0 1)).st = 0 ∧ hasFeature s1 5 = true ∧ hasFeature s1 6 = true) ∧
      manifestFault (advance (serving 0) 0) manifest0 true = none) ∧
    (∀ st ∈ [3, 4], let s1 := advance (serving st) 0
     malformed (submission 0x11 0 0) = false ∧ malformed (submission 0x12 0 0) = false ∧ leAt (submission 0x11 0 0) 0 1 = 0x11 ∧
       leAt (submission 0x12 0 0) 0 1 = 0x12 ∧ (modelOf s1 0).st ∈ [3, 4] ∧ latencyPinned s1 (placedJob s1 0) = false) ∧
    ((modelOf (advance (serving 2) 0) 0).st ∉ [3, 4] ∧ servesCanopy (advance (serving 2) 0) 0 = true) ∧
    (fwRuns (advance up 0) = false ∧ inCtl (advance (running (serving 3) 0 Frs.reset) 0) 0 = false) ∧
    ((serving 3).plan = some plan0 ∧ plan0.env.isSome = true ∧ fwRuns (advance (serving 3) 0) = true ∧ inCtl (advance (serving 3) 0) 0 = true ∧
      (trainingOf (advance (serving 3) 0) 0).stopped = false ∧ sampleBad 0x7FC00000#32 = true ∧ sampleBad 0x3F800000#32 = false ∧
      decide ((trainingOf (advance (serving 3) 0) 0).seen < 1) = true) :=
  ⟨by decide +kernel, by decide +kernel, ⟨by decide +kernel, manifest0_trusted⟩, by decide +kernel, by decide +kernel, by decide +kernel, by decide +kernel⟩

/-- The same layout with a parity record of group 0. -/
def kvParity : KvLayout :=
  { kv0 with
    parity := [{ pgroup := 0, first := 0, count := 4, group := 0, mode := 0, holder := 0, layers := [0], tray := 0, pb := 0x200000, pbStride := 0x10000,
                 sealedBase := 0x300000, sealedStride := 0x40000 }] }

theorem witness_PagesAreSealedOrTheirRequestEnds :
    (let s1 := advance (serving 3) 0
     kvOf s1 1 = some kv0 ∧ (ringRec s1 kv0 0 0 0).isSome = true ∧ sealsNow s1 kv0 0 0 0 = true ∧ (frameRec kv0 0 0).isSome = true ∧
       pageOrdinal s1 kv0 0 0 0 = some 0 ∧ pageOrdinal s1 kv0 0 0 1 = none ∧ parityRec kv0 0 0 0 = none) ∧
    (let s1 := advance (running (serving 3) 11 Frs.reset) 0
     kvOf s1 1 = some kv0 ∧ sealsNow s1 kv0 0 0 0 = false) ∧
    (let s1 := advance (running { serving 3 with plan := some { plan0 with kv := [kvParity] } } 0 Frs.reset) 0
     kvOf s1 1 = some kvParity ∧ (ringRec s1 kvParity 0 0 0).isSome = true ∧ sealsNow s1 kvParity 0 0 0 = true ∧
       (parityRec kvParity 0 0 0).isSome = true ∧ frsRunning s1 0 = true) ∧
    (let r := { req0 2 with next := 300000 }
     let s1 := advance (opened [r]) 0
     slotRequest s1 1 0 = some (0, r) ∧ r.phase = 2 ∧ (frsOf s1 0).chgQueue.length < 64 ∧ slotSpread s1 1 0 = false ∧ 262143 ≤ reqLen s1 r) := by decide +kernel

/-! ## Witnesses: links, the fabric, loading, clocks -/

/-- Port 9 in a state, in direction 1 (X partner), with its sequencer's frame 0 running on its Bough die. -/
def atPort (st : Nat) (x : PortSt) : State :=
  { withReg up (portDie 9) (portPage 9) 0x044 (st + 1 * 2 ^ 8) with ports := [(9, x)] }

/-- A training result with every lane locked. -/
def train0 : Train := { locked := 0xFF#8, t1 := 0, retained := false, uncorr := false }

/-- A proof that passes, answering nonce 77. -/
def proof0 : Proof :=
  { membershipOk := true, chainOk := true, sigOk := true, svn := 0, nonce := 77, node := 1, port := 3, isSwitch := false, digest := 0 }

theorem witness_PortsReachAndLeaveActive :
    (portState (advance up 0) 9 = 0 ∧ (portOf (advance up 0) 9).nonce = none ∧
      (portOf (advance (atPort 1 { PortSt.reset with noCable := true }) 0) 9).noCable = true ∧
      (advance (atPort 1 PortSt.reset) 0).now < (portOf (advance (atPort 1 PortSt.reset) 0) 9).since + 100 * ms ∧
      mayRetry (advance (atPort 4 PortSt.reset) 0) 9 = false) ∧
    (let s1 := advance (atPort 1 PortSt.reset) (100 * ms)
     portState s1 9 = 1 ∧ (portOf s1 9).noCable = false ∧ (portOf s1 9).since + 100 * ms ≤ s1.now) ∧
    (let s1 := advance (withReg (atPort 2 PortSt.reset) 90 8 0x040 0x10000) 0
     portState s1 9 = 2 ∧ nodeValid s1 = true ∧ widthOf train0.locked = 2 ∧
       dCap train0.t1 (decide (portDir s1 9 % 16 = 6) || decide (portDir s1 9 % 16 = 7)) ≤ 31 ∧ train0.uncorr = false ∧
       widthOf ({ train0 with locked := 0xEE#8 } : Train).locked = 0 ∧ (portOf s1 9).wasActive = false) ∧
    (portState (advance (atPort 2 PortSt.reset) 0) 9 = 2 ∧ nodeValid (advance (atPort 2 PortSt.reset) 0) = false) ∧
    (let s1 := advance (atPort 3 { PortSt.reset with nonce := some (77, 0) }) 0
     portState s1 9 = 3 ∧ (portOf s1 9).nonce = some (77, 0) ∧ s1.now < 0 + 100 * ms ∧ proof0.nonce = 77 ∧ proof0.membershipOk = true ∧
       proof0.chainOk = true ∧ proof0.sigOk = true ∧ s1.svnFloor ≤ proof0.svn ∧ partnerOf s1 (portDir s1 9) = (proof0.isSwitch, proof0.node) ∧
       fld (lnk s1 9 0x044) 16 2 < 2) ∧
    (let s1 := advance (withReg (atPort 3 PortSt.reset) (portDie 9) (portPage 9) 0x044 (3 + 2 * 2 ^ 16)) 0
     portState s1 9 = 3 ∧ (portOf s1 9).nonce = none ∧ fld (lnk s1 9 0x044) 16 2 = 2) ∧
    (let s1 := advance (atPort 3 { PortSt.reset with nonce := some (77, 0) }) (100 * ms)
     (portOf s1 9).nonce = some (77, 0) ∧ 0 + 100 * ms ≤ s1.now) ∧
    (let s1 := advance (withReg (atPort 4 PortSt.reset) (portDie 9) (portPage 9) 0x044 (4 + 1 * 2 ^ 4)) sec
     portState s1 9 = 4 ∧ fld (lnk s1 9 0x044) 4 4 = 1 ∧ (portOf s1 9).since + sec ≤ s1.now) ∧
    (let s1 := advance (withReg (atPort 5 PortSt.reset) (portDie 9) (portPage 9) 0x040 4) 0
     portState s1 9 = 5 ∧ tbit (lnk s1 9 0x040) 2 = true) ∧
    (∀ st ∈ [1, 2, 3, 5, 6], let s1 := advance (atPort st PortSt.reset) 0
     portState s1 9 = st ∧ reachable s1 (portDie 9) (portPage 9) = true ∧ pageLocked s1 (portDie 9) (portPage 9) = false) ∧
    (tbit 1#32 0 = true ∧ tbit 1#32 1 = false ∧ tbit 2#32 1 = true ∧ fld 4#32 0 2 = 0 ∧ fld 0#32 0 3 = 0) := by decide +kernel

theorem witness_PortsDegradeAndRetrain :
    (let s1 := advance (withReg (atPort 5 PortSt.reset) (portDie 9) (portPage 9) 0x058 4) 0
     portState s1 9 = 5 ∧ fld (lnk s1 9 0x058) 0 16 < 5 ∧ 4 ≤ fld (lnk s1 9 0x058) 0 16) ∧
    (let s1 := advance (withReg up (portDie 9) (portPage 9) 0x044 (5 + 6 * 2 ^ 8)) 0
     portState s1 9 = 5 ∧ portDir s1 9 % 16 = 6) ∧
    (portState (advance (atPort 4 PortSt.reset) 0) 9 ≠ 5 ∧ portDir (advance (atPort 5 PortSt.reset) 0) 9 % 16 = 1) ∧
    (tbit (lnk (advance up 0) 9 0x064) 1 = false ∧ reachable (advance up 0) (portDie 9) (portPage 9) = true ∧
      pageLocked (advance up 0) (portDie 9) (portPage 9) = false) ∧
    (tbit (lnk (advance (withReg up (portDie 9) (portPage 9) 0x064 2) 0) 9 0x064) 1 = true) := by decide +kernel

/-- Port 9 active, with planned position 1 received in its link slot 0, and flits kept. -/
def receiving (x : PortSt) : State :=
  let s := running (atPort 5 { x with bankA := { tx := [], rx := [{ first := 1, count := 1 }] } }) (portDie 9) { Frs.reset with ends := 64000 }
  withReg s (portDie 9) (portPage 9) 0x050 0

theorem witness_LinkFlitsAreKeptReplayedAndDelivered :
    (let s1 := advance (receiving PortSt.reset) 0
     portState s1 9 = 5 ∧ runsCover (linkBank s1 9).rx 1 = true ∧ flitOk flit0 = true ∧ flit0.kind = 1 ∧
       flit0.frame % 256 = frameNum s1 (portDie 9) % 256 ∧ ({ flit0 with frame := 1 } : LinkFlit).frame % 256 ≠ frameNum s1 (portDie 9) % 256 ∧
       ({ flit0 with seq := 1, kind := 2 } : LinkFlit).seq = 1 ∧ (portOf s1 9).slotNext ≤ 1 / 13 + linkDelay s1 9) ∧
    (portState (advance (atPort 1 PortSt.reset) 0) 9 = 1 ∧ (portOf (advance (atPort 1 PortSt.reset) 0) 9).discN = 0) ∧
    (let g := { flit0 with first := true }
     let s1 := advance (receiving { PortSt.reset with rx := [(1, g)] }) 0
     planRuns s1 9 = true ∧ isHalted s1 (portDie 9) (portPage 9) = false ∧ duePositions s1 9 = [1] ∧ mapFind (portOf s1 9).rx 1 = some g ∧
       g.first = true ∧ routersWf (receiving { PortSt.reset with rx := [(1, g)] }) = true ∧ (injQ (router s1 (portDie 9)) 0).late = 0 ∧
       (injQ (router s1 (portDie 9)) 0).waiting = [] ∧ (injQ (router s1 (portDie 9)) 0).flits.length < 32) ∧
    (let s1 := advance (receiving PortSt.reset) 0
     duePositions s1 9 = [1] ∧ mapFind (portOf s1 9).rx 1 = none ∧ (portOf s1 9).reqLeft = 0 ∧ (1 : Nat) < 2 ^ 24) ∧
    (let s1 := advance (atPort 5 { PortSt.reset with dynNext := 2 ^ 24 - 1 }) 0
     portState s1 9 = 5 ∧ flitOk { flit0 with kind := 3, seq := 2 ^ 24 - 1 } = true ∧ ({ flit0 with seq := 2 ^ 24 - 1 } : LinkFlit).seq = (portOf s1 9).dynNext ∧
       (portOf s1 9).dynHeld = [] ∧ (portOf s1 9).dynNext < 2 ^ 24) ∧
    (planRuns (advance up 0) 9 = false ∧
      isHalted (advance (withReg up (portDie 9) (portPage 9) 0x00C 4) 0) (portDie 9) (portPage 9) = true) ∧
    (let s1 := advance (atPort 5 PortSt.reset) 0
     (portOf s1 9).dynNext < 1 ∧ 1 < (portOf s1 9).dynNext + 2 ^ 23 ∧ (portOf s1 9).dynHeld.length < 32) := by decide +kernel

/-- Port 9 with fault injection armed: an injection of a kind on every flit of class 0. -/
def injected (kind : Nat) : State :=
  { withReg (withReg (atPort 5 PortSt.reset) (portDie 9) (portPage 9) 0x080 (kind + 2 ^ 3 + 2 ^ 11)) (portDie 9) (portPage 9) 0x084 0x10000 with
    service := [(portDie 9, true)] }

theorem witness_InjectionChangesSelectedFlits :
    (∀ kind ∈ [1, 2, 3, 4], let s1 := advance (injected kind) 0
     hasService s1 (portDie 9) = true ∧ tbit (lnk s1 9 0x084) 16 = true ∧ (portOf s1 9).swapped = [] ∧ (portOf s1 9).delayed = [] ∧
       ((portOf s1 9).injSeen + 1) % 2 ^ fld (lnk s1 9 0x080) 6 5 = 0 ∧ tbit (lnk s1 9 0x080) (3 + 0) = true ∧ fld (lnk s1 9 0x080) 0 3 = kind) ∧
    (tbit (lnk (advance (injected 1) 0) 9 0x080) (3 + 1) = false) := by decide +kernel

/-- An active port 9, with node 1 reached by it: a route for direction 1. -/
def routed : State :=
  putRouter (atPort 5 PortSt.reset) (portDie 9) { Router.reset with protA := { entries := [], routes := (upFrom 0 32).map (fun d => (d, BitVec.ofNat 64 9)) } }

theorem witness_RequestsReachTheirHome :
    (portActive (advance up 0) 9 = false) ∧
    (portActive (advance (withReg (atPort 5 PortSt.reset) (portDie 9) 8 0x080 0x80000001) 0) 9 = true ∧
      fencedSrc (advance (withReg (atPort 5 PortSt.reset) (portDie 9) 8 0x080 0x80000001) 0) 9 1 = true) ∧
    (let s1 := advance (atPort 5 PortSt.reset) 0
     portActive s1 9 = true ∧ fencedSrc s1 9 1 = false ∧ (254 : Nat) < 255 ∧ (0 : Nat) = ownNode s1 ∧
       homeOf 0x40 = .tier1 0 0x40 ∧ 2 % 4 ≠ 0 ∧ (homeQ s1 (mmDie 0)).q.length < homeDepth (mmDie 0) ∧ (homeQ s1 (mmDie 0)).held = [] ∧
       homeOf 0x020000000000 = .tier2 0 ∧ (homeQ s1 98).q.length < homeDepth 98 ∧ (homeQ s1 98).held = [] ∧ homeOf 0x010001800000 = .hole ∧
       homeOf 0x00C000000000 = .unmapped ∧ homeOf 0x0F0000000000 = .regs 0 ∧ 0 / 0x100000 < 100 ∧
       isHalted s1 (mmDie 0) 8 = false ∧ inOrder s1 0 0 = true ∧ initialising (mbcOf s1 0) = false ∧ lineWrite.cls % 4 = 0 ∧ homeOf lineWrite.offset = .tier1 0 0 ∧ lineWrite.offset % 64 = 0 ∧
       lineWrite.data.length = 64 ∧ lineWrite.offset < t1Size ∧ xorRegion s1 (lineWrite.offset / stackSize) (lineWrite.offset % stackSize) = none) ∧
    (let s1 := advance (atPort 5 PortSt.reset) 0
     (1 : Nat) ≠ ownNode s1 ∧ routeTo s1 (portDie 9) 1 2 0 = none) ∧
    (let s1 := advance routed 0
     portActive s1 9 = true ∧ fencedSrc s1 9 1 = false ∧ (1 : Nat) ≠ ownNode s1 ∧ (routeTo s1 (portDie 9) 1 2 0).isSome = true) := by decide +kernel

/-- A response to slot 5, generation 1, of core 0 on die 11. -/
def answer : FabMsg := { msg0 with op := 8, tag := 5 + 2 ^ 9 * 11 + 2 ^ 21, data := [9#8], src := 1 }

theorem witness_ResponsesAndControlMessages :
    (portActive (advance up 0) 9 = false ∧ reachable (advance State.reset 0) 0 8 = false ∧ reachable (advance State.reset 0) 11 0 = false) ∧
    (let s1 := advance routed 0
     portActive s1 9 = true ∧ fencedSrc s1 9 1 = false ∧ msg0.hops < 255 ∧ (1 : Nat) ≠ ownNode s1 ∧ (routeTo s1 (portDie 9) 1 0 0).isSome = true) ∧
    (let s := asked [{ reqOf 5 0 with expiry := 100000 }]
     let s1 := advance (withReg s (portDie 9) (portPage 9) 0x044 5) 0
     portActive s1 9 = true ∧ fencedSrc s1 9 1 = false ∧ answer.dest = ownNode s1 ∧ tagCore answer = some 0 ∧
       (Machine.core s1 0).reqs = [{ reqOf 5 0 with expiry := 100000 }] ∧ (reqOf 5 0).slot = answer.tag % 512 ∧ (reqOf 5 0).fenceScope = 0 ∧ (reqOf 5 0).trip = none ∧ (reqOf 5 0).orphanAt = none ∧
       (reqOf 5 0).generation = answer.tag / 2 ^ 21 % 2 ^ 11 ∧ answer.status = 0 ∧ coreCycle s1 0 < clkCycleUp (Machine.core s1 0).clk 100000 ∧
       (reqOf 5 0).generation ≠ { answer with tag := 5 + 2 ^ 9 * 11 }.tag / 2 ^ 21 % 2 ^ 11) ∧
    (reachable (advance up 0) 0 8 = true ∧ reachable (advance up 0) 11 0 = true ∧ hasProt 11 = true ∧ pageLocked (advance up 0) 11 0 = false ∧
      tbit (reg (advance up 0) 11 0 0x104) 1 = false ∧ tbit (reg (advance (withReg up 11 0 0x104 2) 0) 11 0 0x104) 1 = true) := by decide +kernel

/-- Operations of a kind in flight at die 0, with others queued. -/
def flying (op : Nat) (q : List (Nat × Nat)) : State := { up with gop := { GopSt.reset with flight := [{ op := op, seq := 6, since := 0 }], queue := q } }

theorem witness_GlobalOperationsStartAndEnd :
    (reachable (advance State.reset 0) 0 8 = false ∧ fld 0#32 0 3 = 0 ∧ 4 < fld 5#32 0 3 ∧ findGop (advance up 0) 1 0 = none) ∧
    (reachable (advance up 0) 0 8 = true ∧ (advance up 0).gop.flight = [] ∧ isRoot (advance { up with slice := { running := true, origin := 0, x := 1, y := 1, z := 1 } } 0) = true) ∧
    (∀ op ∈ [1, 2, 3, 4], fld (BitVec.ofNat 32 (op + 6 * 2 ^ 8)) 0 3 = op ∧ inFlight (advance (flying op []) 0) op = true ∧
      ((advance (flying op [(op, 1), (op, 2), (op, 3)]) 0).gop.queue.filter (fun x => decide (x.1 = op))).length < 4 ∧
      ((advance (flying op [(op, 1), (op, 2), (op, 3), (op, 4)]) 0).gop.queue.filter (fun x => decide (x.1 = op))).length ≥ 4 ∧
      findGop (advance (flying op []) 0) op 6 = some { op := op, seq := 6, since := 0 } ∧ (∀ x ∈ (advance (flying op []) 0).gop.queue, x.1 ≠ op)) := by
  decide +kernel

/-- A shard in the load engine: one tile at module offset 0 of this node. -/
def shardLd (isSealed : Bool) : LdShard :=
  { host := 0, isSealed := isSealed, pool := false, tag := 3, words := [0#32, 0#32, 0#32, 0#32, 1#32], gcm := [], due := 100 }

/-- The load engine with shards. -/
def loader (l : List LdShard) (done : List (Nat × Nat)) : State := { up with loader := { Loader.reset with queue := l, done := done } }

theorem witness_ShardsAreLoaded :
    (reachable (advance State.reset 0) 1 8 = false ∧ (advance up 0).loader.queue = []) ∧
    (let s1 := advance up 0
     reachable s1 1 8 = true ∧ s1.loader.queue.length < 32 ∧ shardOff (shardOfRegs s1 0) % 4096 = 0 ∧ (shardOfRegs s1 3).isSealed = false) ∧
    (let s1 := advance (withReg up 1 8 0xC08 1) 0
     (shardOfRegs s1 3).isSealed = true ∧ mapGet s1.loader.keys (decryptorDie (shardOfRegs s1 3)) none = none ∧ shardOff (shardOfRegs s1 0) % 4096 = 0) ∧
    (32 ≤ (advance (loader (List.replicate 32 (shardLd false)) []) 0).loader.queue.length ∧
      shardOff (shardOfRegs (advance (withReg up 1 8 0xC28 1) 0) 0) % 4096 ≠ 0) ∧
    ((advance (loader [] [(3, 0)]) 0).loader.done = (3, 0) :: [] ∧ (advance up 0).loader.done = []) ∧
    (let s1 := advance (loader [shardLd false] []) 0
     let y := shardLd false
     s1.loader.queue = y :: [] ∧ y.isSealed = false ∧ shardNode y = ownNode s1 ∧ shardOff y % 4096 = 0 ∧ shardOff y + shardTiles y * 4096 ≤ t1Size ∧
       (bytesOf 4096 []).length = shardTiles y * 4096 ∧ 0 < shardTiles y * 4096) ∧
    (∀ a, shardOff (shardLd false) ≤ a → a < shardOff (shardLd false) + shardTiles (shardLd false) * 4096 →
      xorRegion (advance (loader [shardLd false] []) 0) (a / stackSize) (a % stackSize) = none) ∧
    (let s1 := advance (loader [shardLd true] []) 0
     s1.loader.queue = shardLd true :: [] ∧ (shardLd true).isSealed = true ∧ openShard s1 (shardLd true) [] = none) := by
  refine ⟨by decide +kernel, by decide +kernel, by decide +kernel, by decide +kernel, by decide +kernel, by decide +kernel, ?_, by decide +kernel⟩
  intro a _ h
  rw [show shardOff (shardLd false) + shardTiles (shardLd false) * 4096 = 4096 by decide +kernel] at h
  rw [Nat.div_eq_of_lt (Nat.lt_trans h (by decide +kernel)), xorRegion, List.find?_eq_none]
  have hz : ∀ n ∈ upFrom 0 8, tbit (sampledReg (advance (loader [shardLd false] []) 0) (barOff (mmDie 0) 8 (0x304 + 8 * n))) 31 = false := by
    decide +kernel
  have hr : (mbcOf (advance (loader [shardLd false] []) 0) 0).regionsOf.isEmpty = true := by decide +kernel
  intro n hn
  simp [hr, hz n hn]

/-- Shard 0 of a model, present at module offset 0. -/
def shardAt : Shard :=
  { index := 0, node := 0, member := 0, off := 0, tiles := 1, pgroup := 0, digest := [], tag := [], words := [], host := 0, isSealed := false, pool := false,
    attempts := 0, st := 3, seenMs := 0, rebuild := false }

/-- Stack 0's digest engine with a source of one tile, running since 0. -/
def digesting : State :=
  { withReg (withReg up 3 8 0x408 1) 3 8 0x410 1 with
    mbc := [(0, { Mbc.reset with dgAt := some 0, dgSince := some 0 })],
    serv := { ServSt.reset with models := [(0, { Model.absent with st := 3, shards := [shardAt] })] } }

theorem witness_DigestsRunAndEnd :
    (reachable (advance State.reset 0) 3 8 = false ∧ pageLocked (advance (withReg up 3 8 0x01C 1) 0) 3 8 = true ∧
      dgTiles (advance up 0) 0 < 1 ∧ reachable (advance up 0) 3 8 = true) ∧
    (let s1 := advance (withReg up 3 8 0x408 65536) 0
     reachable s1 3 8 = true ∧ pageLocked s1 3 8 = false ∧ tbit (mbcReg s1 0 0x410) 0 = false ∧ 1 ≤ dgTiles s1 0 ∧ dgTiles s1 0 ≤ 65536 ∧
       dgSource 0 (dgSrc s1 0) (dgTiles s1 0) = true) ∧
    (tbit (mbcReg (advance digesting 0) 0 0x410) 0 = true ∧ digestDue (advance digesting 0) 0 = false) ∧
    (digestDue (advance digesting 100000000000) 0 = true ∧ (mbcOf (advance digesting 100000000000) 0).dgFor = none ∧
      (let s1 := advance { digesting with mbc := [(0, { Mbc.reset with dgAt := some 0, dgSince := some 0, dgFor := some (0, 0) })] } 100000000000
       digestDue s1 0 = true ∧ (mbcOf s1 0).dgFor = some (0, 0))) ∧
    (((modelOf (advance up 0) 0).shards.find? (fun y => decide (y.index = 0))).isNone = true ∧
      tbit (mbcReg (advance digesting 0) 0 0x410) 0 = true ∧ ((modelOf (advance digesting 0) 0).shards.find? (fun y => decide (y.index = 0))).isSome = true) ∧
    (let s1 := advance (withReg digesting 3 8 0x410 0) 0
     ((modelOf s1 0).shards.find? (fun y => decide (y.index = 0))).map (fun x => (x.st, x.rebuild, x.node, shardStack x.off)) =
       some (3, false, ownNode s1, 0) ∧ tbit (mbcReg s1 0 0x410) 0 = false) := by decide +kernel

/-- Core 0 with a clock state. -/
def clocked (k : CoreClk) : State := putCore up 0 { CoreSt.reset with clk := k }

theorem witness_ClocksSwitchStretchAndHold :
    (let s1 := advance (clocked { CoreClk.reset with nextMhz := 1000 }) 0
     reachable s1 (coreDie 0) 2 = true ∧ pageLocked s1 (coreDie 0) 2 = false ∧ tbit 40#32 8 = false ∧ 40 ≤ fld 40#32 0 7 ∧ fld 40#32 0 7 ≤ 92 ∧
       fld 40#32 0 7 * 25 ≤ smMhz s1 0 ∧ fld 39#32 0 7 < 40 ∧ 92 < fld 93#32 0 7 ∧ smMhz s1 0 < fld 92#32 0 7 * 25 ∧ tbit 0x128#32 8 = true ∧
       fld 0x128#32 0 7 = 40 ∧ (Machine.core s1 0).clk.lockAt = 0 ∧ (Machine.core s1 0).clk.nextMhz = fld 0x128#32 0 7 * 25) ∧
    ((Machine.core (advance (clocked { CoreClk.reset with nextMhz := 1000, lockAt := 5 }) 0) 0).clk.lockAt ≠ 0) ∧
    (let s1 := advance (clocked { CoreClk.reset with nextMhz := 1000, lockAt := 5 }) 5
     (Machine.core s1 0).clk.nextMhz ≠ 0 ∧ (Machine.core s1 0).clk.lockAt ≤ s1.now) ∧
    ((Machine.core (advance up 0) 0).clk.nextMhz = 0 ∧ (advance up 0).now < (Machine.core (advance (clocked { CoreClk.reset with nextMhz := 1000, lockAt := 5 }) 0) 0).clk.lockAt ∧
      (Machine.core (advance up 0) 0).clk.armed = false ∧ tbit (reg (advance (withReg up 11 2 0x050 0) 0) 11 2 0x050) 8 = false) ∧
    (let s1 := advance (clocked { CoreClk.reset with nextMhz := 1900, armed := true }) 5
     (Machine.core s1 0).clk.armed = true ∧ nextLocked (Machine.core s1 0).clk = true ∧ smMhz s1 0 < (Machine.core s1 0).clk.nextMhz ∧ ownsStage s1 0 = false) ∧
    (let s1 := advance (clocked { CoreClk.reset with nextMhz := 1000, armed := true }) 5
     (Machine.core s1 0).clk.armed = true ∧ nextLocked (Machine.core s1 0).clk = true ∧ ownsStage s1 0 = false ∧ takesStage s1 0 = false ∧ coreExecutes (Machine.core s1 0) = false) ∧
    (reachable (advance up 0) 11 2 = true ∧ cpDie 0 = 11 ∧ tbit (reg (advance (withReg up 11 2 0x050 0x100) 0) 11 2 0x050) 8 = true ∧
      reachable (advance up 0) 11 0x10 = true ∧ mapFind (advance up 0).droop 0 = none) ∧
    (let s1 := advance { clocked { CoreClk.reset with mode := .run } with droop := [(0, 0)] } 1000000
     mapFind s1.droop 0 = some 0 ∧ 4096 < droopCycles s1 (0 * 18 + 0) 0 ∧
       droopCycles (advance { clocked { CoreClk.reset with mode := .run } with droop := [(0, 0)] } 0) (0 * 18 + 0) 0 ≤ 4096) := by decide +kernel

/-! ## Witnesses: power, starts, self-test, failover, security, management -/

/-- The power controller with a millisecond's samples and paces. -/
def loaded (pace : List Nat) (thr : Nat) : State := { up with power := { PowerSt.reset with samples := [7000], pace := pace, thrPower := thr } }

theorem witness_PowerAndThermalRules :
    (∀ p ∈ [([0, 0, 0], 0), ([3, 3, 3], 15), ([3, 3, 3], 16)], let s1 := advance (loaded p.1 p.2) 0
     railOn s1 .aux = true ∧ s1.power.cap < sumList s1.power.samples / s1.power.samples.length ∧ s1.power.filler = 0 ∧ s1.power.pace.length = 3 ∧
       s1.power.samples.isEmpty = false) ∧
    ((∀ d, d < 3 → nth (advance (loaded [3, 3, 3] 15) 0).power.pace d 0 = 3) ∧ (advance (loaded [3, 3, 3] 15) 0).power.thrPower < 16 ∧
      16 ≤ (advance (loaded [3, 3, 3] 16) 0).power.thrPower) ∧
    (((shedOrder (advance (loaded [0, 0, 0] 0) 0)).find? (fun e => decide (nth (advance (loaded [0, 0, 0] 0) 0).power.pace e 0 < 3))).isSome = true) ∧
    (let s1 := advance (withReg up 90 9 0x040 3) 0
     powerStateNow s1 ≠ 1 ∧ shutCommitted s1 = false ∧ shutPending s1 = false) ∧
    ((1760 : Int) ≤ 1760 ∧ starting (advance up 0) = false ∧ (1759 : Int) < 1760) ∧
    (tbit (pwr (advance up 0) 0x040) 8 = false ∧ 3999 < 4000 ∧ (advance up 0).power.excursion = false ∧
      ({ up with power := { PowerSt.reset with excursion := true } }).power.excursion = true) ∧
    (let b : Blade := { since := some 0 }
     let i : BladeIn := { volts := 5000, amps := 900, sense := true, charged := false }
     let s1 := advance { up with power := { PowerSt.reset with bladeA := b, bladeB := { b with on := true } } } (10 * ms)
     railOn s1 .aux = true ∧ s1.power.bladeA.on = false ∧ s1.power.bladeA.since = some 0 ∧ 4000 ≤ i.volts ∧ i.volts ≤ 6000 ∧ 0 + 10 * ms ≤ s1.now ∧
       s1.power.bladeB.on = true ∧ i.sense = true ∧ ({ i with volts := 3999 } : BladeIn).volts < 4000 ∧ 6000 < ({ i with volts := 6001 } : BladeIn).volts) ∧
    (tbit (pwr (advance (withReg up 90 9 0x040 0x100) 0) 0x040) 8 = true ∧ (4000 : Nat) ≤ 4000) ∧
    (railOn (advance { up with rails := [] } 0) .aux = false) := by decide +kernel

/-- The module in a power state. -/
def powered (st : Nat) : State := withReg up 90 9 0x040 st

/-- A start in progress: its step and kind. -/
def inStart (step kind : Nat) : State := withReg up 90 8 0x108 (step + 2 ^ 4 + kind * 2 ^ 6)

/-- A shutdown pending, whose window ends at 10. -/
def closing (target : Nat) : State := { withReg (powered 3) 90 8 0x110 (1 + target * 4) with start := { StartSt.reset with commitAt := 10 } }

theorem witness_StartsShutdownsAndDieResets :
    (∀ st ∈ [1, 2, 3], let s1 := advance (powered st) 0
     reachesStart s1 true = true ∧ powerStateNow s1 = st ∧ starting s1 = false ∧ shutPending s1 = false ∧ shutCommitted s1 = false) ∧
    (starting (advance (inStart 2 1) 0) = true ∧ powerStateNow (advance (inStart 2 1) 0) = 1) ∧
    (∀ b ∈ [0, 1], let s1 := advance (closing b) 9
     shutPending s1 = true ∧ fld (tpr s1 0x110) 3 2 = 0 ∧ s1.now < s1.start.commitAt ∧ (advance (closing b) 10).start.commitAt ≤ (advance (closing b) 10).now ∧
       tbit (tpr s1 0x110) 2 = decide (b = 1)) ∧
    (reachesStart (advance up 0) false = false) ∧
    (∀ k ∈ [1, 2], let s1 := advance (inStart 11 k) 0
     stepGoes s1 = true ∧ startStep s1 = 11 ∧ startKind s1 = k) ∧
    (stepGoes (advance up 0) = false) ∧
    (∀ n ∈ [2, 7], let s1 := advance (withReg (inStart n 1) 90 9 0x040 0x101) 0
     stepGoes s1 = true ∧ startKind s1 = 1 ∧ startStep s1 = n ∧
       rampHolds (advance { withReg (inStart n 1) 90 9 0x040 0x101 with power := { PowerSt.reset with pPrev := 10000 } } 0) = false ∧
       stepGoes (advance { withReg (inStart n 1) 90 9 0x040 0x101 with power := { PowerSt.reset with pPrev := 10000 } } 0) = true) ∧
    (∀ p ∈ [0, 1], let s1 := advance (withReg (withReg (powered 1) 90 9 0x048 5400) 90 8 0x104 p) (100 * ms)
     railOn s1 .aux = true ∧ powerStateNow s1 = 1 ∧ inputOk s1 = true ∧ max s1.start.standbyAt s1.start.downAt + 100 * ms ≤ s1.now ∧
       fld (tpr s1 0x104) 0 2 = p) ∧
    (starting (advance (inStart 2 1) (1000 * ms + 1)) = true ∧ pastLimit (advance (inStart 2 1) (1000 * ms + 1)) 0 = true ∧
      pastLimit (advance (inStart 2 1) (1000 * ms)) 0 = false ∧ pastLimit (advance (inStart 2 1) (1000 * ms)) 1 = false) ∧
    (reachable (advance up 0) 90 8 = true ∧ tbit 0x10B#32 8 = true ∧ dieResetBad (advance up 0) (fld 0x10B#32 0 7) = false ∧
      dieResetBad (advance up 0) (fld 0x109#32 0 7) = true) ∧
    (mapFind (advance up 0).dieReset 11 = none) ∧
    (mapFind (advance { up with dieReset := [(11, 100)] } 99).dieReset 11 = some 100 ∧ (99 : Nat) < 100 ∧
      100 ≤ (advance { up with dieReset := [(11, 100)] } 100).now) := by decide +kernel

/-- Die 11 with a self-test slice of core 16 running since 0. -/
def testing : State :=
  { withReg up 11 3 0x04C 16 with bst := [(11, { BstSt.reset with running := some 16, slices := [(16, some { id := 0x1000, ran := 0, since := 0 })] })] }

theorem witness_SelfTestsAndHandovers :
    (pageBlock 11 3 = some .bst ∧ reachable (advance up 0) 11 3 = true ∧ pageLocked (advance up 0) 11 3 = false ∧ tbit 2#32 1 = true ∧
      frsRunning (advance (withReg up 11 1 0x044 1) 0) 11 = true ∧ fld 0x0FFF#32 0 16 / 4096 = 0 ∧ 6 < fld 0x7000#32 0 16 / 4096) ∧
    (frsRunning (advance up 0) 11 = false ∧ fld 0x00101000#32 0 16 / 4096 ≠ 0 ∧ fld 0x00101000#32 0 16 / 4096 ≤ 6 ∧
      sliceMay (advance up 0) 11 (fld 0x00101000#32 0 16) (fld 0x00101000#32 16 16) = true ∧ (bstOf (advance up 0) 11).running = none) ∧
    ((bstOf (advance { up with bst := [(11, { BstSt.reset with reports := [{ kind := 1, unit := 16, addr := 0, bit := 0 }] })] } 0) 11).reports =
      { kind := 1, unit := 16, addr := 0, bit := 0 } :: [] ∧ (bstOf (advance up 0) 11).reports = []) ∧
    (let s1 := advance (running testing 11 { Frs.reset with ends := 64 * 1040, slotEnd := 10 }) 640
     frsRunning s1 11 = true ∧ slotStop s1 11 ≤ s1.now ∧ (bstOf s1 11).running = some 16 ∧
       mapGet (bstOf s1 11).slices 16 none = some { id := 0x1000, ran := 0, since := 0 }) ∧
    (frsRunning (advance testing 0) 11 = false ∧ (bstOf (advance up 0) 11).running = none ∧
      tbit (coreReg (advance up 0) 16 0x058) 1 = false ∧ mirrorActive (advance up 0) 16 = false) ∧
    (let s1 := advance testing (15000 * sliceUnit)
     (bstOf s1 11).running = some 16 ∧ mapGet (bstOf s1 11).slices 16 none = some { id := 0x1000, ran := 0, since := 0 } ∧
       sliceTime s1 (dieOrd 11 * 18 + 16) 0x1000 0 ≤ 0 + (s1.now - 0) ∧ (bstOf s1 11).reports.length < 16 ∧ dieType 11 = .compute ∧ 0x1000 / 4096 ≤ 3 ∧
       16 = fld (bstReg s1 11 0x04C) 0 5) ∧
    (¬ sliceTime (advance testing 0) (dieOrd 11 * 18 + 16) 0x1000 0 ≤ 0 + ((advance testing 0).now - 0)) ∧
    (let s1 := advance up 0
     reachable s1 (coreDie 16) (corePage 16 0) = true ∧ pageLocked s1 (coreDie 16) (corePage 16 0) = false ∧ tbit 0x100#32 8 = true ∧
       mirrorActive s1 16 = false ∧ 16 ≤ logicalOf s1 16 ∧ fld 0x100#32 0 5 < 18 ∧ dieOrd (coreDie 16) * 18 + fld 0x100#32 0 5 ≠ 16 ∧
       (Machine.core s1 0).clk.mhz = (Machine.core s1 16).clk.mhz ∧ (∀ x ∈ dieCores (coreDie 16), mirrorActive s1 x = false) ∧
       logicalOf s1 0 < 16 ∧ 18 ≤ fld 0x112#32 0 5 ∧ dieOrd (coreDie 16) * 18 + fld 0x110#32 0 5 = 16) ∧
    (tbit 0x300#32 9 = true ∧ mirrorActive (advance (withReg up (coreDie 16) (corePage 16 0) 0x058 1) 0) 16 = true) ∧
    (tbit (coreReg (advance (withReg up (coreDie 16) (corePage 16 0) 0x058 3) 0) 16 0x058) 1 = true) ∧
    (let s1 := advance (withReg (withReg up 11 (corePage 0 0) 0x058 1) 11 (corePage 0 0) 0x054 16) 0
     mirrorActive s1 0 = true ∧ logicalOf s1 0 < 16 ∧ 16 ≤ logicalOf s1 (dieOrd (coreDie 0) * 18 + fld (coreReg s1 0 0x054) 0 5) ∧
       coreExecutes (Machine.core s1 16) = false ∧ (Machine.core s1 16).reqs = []) := by decide +kernel

/-- A module of a running slice of two nodes, 0 and 1, in a failover state. -/
def member (st : Nat) : State :=
  { withReg (serving 3) 0 8 0x708 st with
    slice := { running := true, origin := 0, x := 2, y := 1, z := 1 },
    container := bytesOf 64 [(0x32, 2), (0x33, 1), (0x34, 1)],
    plan := some { plan0 with x := 2, fallback := [{ cls := 1, rebuild := 1, node := 1, detail := 0, edge := 0, resume := 1, frames := 5 }] } }

/-- A container of one directory entry: a FRAME_PROGRAM section without content for die 11. -/
def sectioned : List Byte := bytesOf 336 [(0x0C, 1), (0x32, 2), (0x33, 1), (0x34, 1), (0x38, 256), (256, 0x10), (262, 11)]

theorem witness_ClustersMembershipAndFailover :
    (let s1 := advance (member 0) (10 * beat)
     fwRuns s1 = true ∧ (tracker s1 0).lost = false ∧ (tracker s1 (1 - 0)).lost = false ∧ mapGet s1.fo.trunkBeat 0 0 + 10 * beat ≤ s1.now ∧
       ¬ mapGet (advance (member 0) 0).fo.trunkBeat 0 0 + 10 * beat ≤ (advance (member 0) 0).now) ∧
    (inRunningSlice (advance up 0) = false ∧ fwRuns (advance up 0) = false) ∧
    (let s1 := advance (withReg (member 0) 0 8 0x700 0x0A0A) (10 * beat)
     inRunningSlice s1 = true ∧ 1 ∈ neighbours s1 ∧ 1 ∉ s1.fo.lost ∧ foState s1 ≠ 1 ∧ mapGet s1.fo.beats 1 0 + fld (foReg s1 0x700) 0 8 * beat ≤ s1.now ∧
       inSlice s1 1 = true ∧ 1 ≠ ownNode s1 ∧ s1.fo.round ≤ 0) ∧
    ((advance (member 0) 0).now < mapGet (advance (withReg (member 0) 0 8 0x700 0x0A0A) 0).fo.beats 1 0 + fld (foReg (advance (withReg (member 0) 0 8 0x700 0x0A0A) 0) 0x700) 0 8 * beat) ∧
    ((∃ d ∈ frsDies, outOfStep (advance (withReg (member 0) 11 1 0x044 4) 0) d = true) ∧ (∀ d ∈ frsDies, outOfStep (advance (member 0) 0) d = false)) ∧
    (let s1 := advance { member 1 with fo := { FoSt.reset with heard := [1] } } (20 * ms)
     foState s1 = 1 ∧ s1.fo.sent = none ∧ s1.fo.since + fld (foReg s1 0x700) 8 8 * ms ≤ s1.now ∧ majority s1 = true ∧ (∀ n ∈ heardNodes s1, ownNode s1 ≤ n) ∧
       s1.fo.since + 20 * ms ≤ s1.now) ∧
    (let s1 := advance { withReg (member 1) 90 8 0x040 0x10001 with fo := { FoSt.reset with heard := [0] } } (20 * ms)
     majority s1 = true ∧ (∃ n ∈ heardNodes s1, n < ownNode s1)) ∧
    (let s1 := advance (withReg (member 1) 0 8 0x714 5) (20 * ms)
     foState s1 = 1 ∧ majority s1 = false ∧ (advance (member 1) 0).now < (advance (member 1) 0).fo.since + 20 * ms) ∧
    (let s1 := advance (member 1) 0
     [0].contains (ownNode s1) = true ∧ foState s1 = 1 ∧ s1.fo.entry = none ∧ 1 ≠ ownNode s1 ∧ (lossEntry (runningIndex s1) 1).isSome = true ∧
       lossEntry (runningIndex s1) 2 = none) ∧
    (let e : Fallback := { cls := 1, rebuild := 0, node := 1, detail := 0, edge := 0, resume := 1, frames := 0 }
     let s1 := advance { withReg (member 4) 0 1 0x044 1 with fo := { FoSt.reset with entry := some e } } 0
     s1.fo.entry = some e ∧ s1.plan.isSome = true ∧ foActs s1 = true ∧ foState s1 = 4 ∧ plan0.unit = e.rebuild ∧ frsRunning s1 0 = true ∧
       e.frames ≤ frameNum s1 0 ∧ s1.planNext = none ∧ pendingLoads s1 s1.container e.resume = []) ∧
    (let e : Fallback := { cls := 1, rebuild := 0, node := 1, detail := 0, edge := 0, resume := 0, frames := 0 }
     let s := withReg (withReg (member 4) 0 1 0x044 1) 11 1 0x064 2
     let s1 := advance { s with container := sectioned, fo := { FoSt.reset with entry := some e } } 0
     s1.fo.entry = some e ∧ foActs s1 = true ∧ foState s1 = 4 ∧ plan0.unit = e.rebuild ∧ frsRunning s1 0 = true ∧ e.frames ≤ frameNum s1 0 ∧
       s1.planNext = none ∧ (pendingLoads s1 s1.container e.resume).isEmpty = false) ∧
    (reachable (advance up 0) 0 8 = true ∧ tbit 1#32 0 = true) := by decide +kernel

/-- The Heartwood die with every role, in operation, a start in progress, and a service due at 5. -/
def service (r : SvcReq) : State :=
  { withReg (withReg (inStart 2 1) 9 8 0x048 7) 9 8 0x040 1 with
    sec := { SecSt.reset with service := some { req := r, die := 0, due := 5 }, challenge := true, keks := [(3, some { id := 2, key := 0 })] } }

/-- A firmware image whose checks pass. -/
def image0 : FwImage := { len := 4096, chainOk := true, sigOk := true, digestOk := true, svn := 1, word := 1, digest := [] }

/-- Every request, the two outcomes of those that have two. -/
def requests : List SvcReq :=
  [.status, .authChallenge, .authRespond true true, .authRespond false false, .logout, .verifyFirmware image0, .verifySignature 1 true, .clearKeys,
    .unwrapInstall 1 19 0 0 true, .unwrapInstall 1 18 0 0 true, .linkSign [], .linkVerify true, .quote [], .random 256, .importKek 0 1 0 true,
    .importAppliance [] true, .advanceFloor, .servicePermit, .debugUnlock true, .zeroise]

theorem witness_HeartwoodServices :
    (hwdFailed (advance (withReg up 9 8 0x040 2) 0) = true ∧ (advance up 0).sec.lockMs = 0) ∧
    (railOn (advance (inStart 2 1) 0) .ctl = true ∧ starting (advance (inStart 2 1) 0) = true ∧ hwdFailed (advance (inStart 2 1) 0) = false) ∧
    (reachable (advance up 0) 9 8 = true ∧ (advance up 0).sec.service = none ∧ (advance (service .status) 0).sec.service ≠ none) ∧
    (∀ r ∈ requests, let s1 := advance (service r) 5
     s1.sec.service = some { req := r, die := 0, due := 5 } ∧ 5 ≤ s1.now ∧ svcRole s1 r = true ∧ svcState s1 r = true) ∧
    ((advance (service .status) 4).now < 5 ∧ svcRole (advance (withReg (service .clearKeys) 9 8 0x048 0) 5) .clearKeys = false ∧
      svcState (advance (withReg (service .clearKeys) 9 8 0x040 2) 5) .clearKeys = false) ∧
    (let s1 := advance (service (.unwrapInstall 1 19 0 0 true)) 5
     mapGet s1.sec.keks (19 % 8) none = some { id := 2, key := 0 } ∧ 2 = 19 / 8 ∧ mapGet s1.sec.keks (18 % 8) none = none ∧ s1.sec.challenge = true) ∧
    (fld (hwd (advance (service .status) 5) 0x048) 4 4 < 8 ∧ fld (hwd (advance (withReg (service .status) 9 8 0x048 0x77) 5) 0x048) 4 4 = 7) ∧
    (image0.chainOk = true ∧ image0.sigOk = true ∧ image0.digestOk = true ∧ (service .status).svnFloor ≤ image0.svn ∧
      image0.svn < ({ service .status with svnFloor := 2 }).svnFloor) ∧
    (let s := { up with sec := { SecSt.reset with lockMs := 5 }, power := { PowerSt.reset with slowMs := 5 } }
     (advance s 0).sec.lockMs ≠ 0 ∧ (advance s 0).sec.lockMs ≤ (advance s 0).power.slowMs ∧
       (advance { s with power := PowerSt.reset } 0).power.slowMs < (advance { s with power := PowerSt.reset } 0).sec.lockMs) ∧
    (railOn (advance up 0) .ctl = true ∧ starting (advance up 0) = false ∧ hwdFailed (advance up 0) = false ∧
      railOn (advance State.reset 0) .ctl = false) := by decide +kernel

/-- Bytes with their CRC-32 after them. -/
def withCrc (l : List Byte) : List Byte := l ++ toLE 4 (crc32 l).toNat

theorem crcOk_withCrc (l : List Byte) : crcOk (withCrc l) = true := by
  have h := (crc32 l).isLt
  simp only [crcOk, withCrc, List.length_append, toLE_size, Nat.add_sub_cancel, List.drop_left', List.take_left', ofLE_toLE_mod]
  rw [show (256 : Nat) ^ 4 = 2 ^ 32 from rfl, Nat.mod_eq_of_lt h]
  simp

/-- A cabling record of one tray with one populated slot. -/
def record0 : List Byte := withCrc (bytesOf 33 [(0, 1), (3, 1), (4, 1), (32, 1)])

/-- The installation speed map of zeros. -/
def speedMap0 : List Byte := withCrc (List.replicate 4608 0#8)

/-- Die 11's FRS page raises its error interrupt. -/
def raising (s : State) : State := withReg (withReg s 11 1 0x010 1) 11 1 0x014 1

/-- Trunk die 0 mirrors its log of one entry. -/
def mirroring : State :=
  { withReg (serving 3) 0 8 0x0A4 0x10000 with host := { HostSt.reset with logN := [1, 0], mirrorN := [0, 0], log := [(0, List.replicate 64 1#8)] } }

theorem witness_FirmwareHostAndManagement :
    (reachable (advance up 0) 0 8 = true ∧ loadRefused (advance (withReg (withReg up 0 8 0x040 1) 0 8 0x048 0x1000) 0) = true) ∧
    (let s1 := advance (withReg (withReg (withReg (inStart 5 1) 0 8 0x048 0x1000) 9 8 0x040 1) 0 8 0x060 1) 0
     loadRefused s1 = false ∧ reachable s1 0 8 = true ∧ tbit 1#32 0 = true ∧ svcState s1 (.verifyFirmware image0) = true ∧ s1.svnFloor ≤ image0.svn ∧
       tbit (image0.word &&& word128 s1 0x060) 0 = true ∧ tbit 0#32 0 = false) ∧
    (irqOut (advance up 0) 11 1 = 0#32) ∧
    (let s1 := advance (raising (withReg up 1 8 0x100 (2 ^ 31 + 11 + 2 ^ 8))) 0
     reachable s1 11 1 = true ∧ irqOut s1 11 1 ≠ 0#32 ∧ mapEntry s1 11 1 = some 0 ∧ vecMasked s1.host (38 + 0) = true ∧
       vecMasked ({ HostSt.reset with msix := [(4 * 38 + 3, 0#32)] }) (38 + 0) = false) ∧
    (let s1 := advance (raising (serving 3)) 0
     reachable s1 11 1 = true ∧ mapEntry s1 11 1 = none ∧ fwRuns s1 = true ∧ tbit (irqOut s1 11 1) 0 = true ∧ s1.host.logN = [0, 0]) ∧
    (let s1 := advance mirroring 0
     fwRuns s1 = true ∧ inCtl s1 (trDie 0) = true ∧ logHost s1 0 ≠ 0 ∧ (tracker s1 0).lost = false ∧ nth s1.host.logN 0 0 = 0 + 1 ∧
       nth s1.host.mirrorN 0 0 = 0 ∧ s1.host.mirrorN.length = 2 ∧ ctlSlot s1 (trDie 0) = none ∧ nth (serving 3).host.logN 0 0 ≤ nth (serving 3).host.mirrorN 0 0 ∧
       logHost (advance up 0) 0 = 0) ∧
    (railOn (advance up 0) .aux = true ∧ recordOk [] = false ∧ recordNow (advance up 0) = true ∧ recordNow (advance (powered 3) 0) = false) ∧
    (recordOk record0 = true ∧ (parseRecord record0).pop = [1] ∧ speedMap0.length = 4612 ∧ crcOk speedMap0 = true) ∧
    ((advance { up with cab := some (parseRecord record0) } 0).cab.isSome = true ∧ (advance up 0).cab = none ∧ powerStateNow (advance up 0) = 1 ∧
      starting (advance up 0) = false ∧ powerStateNow (advance (powered 3) 0) ≠ 1 ∧ railOn (advance { up with rails := [] } 0) .aux = false) ∧
    (tbit (reg (advance (withReg up 1 8 0x044 0x200) 0) 1 8 0x044) 9 = true ∧ tbit (reg (advance up 0) 1 8 0x044) 9 = false) := by
  refine ⟨by decide +kernel, by decide +kernel, by decide +kernel, by decide +kernel, by decide +kernel, by decide +kernel, by decide +kernel, ?_,
    by decide +kernel, by decide +kernel⟩
  refine ⟨by decide +kernel, by decide +kernel, ?_, crcOk_withCrc _⟩
  rw [speedMap0, withCrc, List.length_append, toLE_size, List.length_replicate]

/-- Die 11's trace unit in a state. -/
def tracing (st : Nat) (x : TrcSt) : State := { withReg up 11 4 0x054 st with trc := [(11, x)] }

theorem witness_TraceCaptureStates :
    (reachable (advance State.reset 0) 11 4 = false ∧ reachable (advance up 0) 9 4 = true ∧
      pageLocked (advance (withReg up 11 4 0x01C 1) 0) 11 4 = true ∧ reachable (advance (withReg up 11 4 0x01C 1) 0) 11 4 = true) ∧
    (let s1 := advance (tracing 0 TrcSt.reset) 0
     reachable s1 11 4 = true ∧ pageLocked s1 11 4 = false ∧ fld 1#32 8 2 = fld (reg s1 11 4 0x040) 8 2 ∧ fld 1#32 4 3 = fld (reg s1 11 4 0x040) 4 3 ∧
       tbit 1#32 0 = true ∧ tbit 1#32 1 = false ∧ tbit 1#32 2 = false ∧ trcState s1 11 = 0 ∧ tbit 3#32 1 = true ∧ tbit 5#32 2 = true) ∧
    (trcState (advance (tracing 4 TrcSt.reset) 0) 11 = 4 ∧ trcState (advance (tracing 5 { TrcSt.reset with since := 0 }) 320) 11 = 5 ∧
      (let s1 := advance (tracing 5 TrcSt.reset) 320
       meshCyc s1 (trcOf s1 11).since + 64 ≤ meshCyc s1 s1.now) ∧
      (let s1 := advance (tracing 5 TrcSt.reset) 319
       meshCyc s1 s1.now < meshCyc s1 (trcOf s1 11).since + 64)) ∧
    (let s1 := advance (tracing 2 TrcSt.reset) 0
     trcState s1 11 = 2 ∧ (trcOf s1 11).armCyc ≠ some (meshCyc s1 s1.now) ∧ (trcOf s1 11).missedCyc ≠ some (meshCyc s1 s1.now) ∧
       (trcOf s1 11).last ≠ some (meshCyc s1 s1.now) ∧ fld (reg s1 11 4 0x040) 4 3 ≠ 5) ∧
    (let s1 := advance (tracing 1 { TrcSt.reset with armCyc := some 0 }) 0
     (trcOf s1 11).armCyc = some (meshCyc s1 s1.now) ∧ trcState s1 11 = 1 ∧ fld 0x11#32 4 3 ≠ fld (reg s1 11 4 0x040) 4 3) ∧
    (traceCause (advance up 0) 11 = false) ∧
    (let s1 := advance (running (withReg (tracing 2 TrcSt.reset) 11 4 0x04C 3) 11 Frs.reset) 0
     traceCause s1 11 = true ∧ trcState s1 11 = 2) ∧
    ((trcOf (advance up 0) 11).coming = 0) ∧
    (let s1 := advance (withReg (withReg (tracing 2 { TrcSt.reset with coming := 1 }) 11 4 0x040 0x200) 0 8 0x090 0x200) 0
     0 < (trcOf s1 11).coming ∧ tbit (reg s1 11 4 0x040) 9 = true ∧ hasFeature s1 9 = true ∧ trcState s1 11 = 2 ∧
       tbit (reg (advance (tracing 2 { TrcSt.reset with coming := 1 }) 0) 11 4 0x040) 9 = false) ∧
    (let s1 := advance (withReg (tracing 1 TrcSt.reset) 11 4 0x048 0) 0
     trcState s1 11 = 1 ∧ (trcOf s1 11).armCyc ≠ some (meshCyc s1 s1.now) ∧ trcPre s1 11 ≤ (trcOf s1 11).buf.length ∧
       (trcOf (advance (tracing 1 TrcSt.reset) 0) 11).buf.length < trcPre (advance (tracing 1 TrcSt.reset) 0) 11) ∧
    (let s1 := advance (tracing 3 { TrcSt.reset with post := 2048 }) 0
     trcState s1 11 = 3 ∧ 4096 - trcPre s1 11 ≤ (trcOf s1 11).post ∧ (trcOf (advance (tracing 3 TrcSt.reset) 0) 11).post < 4096 - trcPre s1 11) := by decide +kernel

/-- The head of a container with no known section: one unit, a slice of one module, base 1,040, its directory at 256. -/
def planHead : List Byte :=
  bytesOf 208 [(0, 0x4C505956), (6, 1), (8, 0x100), (0xC, 1), (0x28, 1), (0x2A, 1), (0x2C, 1040), (0x32, 1), (0x33, 1), (0x34, 1), (0x38, 256)]

/-- Its directory: an entry of an unlisted type without content. -/
def planDir : List Byte := bytesOf 32 [(0, 0x7F)] ++ toLE 48 (Config.sha384 []).toNat

/-- The container. -/
def planFile : List Byte := planHead ++ (toLE 48 (Config.sha384 (planHead ++ planDir)).toNat ++ planDir)

/-- A module that can take it. -/
def plannable : State := { withReg up 9 8 0x044 0 with cab := some (parseRecord record0) }

theorem sha_match (l : List Byte) : digestIs l (toLE 48 (Config.sha384 l).toNat) = true := by
  have h3 : (256 : Nat) ^ 48 = 2 ^ 384 := by decide +kernel
  rw [digestIs, ofLE_toLE_mod, h3, Nat.mod_eq_of_lt (Config.sha384 l).isLt]
  simp

/-- The state in which a plan load of a module stands. -/
def loadAt (s : State) : State := putPlanReq (notePlanLoad (advance s 0)) none

/-- The load of a container that no module word has come for. -/
def req0Of (file : List Byte) : PlanReq :=
  { unit := 0, file := file, othersOk := true, sigOk := true, words := [], eligible := [], returned := [] }

set_option maxRecDepth 20000 in
theorem planFile_loads :
    orElse (containerFault (loadAt plannable) planFile (floorOf (loadAt plannable) (req0Of planFile)) true)
      (unitFault (loadAt plannable) planFile (planInfo (loadAt plannable) planFile 0)) = none := by
  have h1 : digestIs (bytesAt planFile 0 0xD0 ++ bytesAt planFile (leAt planFile 0x38 8) (80 * leAt planFile 0x0C 4)) (bytesAt planFile 0xD0 48) = true :=
    sha_match (planHead ++ planDir)
  have h2 : (directory planFile).filter (fun e => decide (e.node = ownNode (loadAt plannable)) || decide (e.node = 0xFFFF)) = [entAtIdx planFile 0] := rfl
  have h3 : digestIs (section_ planFile (entAtIdx planFile 0)) (entAtIdx planFile 0).digest = true := sha_match []
  have h4 : containerFault (loadAt plannable) planFile (floorOf (loadAt plannable) (req0Of planFile)) true = none := by
    unfold containerFault
    simp only [h1, h2, h3, firstBad, if_true]
    decide +kernel
  rw [h4]
  decide +kernel

/-- A container of a slice of two modules. -/
def pairFile : List Byte :=
  bytesOf 336 [(0, 0x4C505956), (6, 1), (8, 0x100), (0xC, 1), (0x2A, 1), (0x32, 2), (0x33, 1), (0x34, 1), (0x38, 256)]

/-- The header of a container whose one section is a frame program of die 11. -/
def programFile : List Byte :=
  bytesOf 336 [(0, 0x4C505956), (6, 1), (8, 0x100), (0xC, 1), (0x2A, 1), (0x32, 1), (0x33, 1), (0x34, 1), (0x38, 256), (256, 0x10), (262, 11)]

theorem witness_PlanLoadsArmOnlyWhatPasses :
    (orElse (containerFault (loadAt plannable) planFile (floorOf (loadAt plannable) (req0Of planFile)) true)
      (unitFault (loadAt plannable) planFile (planInfo (loadAt plannable) planFile 0)) = none) ∧
    (reduced (notePlanLoad (advance plannable 0)) (req0Of planFile) = true ∧ pendingLoads (loadAt plannable) planFile 0 = [] ∧
      (foldState planContext (loadAt plannable, true, []) (planInfo (loadAt plannable) planFile 0).contexts).2.1 = true) ∧
    (headerOk pairFile = true ∧ reduced (notePlanLoad (advance plannable 0)) (req0Of pairFile) = false) ∧
    (headerOk programFile = true ∧ (pendingLoads (loadAt (withReg plannable 11 1 0x064 2)) programFile 0).isEmpty = false) ∧
    (headerOk [] = false ∧ containerFault (loadAt up) [] 0 true = some (0x101A, none)) :=
  ⟨planFile_loads, by decide +kernel, by decide +kernel, by decide +kernel, by decide +kernel⟩

/-! ## Results the specification works out -/

/-- The page of Worked example, 01_conventions: die 55, page 3, ERR_CODE at 0x0370_3020, from another module at 0x0F00_0370_3000. -/
theorem test_page_offsets : barOff 55 3 0x020 = 0x03703020 ∧ homeOf 0x0F0003703000 = .regs (barOff 55 3 0) := by decide

/-- The pages of the worked example of 20_register_directory: PAGE_ID and PAGE_CAPS of port 16 and of core 7 of die 55. -/
theorem test_page_identity :
    portDie 16 = 20 ∧ portPage 16 = 0xA ∧ reg State.reset 20 0xA 0 = 0x30100100#32 ∧ reg State.reset 20 0xA 4 = 0x00040B03#32 ∧
      corePage (36 * 18 + 7) 0 = 0x48 ∧ reg State.reset 55 0x48 0 = 0x01070100#32 ∧ reg State.reset 55 0x48 4 = 0x00000603#32 := by decide +kernel

/-- 02_module_and_dies: stack 15 spans 0x00B4_0000_0000 to 0x00BF_FFFF_FFFF. -/
theorem test_stack_15 :
    homeOf 0x00B400000000 = .tier1 15 0 ∧ homeOf 0x00BFFFFFFFFF = .tier1 15 0xBFFFFFFFF ∧ homeOf 0x00C000000000 = .unmapped := by decide

/-- 02_module_and_dies: byte 0x0010_0000 of logical core 5 of die 55 (ordinal 36), and the hole of the same slot. -/
theorem test_scratchpad_slot :
    cpDie 36 = 55 ∧ homeOf 0x01048A100000 = .tier0 36 5 0x100000 ∧ homeOf 0x01048B800000 = .hole := by decide

/-- 02_module_and_dies: planned flits leave in epoch cycles 1 to 32, not in 33, and not in 66. -/
theorem test_dynamic_cycles : (upFrom 0 100).filter dynSlot = [0, 33, 66] := by decide

/-- 02_module_and_dies: dimension order from die 12 at (1,2) to die 55 at (5,5) goes along the row first. -/
theorem test_dimension_order : dynOut 12 55 = 1 ∧ dynOut 15 55 = 2 ∧ dynOut 55 55 = 4 := by decide

/-- 03_core_engines: the MMA of M 16, K 2,048, N 64 in E2M1 takes 1,024 cycles and 12 stages, its FP32 store 2 and 10, the ADD of 16 rows by 64 columns
16 and 14. -/
theorem test_occupancies :
    let mma := descOf [0, 0, 7 * 2 ^ 25, 7 * 2 ^ 25, 0, 0, 2048 + 15 * 2 ^ 16 + 63 * 2 ^ 23]
    let store := descOf [0x01, 0, 0, 0, 0, 0, 2048 + 15 * 2 ^ 16 + 63 * 2 ^ 23]
    mxeOcc mma = 1024 ∧ mxePipe mma = 12 ∧ mxeOcc store = 2 ∧ mxePipe store = 10 := by decide +kernel

/-- 04_number_formats (R95): the elements (+1, −1, 0, 0, +1) are the byte 0x58. -/
theorem test_trn_digits : [1, 2, 0, 0, 1].foldr (fun d n => d + 3 * n) 0 = 0x58 ∧ tritVal 1 = .fin false 1 0 ∧ tritVal 2 = .fin true 1 0 := by decide

/-- 04_number_formats: a block with amax 3.1 takes scale code 0x78 in E4M3 with MX scales; 3.1 becomes 0x7C and 0.0123 becomes 0x3D. -/
theorem test_mx_block :
    convBlock 3 1 .nearestEven [f32dec 0x40466666#32, f32dec 0x3C4985F0#32] = (0x78, [0x7C, 0x3D], []) := by decide +kernel

/-- 06_step_frames: with CHUNK 4 and PREFILL_LEN 10 the rows 0 to 3 are active at step t, rows 0 and 1 at step t + 2. -/
theorem test_chunk_rows :
    let p : SlotPoint := { step := 7, st := 1, len := 10 }
    tokensLeft p 4 7 = 10 ∧ tokensLeft p 4 8 = 6 ∧ tokensLeft p 4 9 = 2 := by decide

/-- 04_number_formats and 10_memory_tiers: a base frame of 3,120 ticks at level 2 lasts 3,510. -/
theorem test_stretched_frame : extTicks 3120 2 = 3510 := by decide

/-- 11_links: the dynamic positions next to 650 to 658 are 633 and 666; the next one is 700. -/
theorem test_dynamic_positions : (upFrom 633 68).filter dynSlot = [633, 666, 700] := by decide

end Sys2Proof.Tests
end

section
/-!
PROOFS. The conventions of register pages (spec/01_conventions.md): steps and reset, register writes by access code, accesses that are no aligned word,
IRQ_STATUS and IRQ_FORCE, PAGE_CTRL with and without SOFT_RESET, PAGE_LOCK, the event counters and the reads that latch a high half.
-/
namespace Sys2Proof.Machine

section

/-! ## Lists of numbers and folds -/

theorem mem_upFrom {lo n x : Nat} : x ∈ upFrom lo n ↔ lo ≤ x ∧ x < lo + n := by
  induction n generalizing lo with
  | zero => simp [upFrom]
  | succ k ih => simp only [upFrom, List.mem_cons, ih]; omega

/-- A fold whose every step leaves the state alone ends where it began. -/
theorem foldState_eq_self {σ α : Type} {f : σ → α → σ} {s : σ} {l : List α} (h : ∀ x ∈ l, f s x = s) : foldState f s l = s := by
  induction l with
  | nil => rfl
  | cons x r ih =>
    simp only [foldState, h x List.mem_cons_self]
    exact ih fun y hy => h y (List.mem_cons_of_mem x hy)

/-! ## Where a BAR0 offset lies (R21) -/

section
variable {d p o : Nat}

theorem barOff_die (hp : p < 256) (ho : o < 4096) : barOff d p o / 0x100000 = d := by simp only [barOff]; omega

theorem barOff_page (hp : p < 256) (ho : o < 4096) : barOff d p o / 0x1000 % 256 = p := by simp only [barOff]; omega

theorem barOff_mod : barOff d p o % 0x1000 = o % 0x1000 := by simp only [barOff]; omega

/-- A register at one offset of its page is none at another offset of any page. -/
theorem ne_barOff {k : Nat} (h : k % 0x1000 ≠ o % 0x1000) : k ≠ barOff d p o := fun e => h (by rw [e, barOff_mod])

end

/-! ## Steps -/

/-- Ports that have nothing to transmit serve nothing. -/
theorem serveLinks_of_silent {s : State} (h : ∀ p < 42, transmits s p = false) : serveLinks s = s := by
  refine foldState_eq_self fun p hp => ?_
  have hp : p < 42 := by simpa using (mem_upFrom.1 hp).2
  simp [h p hp]

/-- Settles O1. -/
theorem stepPerformsTheFrontCommand : Obligations.StepPerformsTheFrontCommand := by
  refine ⟨fun c rest s h => ?_, fun s h => ?_⟩
  · simp only [step, h]
  · have hs : step s = .next (serveLinks s) := by simp only [step, h]
    exact ⟨hs, fun hq => by rw [hs, serveLinks_of_silent hq]⟩

/-! ## The state after reset -/

/-- After reset no rail but the auxiliary one is on (R390). -/
theorem railOn_reset {r : Rail} (h : railOn State.reset r = true) : r = .aux := by
  cases r with
  | aux => rfl
  | ctl => cases h
  | mem => cases h
  | link => cases h
  | core k =>
    have hk : (0 : Nat) ≠ 4 + k := by omega
    simp [railOn, State.reset, mapGet, Rail.key, hk] at h

theorem dieType_ne_taproot {d : Nat} (h : d ≠ 90) : dieType d ≠ .taproot := by
  intro ht
  simp only [dieType, if_neg h] at ht
  repeat' split at ht
  all_goals exact DieType.noConfusion ht

/-- Only pages of the Taproot die stand on the auxiliary rail (R391, R536). -/
theorem die_of_pageRail_aux {d p : Nat} (h : pageRail d p = .aux) : d = 90 := by
  refine Decidable.byContradiction fun hd => ?_
  by_cases hp : p = 0
  · simp [pageRail, hp, hd] at h
  · rw [pageRail, if_neg hp] at h
    cases ht : dieType d with
    | taproot => exact dieType_ne_taproot hd ht
    | compute =>
      simp only [ht] at h
      split at h <;> cases h
    | _ => simp [ht] at h

/-- A page that can be reached has its rail on. -/
theorem railOn_of_reachable {s : State} {d p : Nat} (h : reachable s d p = true) : railOn s (pageRail d p) = true := by
  simp only [reachable, Bool.and_eq_true] at h
  obtain ⟨⟨_, hrail⟩, _⟩ := h
  exact hrail

theorem getReg_reset (k : Nat) : getReg State.reset k = regReset false k := rfl

/-- The reset value of a register of an implemented page, by its offset in the page (R12, R535). -/
theorem regReset_barOff {d p o : Nat} {b : Block} (bench : Bool) (hp : p < 256) (ho : o < 0x1000) (hb : pageBlock d p = some b) :
    regReset bench (barOff d p o) = if o < 0x040 then headerReset b d p o else blockReset bench b d p o := by
  rw [regReset, barOff_die hp ho, barOff_page hp ho, barOff_mod, Nat.mod_eq_of_lt ho]
  simp only [hb]

/-- The header registers of an implemented page read their reset value after reset (R12). -/
theorem reg_reset_header {d p o : Nat} {b : Block} (hp : p < 256) (ho : o < 0x040) (hb : pageBlock d p = some b) :
    reg State.reset d p o = headerReset b d p o := by
  rw [reg, getReg_reset, regReset_barOff false hp (by omega) hb, if_pos ho]

/-- Settles O3. -/
theorem resetIsStandby : Obligations.ResetIsStandby := by
  refine ⟨rfl, by decide, by decide, fun d p h => die_of_pageRail_aux (railOn_reset (railOn_of_reachable h)), by decide, getReg_reset,
    fun d p _ hp hb => ?_, by decide, by decide, by decide, by decide, by decide, memoryWf_reset, scratchpadsWf_reset, rfl⟩
  obtain ⟨b, hb⟩ := Option.isSome_iff_exists.1 hb
  exact ⟨reg_reset_header hp (by omega) hb, reg_reset_header hp (by omega) hb⟩

end

section

/-! ## What stays when little changes -/

/-- A state with the same stores holds the same memories. -/
theorem SameMemory.of_fields {s u : State} (h1 : u.t1 = s.t1) (h2 : u.t2 = s.t2) (hc : u.cores = s.cores) : SameMemory s u :=
  ⟨fun a => by rw [tier1Byte, h1, tier1Byte], fun a => by rw [tier2Byte, h2, tier2Byte], fun c a => by rw [spmByteAt, core, hc, spmByteAt, core]⟩

theorem SameMemory.trans {s u w : State} (h1 : SameMemory s u) (h2 : SameMemory u w) : SameMemory s w := by
  obtain ⟨a1, b1, c1⟩ := h1
  obtain ⟨a2, b2, c2⟩ := h2
  exact ⟨fun a => (a2 a).trans (a1 a), fun a => (b2 a).trans (b1 a), fun c a => (c2 c a).trans (c1 c a)⟩

/-- A change of registers alone leaves every memory alone. -/
theorem RegsOnly.sameMemory {T : Nat → Prop} {s u : State} (h : RegsOnly T s u) : SameMemory s u := by
  rw [h.1]
  exact SameMemory.of_fields rfl rfl rfl

/-- A record of the trace unit after changes of registers is one more of them. -/
theorem RegsOnly.traceRec {T : Nat → Prop} {s u : State} (h : RegsOnly T s u) (d src arg : Nat) : RegsOnly T s (traceRec u d src arg) :=
  ⟨(congrArg (fun z : State => { z with trc := (Machine.traceRec u d src arg).trc, fresh := (Machine.traceRec u d src arg).fresh }) h.1 : _), h.2⟩

theorem regsOnly_traceRec (T : Nat → Prop) (s : State) (d src arg : Nat) : RegsOnly T s (traceRec s d src arg) :=
  (RegsOnly.refl s T).traceRec d src arg

/-! ## What a record of the trace unit leaves (R508) -/

section
variable (s : State) (e src arg d p o : Nat)

@[simp] theorem reg_traceRec : reg (traceRec s e src arg) d p o = reg s d p o := rfl
@[simp] theorem pageMark_traceRec : pageMark (traceRec s e src arg) d p = pageMark s d p := rfl
@[simp] theorem pageLocked_traceRec : pageLocked (traceRec s e src arg) d p = pageLocked s d p := rfl
@[simp] theorem pageCycle_traceRec : pageCycle (traceRec s e src arg) d p = pageCycle s d p := rfl

end

/-- Changes of registers after a record of the trace unit are changes of that kind. -/
theorem RegsOnly.of_traceRec {T : Nat → Prop} {s u : State} {e src arg : Nat} (h : RegsOnly T (Machine.traceRec s e src arg) u) :
    RegsOnly T s u := ⟨h.1, h.2⟩

/-- What is turned away after a record of the trace unit is turned away. -/
theorem TurnedAway.of_traceRec {s u : State} {d p code e src arg : Nat} (h : TurnedAway d p code (Machine.traceRec s e src arg) u) :
    TurnedAway d p code s u := ⟨h.1, h.2.of_traceRec⟩

/-- An error with a free detail turns its command away. -/
theorem turnedAway_recordErrorFree (s : State) {d p code : Nat} (hc : code < 2 ^ 16) : TurnedAway d p code s (recordErrorFree s d p code) :=
  ⟨recordErrorFree_taken s hc, recordErrorFree_regsOnly s d p code⟩

/-! ## A header access by what it meets (R536, R537) -/

section
variable {s : State} {d p : Nat} (off : Nat) (v : Word)

theorem headerAccess_unreachable (h : reachable s d p = false) : headerAccess s d p off v = s := by simp [headerAccess, h]

theorem headerAccess_sealed (h : reachable s d p = true) (hs : sealedPage d p = true) :
    headerAccess s d p off v = recordError s 9 8 0x8054 (off * 2 ^ 8 + p * 2 ^ 20) := by simp [headerAccess, h, hs]

theorem headerAccess_open (h : reachable s d p = true) (hs : sealedPage d p = false) :
    headerAccess s d p off v = writeHeader (traceRec s d 5 0) d p off v := by simp [headerAccess, h, hs]

end

/-- The pages that discard every write are pages 2 and 4 of the Heartwood die (R537). -/
theorem page_le_of_sealed {d p : Nat} (h : sealedPage d p = true) : p ≤ 4 := by
  simp only [sealedPage, Bool.and_eq_true, Bool.or_eq_true, decide_eq_true_eq] at h
  omega

/-- A block stands at a page that can be reached. -/
theorem block_of_reachable {s : State} {d p : Nat} (h : reachable s d p = true) : ∃ b, pageBlock d p = some b := by
  simp only [reachable, Bool.and_eq_true] at h
  obtain ⟨⟨hblock, _⟩, _⟩ := h
  exact Option.isSome_iff_exists.1 hblock

/-! ## A register access that is no aligned word (R11) -/

section
variable {s : State} {bar size : Nat} {isWrite : Bool}

/-- The page takes error 0x1001 with the place, the size and the direction of the access. -/
theorem misaligned_reached (hd : bar / 0x100000 < 100) (hr : reachable s (bar / 0x100000) (bar / 0x1000 % 256) = true) :
    misaligned s bar size isWrite = recordError s (bar / 0x100000) (bar / 0x1000 % 256) 0x1001
      (bar % 4096 + min (size - 1) 15 * 4096 + (if isWrite then 65536 else 0)) := by
  cases isWrite <;> simp [misaligned, hd, hr, b2n]

theorem misaligned_missed (h : ¬ (bar / 0x100000 < 100 ∧ reachable s (bar / 0x100000) (bar / 0x1000 % 256) = true)) :
    misaligned s bar size isWrite = s := by
  simp only [misaligned, if_neg h]

end

/-- What the access leaves: the error's state, in which a read shows all ones. -/
theorem exec_misaligned {t : Time} {off size : Nat} {isWrite : Bool} {s : State} (h : ¬ (size = 4 ∧ off % 4 = 0)) :
    exec (.misalignedRegisterAccess t off size isWrite) s = .next { misaligned (advance s t) off size isWrite with
      lastRead := if isWrite then (misaligned (advance s t) off size isWrite).lastRead else 0xFFFFFFFF#32 } := by
  have : exec (.misalignedRegisterAccess t off size isWrite) s = execMisalignedRegisterAccess t off size isWrite s := rfl
  rw [this, execMisalignedRegisterAccess, if_neg h]
  cases isWrite <;> rfl

/-- A read of a page that is not implemented returns all ones and leaves the state alone (R11). -/
theorem readReg_unimplemented (s : State) {d p o : Nat} (hp : p < 256) (ho : o < 4096) (hb : pageBlock d p = none) :
    readReg s (barOff d p o) = (allOnes, s) := by
  simp only [readReg, barOff_die hp ho, barOff_page hp ho, hb]
  split <;> rfl

theorem exec_loReadLatch (t : Time) (die : Die) (page : Fin 256) (off : Fin 4096) (s : State) :
    exec (.loReadLatch t die page off) s = .next { (readReg (advance s t) (barOff die.val page.val (off.val / 4 * 4))).2 with
      lastRead := (readReg (advance s t) (barOff die.val page.val (off.val / 4 * 4))).1 } := rfl

/-- Settles O6. -/
theorem misalignedAccessIsRecordedAndDiscarded : Obligations.MisalignedAccessIsRecordedAndDiscarded := by
  refine ⟨fun t die page off s hb => ?_, fun t off size isWrite s hn _ => ⟨fun hd hr => ?_, fun hm => ?_⟩⟩
  · rw [exec_loReadLatch, readReg_unimplemented _ page.isLt (by omega) hb]
    rfl
  · have hi : off % 4096 + min (size - 1) 15 * 4096 + (if isWrite then 65536 else 0) < 2 ^ 24 := by split <;> omega
    have hregs := recordError_regsOnly (advance s t) (off / 0x100000) (off / 0x1000 % 256) 0x1001
      (off % 4096 + min (size - 1) 15 * 4096 + (if isWrite then 65536 else 0))
    have hlast := congrArg State.lastRead hregs.1
    refine ⟨_, exec_misaligned hn, ?_⟩
    rw [misaligned_reached hd hr]
    refine ⟨recordError_taken (advance s t) (by omega) hi, hregs.2, ?_, ?_⟩
    · exact hregs.sameMemory
    · rw [hlast]
      rfl
  · refine ⟨_, exec_misaligned hn, ?_⟩
    rw [misaligned_missed hm]
    rfl

end

section

variable {s : State} {d p : Nat}

/-! ## A write of IRQ_STATUS (R18, R20) -/

/-- Capturing the errors of a cycle anew changes ERR_CODE and ERR_INFO alone. -/
theorem getReg_recapture {k : Nat} (l : List (Nat × Nat)) (h1 : k ≠ barOff d p 0x020) (h2 : k ≠ barOff d p 0x024) :
    getReg (recapture s d p l) k = getReg s k := by
  cases l <;> simp only [recapture, getReg_setReg, if_neg h1, if_neg h2]

/-- With no error in the cycle ERR_CODE and ERR_INFO read zero (R20). -/
theorem reg_recapture_nil : reg (recapture s d p []) d p 0x020 = 0#32 ∧ reg (recapture s d p []) d p 0x024 = 0#32 := by
  refine ⟨?_, reg_setReg_same _ _ _ _ _⟩
  rw [recapture, reg_setReg_ne _ (errRegs_apart d p).2.2, reg_setReg_same]

/-- LAST_FABRIC_ERR is the only register that its clear changes (R79, R88). -/
theorem getReg_clearFabricErr {k : Nat} (h : k % 0x1000 ≠ 0x04C) : getReg (clearFabricErr s d p) k = getReg s k := by
  have hk (q : Nat) : k ≠ barOff d q 0x04C := ne_barOff h
  unfold clearFabricErr
  extract_lets
  split
  · rw [getReg_setReg, if_neg (hk _)]
  · rw [getReg_setReg, if_neg (hk _)]
  · rfl

/-- The registers that a write of IRQ_STATUS may change. -/
def statusRegs (d p k : Nat) : Prop := errRegs d p k ∨ k % 0x1000 = 0x04C

theorem RegsOnly.clearFabricErr {u : State} (h : RegsOnly (statusRegs d p) s u) :
    RegsOnly (statusRegs d p) s (clearFabricErr u d p) := by
  unfold Machine.clearFabricErr
  extract_lets
  split
  · exact h.setReg _ _ _ _ (.inr barOff_mod)
  · exact h.setReg _ _ _ _ (.inr barOff_mod)
  · exact h

theorem RegsOnly.recapture {u : State} (h : RegsOnly (statusRegs d p) s u) (l : List (Nat × Nat)) :
    RegsOnly (statusRegs d p) s (recapture u d p l) := by
  have hc : statusRegs d p (barOff d p 0x020) := .inl (.inr (.inl rfl))
  have hi : statusRegs d p (barOff d p 0x024) := .inl (.inr (.inr rfl))
  have h1 := (h.setReg d p 0x020 0#32 hc).setReg d p 0x024 0#32 hi
  cases l with
  | nil => exact h1
  | cons e r => exact (h1.setReg d p 0x020 _ hc).setReg d p 0x024 _ hi

/-- A write of IRQ_STATUS changes the page's error record and LAST_FABRIC_ERR at most. -/
theorem writeIrqStatus_regsOnly (v : Word) : RegsOnly (statusRegs d p) s (writeIrqStatus s d p v) := by
  have h1 (x : Word) : RegsOnly (statusRegs d p) s (setReg s d p 0x010 x) := (RegsOnly.refl s _).setReg _ _ _ _ (.inl (.inl rfl))
  unfold writeIrqStatus
  extract_lets
  split
  · exact ((h1 _).recapture _).clearFabricErr
  · exact h1 _

/-- The bits written are cleared, but for those that an event of the same cycle set (R18). -/
theorem reg_writeIrqStatus (v : Word) : reg (writeIrqStatus s d p v) d p 0x010 =
    reg s d p 0x010 &&& ~~~(v &&& ~~~(if (pageMark s d p).irqCyc = some (pageCycle s d p) then (pageMark s d p).irq else 0#32)) := by
  unfold writeIrqStatus
  extract_lets m now keep s1
  have hs1 : reg s1 d p 0x010 = reg s d p 0x010 &&& ~~~(v &&& ~~~keep) := reg_setReg_same _ _ _ _ _
  have hkeep : keep = if (pageMark s d p).irqCyc = some (pageCycle s d p) then (pageMark s d p).irq else 0#32 := by
    simp only [keep, now, m, decide_eq_true_eq]
  rw [← hkeep, ← hs1]
  split
  · obtain ⟨h1, h2, _⟩ := errRegs_apart d p
    rw [reg, getReg_clearFabricErr (by simp [barOff_mod]), getReg_recapture _ h1 h2, reg]
  · rfl

/-- In a cycle without an event every bit written is cleared. -/
theorem reg_writeIrqStatus_quiet {v : Word} (hm : (pageMark s d p).irqCyc ≠ some (pageCycle s d p)) :
    reg (writeIrqStatus s d p v) d p 0x010 = reg s d p 0x010 &&& ~~~v := by
  rw [reg_writeIrqStatus, if_neg hm, BitVec.not_zero, BitVec.and_allOnes]

/-- A clear of ERR in a cycle without an event clears ERR_CODE and ERR_INFO (R20). -/
theorem writeIrqStatus_clears_error {v : Word} (hm : (pageMark s d p).irqCyc ≠ some (pageCycle s d p)) (hv : tbit v 0 = true) :
    reg (writeIrqStatus s d p v) d p 0x020 = 0#32 ∧ reg (writeIrqStatus s d p v) d p 0x024 = 0#32 := by
  simp only [writeIrqStatus, hm, hv, decide_false, if_true, Bool.false_eq_true, if_false]
  have h (o : Nat) (ho : o % 0x1000 ≠ 0x04C) (u : State) : reg (clearFabricErr u d p) d p o = reg u d p o :=
    getReg_clearFabricErr (by rwa [barOff_mod])
  rw [h 0x020 (by decide), h 0x024 (by decide)]
  exact reg_recapture_nil

/-! ## A write of IRQ_FORCE (R19) -/

/-- An event's interrupt bit keeps `RegsOnly` where IRQ_STATUS is among the registers touched. -/
theorem RegsOnly.setIrq {T : Nat → Prop} {s u : State} (h : RegsOnly T s u) {d p : Nat} (i : Nat) (ht : T (barOff d p 0x010)) :
    RegsOnly T s (setIrq u d p i) :=
  (h.putMark d p _).setReg d p 0x010 _ ht

/-- An event's bit reads 1, and the other bits of IRQ_STATUS read as before (R18). -/
theorem tbit_setIrq {i j : Nat} (hj : j < 32) : tbit (reg (setIrq s d p i) d p 0x010) j = (decide (j = i) || tbit (reg s d p 0x010) j) := by
  by_cases h : j = i
  · subst h
    simp [setIrq_sets s d p j hj]
  · rw [setIrq, reg_setReg_same, tbit_setBit_ne _ _ hj h]
    simp [h]

/-- The bits of a list that a word names, set in IRQ_STATUS one by one. -/
def forceBits (s : State) (d p : Nat) (w : Word) (l : List Nat) : State :=
  foldState (fun u i => if tbit w i then setIrq u d p i else u) s l

theorem tbit_forceBits (w : Word) (l : List Nat) (s : State) {j : Nat} (hj : j < 32) :
    tbit (reg (forceBits s d p w l) d p 0x010) j = (tbit (reg s d p 0x010) j || (decide (j ∈ l) && tbit w j)) := by
  induction l generalizing s with
  | nil => simp [forceBits, foldState]
  | cons i r ih =>
    have hstep := ih (if tbit w i then setIrq s d p i else s)
    rw [forceBits] at hstep ⊢
    rw [foldState, hstep]
    by_cases hi : j = i
    · subst hi
      cases hw : tbit w j <;> simp [tbit_setIrq hj]
    · cases hw : tbit w i <;> simp [tbit_setIrq hj, hi]

/-- Forcing every bit of a word is a disjunction with it. -/
theorem reg_forceBits_all (w : Word) : reg (forceBits s d p w (upFrom 0 32)) d p 0x010 = reg s d p 0x010 ||| w := by
  refine BitVec.eq_of_getLsbD_eq fun i hi => ?_
  have hmem : i ∈ upFrom 0 32 := mem_upFrom.2 ⟨by omega, by omega⟩
  have h := tbit_forceBits (d := d) (p := p) w (upFrom 0 32) s hi
  simpa [tbit, hmem] using h

theorem forceBits_regsOnly (w : Word) (l : List Nat) : RegsOnly (fun k => k = barOff d p 0x010) s (forceBits s d p w l) := by
  refine foldState_keeps (fun u i hu => ?_) l s (RegsOnly.refl s _)
  split
  · exact hu.setIrq i rfl
  · exact hu

/-- Under the permission IRQ_FORCE sets the implemented bits written and changes nothing else. -/
theorem writeIrqForce_permitted (v : Word) (h : hasService s d = true) :
    reg (writeIrqForce s d p v) d p 0x010 = reg s d p 0x010 ||| (v &&& irqMask d p) ∧
      RegsOnly (fun k => k = barOff d p 0x010) s (writeIrqForce s d p v) := by
  by_cases hw : v &&& irqMask d p = 0#32
  · simp [writeIrqForce, hw, RegsOnly.refl]
  · have he : writeIrqForce s d p v = forceBits s d p (v &&& irqMask d p) (upFrom 0 32) := by simp [writeIrqForce, hw, h, forceBits]
    rw [he]
    exact ⟨reg_forceBits_all _, forceBits_regsOnly _ _⟩

/-- Without the permission IRQ_FORCE records 0x8001 alone. -/
theorem writeIrqForce_refused {v : Word} (h : hasService s d = false) (hw : v &&& irqMask d p ≠ 0#32) :
    writeIrqForce s d p v = recordErrorFree s d p 0x8001 := by
  simp [writeIrqForce, hw, h]

/-! ## Status bits and forced bits as commands -/

/-- Settles O9. -/
theorem statusBitsStickAndForceNeedsPermission : Obligations.StatusBitsStickAndForceNeedsPermission := by
  refine ⟨fun s d p b hb => setIrq_sets s d p b hb, fun t die page v s => ⟨fun hq => ?_, fun hr hs => ?_⟩⟩
  · have hout : irqOut (advance s t) die.val page.val = 0#32 := hq
    have he : exec (.pageInterrupt t die page) s = execPageInterrupt t die page s := rfl
    rw [he, execPageInterrupt]
    simp [hout]
  · have hclear : exec (.irqStatusClear t die page v) s =
        .next (writeIrqStatus (traceRec (advance s t) die.val 5 0) die.val page.val v) := congrArg _ (headerAccess_open 0x010 v hr hs)
    have hforce : exec (.irqForce t die page v) s =
        .next (writeIrqForce (traceRec (advance s t) die.val 5 0) die.val page.val v) := congrArg _ (headerAccess_open 0x018 v hr hs)
    refine ⟨fun hm => ⟨_, hclear, ?_, fun hv => writeIrqStatus_clears_error hm hv, ?_⟩, fun hm => ⟨_, hclear, ?_⟩,
      fun hp => ⟨_, hforce, ?_⟩, fun hp hw => ⟨_, hforce, ?_⟩⟩
    · exact reg_writeIrqStatus_quiet (s := traceRec (advance s t) die.val 5 0) hm
    · exact (writeIrqStatus_regsOnly v).sameMemory
    · simp [reg_writeIrqStatus, hm]
    · obtain ⟨h1, h2⟩ := writeIrqForce_permitted (s := traceRec (advance s t) die.val 5 0) (p := page.val) v hp
      exact ⟨h1, h2.of_traceRec⟩
    · have he := writeIrqForce_refused (s := traceRec (advance s t) die.val 5 0) hp hw
      rw [he]
      exact (turnedAway_recordErrorFree _ (by omega)).of_traceRec

end

section

/-! ## A register write by what it meets (R21, R25, R537) -/

section
variable {s : State} {who : Requester} {d p off : Nat} {v : Word} {b : Block}

/-- An access that reaches an aligned register of a die's page is a write of that register. -/
theorem registerWrite_page (hd : d < 100) (hp : p < 256) (ho : off < 0x1000) (ha : off % 4 = 0) (hw : whoReaches s who (barOff d p off) = true) :
    registerWrite s who (barOff d p off) v = writeReg s who (barOff d p off) v := by
  have hbar : barOff d p off < 2 ^ 28 ∧ barOff d p off % 4 = 0 := by simp only [barOff]; omega
  have h1 : ¬ (who = .host ∧ barOff d p off ≥ 2 ^ 28) := by omega
  have h2 : ¬ barOff d p off % 4 ≠ 0 := by omega
  rw [registerWrite, if_neg h1, if_neg (by simp [hw]), if_neg h2]

/-- A write of a header register is a header access. -/
theorem writeReg_header (hd : d < 100) (hp : p < 256) (ho : off < 0x040) (hb : pageBlock d p = some b)
    (hw : ¬ (d = 9 ∧ p = 8 ∧ trunkOf who = none)) : writeReg s who (barOff d p off) v = headerAccess s d p off v := by
  have hd' : ¬ d ≥ 100 := by omega
  have hw' : ¬ (d = 9 ∧ p = 8 ∧ (trunkOf who).isNone = true) := by rwa [Option.isNone_iff_eq_none]
  simp only [writeReg, barOff_die hp (by omega : off < 4096), barOff_page hp (by omega : off < 4096), barOff_mod,
    Nat.mod_eq_of_lt (by omega : off < 0x1000), if_neg hd', hb, if_neg hw', if_pos ho]

/-- The load hint follows FRAME_STATUS and the stop of die 0's sequencer (R417): a write that leaves both gives none. -/
theorem runHint_of_same {u : State} (h1 : startArmed u 0 = startArmed s 0) (h2 : (frsOf u 0).stop = (frsOf s 0).stop) : runHint s u = u := by
  simp [runHint, h1, h2]

/-- The registers of the error record do not start or stop frames. -/
theorem runHint_of_errRegs {u : State} (h : RegsOnly (errRegs d p) s u) : runHint s u = u := by
  have hk : ¬ errRegs d p (barOff 0 1 0x044) := by simp only [errRegs, barOff]; omega
  refine runHint_of_same ?_ ?_
  · rw [startArmed, reg, h.2 _ hk, startArmed, reg]
  · rw [h.1, frsOf, frsOf]

/-- A write of a locked RW register is discarded with 0x1003 (R15). -/
theorem writeReg_locked (hd : d < 100) (hp : p < 256) (ho : 0x040 ≤ off) (ho' : off < 0x1000) (hb : pageBlock d p = some b)
    (hw : ¬ (d = 9 ∧ p = 8 ∧ trunkOf who = none)) (hr : reachable s d p = true) (hs : sealedPage d p = false)
    (hrw : regRw b d off = true) (hl : pageLocked s d p = true) :
    writeReg s who (barOff d p off) v = lockedWrite (traceRec s d 5 0) d p off := by
  have hd' : ¬ d ≥ 100 := by omega
  have hw' : ¬ (d = 9 ∧ p = 8 ∧ (trunkOf who).isNone = true) := by rwa [Option.isNone_iff_eq_none]
  have hlocked (f : State → State) : pageWrite s d p off true f = lockedWrite (traceRec s d 5 0) d p off := by simp [pageWrite, hr, hl]
  simp only [writeReg, barOff_die hp ho', barOff_page hp ho', barOff_mod, Nat.mod_eq_of_lt ho', if_neg hd', hb, if_neg hw',
    if_neg (by omega : ¬ off < 0x040), hs, Bool.false_eq_true, if_false, hrw, hlocked]
  split
  · exact runHint_of_errRegs (RegsOnly.of_traceRec (recordError_regsOnly _ _ _ _ _))
  · rfl

theorem readOnly_aligned (h : off ∈ [0x000, 0x004, 0x00C, 0x020, 0x024]) : off < 0x040 ∧ off % 4 = 0 := by
  revert off
  decide

/-- A read-only register of the header ignores a write (R10, R12). -/
theorem writeHeader_readOnly (h : off ∈ [0x000, 0x004, 0x00C, 0x020, 0x024]) : writeHeader s d p off v = s := by
  simp only [List.mem_cons, List.not_mem_nil, or_false] at h
  obtain rfl | rfl | rfl | rfl | rfl := h <;> rfl

end

/-- Settles O5. -/
theorem registerWritesFollowTheirAccessCodes : Obligations.RegisterWritesFollowTheirAccessCodes := by
  intro t who die page v s s1 d p hr hs hk
  have hd : d < 100 := die.isLt
  have hp : p < 256 := page.isLt
  obtain ⟨b, hb⟩ := block_of_reachable hr
  have hheader (off : Nat) (ho : off < 0x040) (ha : off % 4 = 0) (hw : whoReaches s1 who (barOff d p off) = true) :
      exec (.registerWrite t who (barOff d p off) v) s = .next (writeHeader (traceRec s1 d 5 0) d p off v) := by
    refine congrArg Host.Outcome.next ?_
    rw [registerWrite_page hd hp (by omega) ha hw, writeReg_header hd hp ho hb hk, headerAccess_open off v hr hs]
  refine ⟨fun hw => ⟨_, hheader 0x014 (by omega) (by omega) hw, reg_setReg_same _ _ _ _ _, ?_⟩,
    fun off ho hw => ⟨_, hheader off (readOnly_aligned ho).1 (readOnly_aligned ho).2 hw, ?_⟩,
    fun off b hb ho ho' ha hrw hl hw => ⟨lockedWrite (traceRec s1 d 5 0) d p off, ?_, ?_, ?_⟩⟩
  · exact (regsOnly_traceRec _ s1 d 5 0).setReg d p 0x014 _ rfl
  · rw [writeHeader_readOnly ho]
    exact regsOnly_traceRec _ s1 d 5 0
  · exact congrArg Host.Outcome.next ((registerWrite_page hd hp ho' ha hw).trans (writeReg_locked hd hp ho ho' hb hk hr hs hrw hl))
  · exact recordError_taken (traceRec s1 d 5 0) (by omega) (by omega)
  · exact RegsOnly.of_traceRec (recordError_regsOnly _ _ _ _ _)

end

section

variable {s : State} {d p : Nat}

/-! ## Fields of a word -/

/-- A field written with its own value changes nothing. -/
theorem setFld_fld {w : Nat} (x : BitVec w) (lo n : Nat) : setFld x lo n (fld x lo n) = x := by
  refine BitVec.eq_of_getLsbD_eq fun i hi => ?_
  have h := tbit_setFld x lo n (fld x lo n) i hi
  rw [fld_testBit] at h
  simp only [tbit] at h
  rw [h]
  split
  · next hr =>
    have h1 : i - lo < n := by omega
    have h2 : lo + (i - lo) = i := by omega
    simp [h1, h2]
  · rfl

/-- Bit 0 of a word whose lowest bit was taken from another word. -/
theorem tbit_setFld_low (x v : Word) : tbit (setFld x 0 1 (fld v 0 1)) 0 = tbit v 0 := by
  rw [tbit_setFld x 0 1 _ 0 (by omega), if_pos (by omega), fld_testBit]
  simp

/-! ## Errors as seen from other states -/

/-- Whether a page took a code depends on its error registers alone. -/
theorem CodeTaken.congr {c : Nat} {s s' u u' : State} (h : CodeTaken d p c s u) (hs : ∀ k, errRegs d p k → getReg s' k = getReg s k)
    (hu : ∀ k, errRegs d p k → getReg u' k = getReg u k) : CodeTaken d p c s' u' := by
  have s1 : reg s' d p 0x010 = reg s d p 0x010 := hs _ (.inl rfl)
  have s2 : reg s' d p 0x020 = reg s d p 0x020 := hs _ (.inr (.inl rfl))
  have s3 : reg s' d p 0x024 = reg s d p 0x024 := hs _ (.inr (.inr rfl))
  have u1 : reg u' d p 0x010 = reg u d p 0x010 := hu _ (.inl rfl)
  have u2 : reg u' d p 0x020 = reg u d p 0x020 := hu _ (.inr (.inl rfl))
  have u3 : reg u' d p 0x024 = reg u d p 0x024 := hu _ (.inr (.inr rfl))
  have he : errHeld s' d p = errHeld s d p := by rw [errHeld, errHeld, s1, s2]
  rw [CodeTaken, u1, u2, u3, he, s2, s3]
  exact h

/-- A register at another offset of its page is none of the error record's. -/
theorem errRegs_ne {q k o : Nat} (h : errRegs d p k) (ho : o % 0x1000 ≠ 0x010 ∧ o % 0x1000 ≠ 0x020 ∧ o % 0x1000 ≠ 0x024) : k ≠ barOff d q o := by
  obtain ⟨h1, h2, h3⟩ := ho
  obtain rfl | rfl | rfl := h <;> refine ne_barOff ?_ <;> rw [barOff_mod] <;> omega

/-- An error with a free detail changes no register but those of the page's error record. -/
theorem getReg_recordErrorFree {c k : Nat} (h : ¬ errRegs d p k) : getReg (recordErrorFree s d p c) k = getReg s k :=
  (recordErrorFree_regsOnly s d p c).2 k h

/-- A later error leaves the captured code (R20). -/
theorem reg_recordErrorFree_later {c : Nat} (hc : c < 2 ^ 16) (h : errHeld s d p = true) :
    reg (recordErrorFree s d p c) d p 0x020 = reg s d p 0x020 := by
  have ht := (recordErrorFree_taken s (d := d) (p := p) hc).2
  rw [if_pos h] at ht
  exact ht.1

/-! ## POWER_REQ (R14) -/

/-- PAGE_CTRL does not lie in the error record. -/
theorem not_errRegs_ctrl : ¬ errRegs d p (barOff d p 0x008) := by simp only [errRegs, barOff]; omega

/-- A write of the value that POWER_REQ holds does nothing; another code that is not reserved is stored. -/
theorem writePowerReq_cases {q : Nat} (hq : q ≤ 3) : (q = powerReq s d p ∧ writePowerReq s d p q = s) ∨
    ∃ T, writePowerReq s d p q = setRegFld { s with trans := T } d p 0x008 4 4 q := by
  unfold writePowerReq
  rw [if_neg (by omega : ¬ q > 3)]
  extract_lets old k s1
  split
  · next h => exact .inl ⟨h, rfl⟩
  · refine .inr ?_
    by_cases h : (inTransition s d p && (mapFind s.trans k).isNone) = true
    · exact ⟨mapSet s.trans k old, by simp only [s1, if_pos h]⟩
    · exact ⟨s.trans, by simp only [s1, if_neg h]⟩

/-- A reserved code is refused (R14). -/
theorem writePowerReq_reserved {q : Nat} (hq : q > 3) : writePowerReq s d p q = recordErrorFree s d p 0x1002 := by
  rw [writePowerReq, if_pos hq]

/-- PAGE_CTRL after a write of POWER_REQ. -/
theorem reg_writePowerReq {q : Nat} (hq : q ≤ 3) : reg (writePowerReq s d p q) d p 0x008 = setFld (reg s d p 0x008) 4 4 q := by
  obtain ⟨h, he⟩ | ⟨T, he⟩ := writePowerReq_cases (s := s) (d := d) (p := p) hq
  · rw [he, h, powerReq, setFld_fld]
  · rw [he, reg_setRegFld_same]
    rfl

theorem getReg_writePowerReq {q k : Nat} (hq : q ≤ 3) (hk : k ≠ barOff d p 0x008) : getReg (writePowerReq s d p q) k = getReg s k := by
  obtain ⟨_, he⟩ | ⟨T, he⟩ := writePowerReq_cases (s := s) (d := d) (p := p) hq
  · rw [he]
  · rw [he, getReg_setRegFld_ne _ hk]
    rfl

/-- POWER_REQ reads as written. -/
theorem powerReq_writePowerReq {q : Nat} (hq : q ≤ 3) : powerReq (writePowerReq s d p q) d p = q := by
  rw [powerReq, reg_writePowerReq hq, fld_setFld_same _ _ _ _ (by omega), Nat.mod_eq_of_lt (by omega)]

/-- ENABLE reads as before. -/
theorem tbit_writePowerReq {q : Nat} (hq : q ≤ 3) : tbit (reg (writePowerReq s d p q) d p 0x008) 0 = tbit (reg s d p 0x008) 0 := by
  rw [reg_writePowerReq hq, tbit_setFld _ _ _ _ _ (by omega), if_neg (by omega)]

/-- A write of a register's field changes registers alone. -/
theorem setRegFld_only (o lo n v : Nat) : setRegFld s d p o lo n v = { s with regs := (setRegFld s d p o lo n v).regs } := rfl

/-- A stored POWER_REQ changes registers and running transitions alone. -/
theorem writePowerReq_only {q : Nat} (hq : q ≤ 3) : ∃ R T, writePowerReq s d p q = { s with regs := R, trans := T } := by
  obtain ⟨_, he⟩ | ⟨T, he⟩ := writePowerReq_cases (s := s) (d := d) (p := p) hq
  · exact ⟨s.regs, s.trans, he⟩
  · exact ⟨_, T, he.trans (setRegFld_only ..)⟩

theorem writePowerReq_sameMemory {q : Nat} (hq : q ≤ 3) : SameMemory s (writePowerReq s d p q) := by
  obtain ⟨R, T, he⟩ := writePowerReq_only (s := s) (d := d) (p := p) hq
  rw [he]
  exact .of_fields rfl rfl rfl

/-! ## The end of a power transition (R14) -/

theorem endTransition_idle (h : inTransition s d p = false) : endTransition s d p = s := by simp [endTransition, h]

/-- What the end of a running transition does: POWER_STATE takes the code requested when the transition began. -/
theorem endTransition_running (h : inTransition s d p = true) : endTransition s d p =
    setRegFld { s with trans := mapErase s.trans (pageKey d p) } d p 0x00C 4 4 (mapGet s.trans (pageKey d p) (powerReq s d p)) :=
  if_pos h

/-- A write of a register's field leaves every memory alone. -/
theorem sameMemory_setRegFld (o lo n v : Nat) : SameMemory s (setRegFld s d p o lo n v) :=
  .of_fields (setRegFld_t1 ..) (setRegFld_t2 ..) (setRegFld_cores ..)

/-- Power requests survive changes of other registers. -/
theorem powerReq_congr {u : State} (h : getReg u (barOff d p 0x008) = getReg s (barOff d p 0x008)) : powerReq u d p = powerReq s d p := by
  rw [powerReq, reg, h, powerReq, reg]

theorem powerState_congr {u : State} (h : getReg u (barOff d p 0x00C) = getReg s (barOff d p 0x00C)) : powerState u d p = powerState s d p := by
  rw [powerState, reg, h, powerState, reg]

end

section

variable {s : State} {d p : Nat}

/-! ## Event counters (R16, R17) -/

@[simp] theorem pageMark_putMark (m : PageMark) : pageMark (putMark s d p m) d p = m := mapGet_mapPut_same _ _ _ _

/-- Counters 0 and 1 of a page have marks of their own. -/
theorem cntMark_putCntMark_ne (m : PageMark) {i j : Nat} (hi : i < 2) (hj : j < 2) (h : j ≠ i) (c : CntMark) :
    cntMark (putCntMark m i c) j = cntMark m j := by
  obtain ⟨rfl, rfl⟩ | ⟨rfl, rfl⟩ : i = 0 ∧ j = 1 ∨ i = 1 ∧ j = 0 := by omega
  · rfl
  · rfl

/-- Bits past the end of a word read 0. -/
theorem tbit_ge {w : Nat} (x : BitVec w) {i : Nat} (h : w ≤ i) : tbit x i = false := BitVec.getLsbD_of_ge x i h

/-- Whether counter `i` of a page wrapped in the present cycle (R17). -/
def wrapsNow (s : State) (d p i : Nat) : Bool := decide ((cntMark (pageMark s d p) i).wrap = some (pageCycle s d p))

/-! ### A clear of one counter -/

/-- The cycle of a page's clock depends on the cores and the moment alone. -/
theorem pageCycle_congr {u : State} (hc : u.cores = s.cores) (hn : u.now = s.now) (hm : u.meshOff = s.meshOff) :
    pageCycle u d p = pageCycle s d p := by
  have h : core u = core s := funext fun c => by rw [core, hc, core]
  unfold pageCycle meshCyc
  rw [h, hn, hm]

theorem pageCycle_setReg (e q o d p : Nat) (v : Word) : pageCycle (setReg s e q o v) d p = pageCycle s d p :=
  pageCycle_congr (setReg_cores ..) (setReg_now ..) (setReg_meshOff ..)

theorem pageMark_setReg (e q o d p : Nat) (v : Word) : pageMark (setReg s e q o v) d p = pageMark s d p := by
  rw [pageMark, setReg_marks, pageMark]

section
variable {i : Nat}

theorem clearCounter_cnt : (clearCounter s d p i).cnt = mapErase s.cnt (pageKey d p * 2 + i) := by
  unfold clearCounter
  extract_lets m cyc k m1 s1
  split
  · rw [setReg_cnt, putMark_cnt]
  · rw [putMark_cnt]

theorem sameMemory_clearCounter : SameMemory s (clearCounter s d p i) := by
  unfold clearCounter
  extract_lets m cyc k m1 s1
  split
  · exact .of_fields (setReg_t1 ..) (setReg_t2 ..) (setReg_cores ..)
  · exact .of_fields rfl rfl rfl

/-- A clear changes no register but IRQ_STATUS. -/
theorem getReg_clearCounter {k : Nat} (h : k ≠ barOff d p 0x010) : getReg (clearCounter s d p i) k = getReg s k := by
  unfold clearCounter
  extract_lets
  split
  · rw [getReg_setReg, if_neg h]
    rfl
  · rfl

/-- In the cycle of a wrap the counter's overflow bit is taken back, and no other (R17). -/
theorem tbit_clearCounter (b : Nat) : tbit (reg (clearCounter s d p i) d p 0x010) b =
    (tbit (reg s d p 0x010) b && !(decide (b = i + 1) && wrapsNow s d p i)) := by
  by_cases hb : b < 32
  · unfold clearCounter
    extract_lets m cyc k m1 s1
    by_cases hw : k.wrap = some cyc
    · have hn : wrapsNow s d p i = true := decide_eq_true hw
      rw [if_pos hw, reg_setReg_same, hn]
      by_cases hbi : b = i + 1
      · subst hbi
        simp [tbit_setBit_same _ _ _ hb]
      · simp [tbit_setBit_ne _ _ hb hbi, hbi]
    · have hn : wrapsNow s d p i = false := decide_eq_false hw
      rw [if_neg hw, hn, Bool.and_false, Bool.not_false, Bool.and_true]
      rfl
  · simp [tbit_ge _ (by omega : 32 ≤ b)]

/-- A clear of one counter leaves the other's mark. -/
theorem wrapsNow_clearCounter {j : Nat} (hi : i < 2) (hj : j < 2) (h : j ≠ i) : wrapsNow (clearCounter s d p i) d p j = wrapsNow s d p j := by
  have hm : cntMark (pageMark (clearCounter s d p i) d p) j = cntMark (pageMark s d p) j := by
    unfold clearCounter
    extract_lets m cyc k m1 s1
    have h1 : cntMark m1 j = cntMark m j := cntMark_putCntMark_ne m hi hj h _
    split
    · rw [pageMark_setReg, pageMark_putMark]
      exact h1
    · rw [pageMark_putMark, h1]
  have hc : pageCycle (clearCounter s d p i) d p = pageCycle s d p := by
    unfold clearCounter
    extract_lets
    split
    · exact pageCycle_setReg ..
    · rfl
  rw [wrapsNow, hm, hc, wrapsNow]

end

/-! ### A write of CNT_CTRL -/

/-- A counter cleared where a write says so. -/
def clearWhere (c : Bool) (s : State) (d p i : Nat) : State := if c then clearCounter s d p i else s

section
variable {c : Bool} {i : Nat}

theorem cnt_clearWhere (k : Nat) : mapGet (clearWhere c s d p i).cnt k 0#64 =
    if c = true ∧ k = pageKey d p * 2 + i then 0#64 else mapGet s.cnt k 0#64 := by
  cases c
  · simp [clearWhere]
  · by_cases hk : k = pageKey d p * 2 + i
    · simp [clearWhere, clearCounter_cnt, hk]
    · simp [clearWhere, clearCounter_cnt, hk, mapGet_mapErase_ne _ hk]

theorem sameMemory_clearWhere : SameMemory s (clearWhere c s d p i) := by
  cases c
  · exact .of_fields rfl rfl rfl
  · exact sameMemory_clearCounter

theorem getReg_clearWhere {k : Nat} (h : k ≠ barOff d p 0x010) : getReg (clearWhere c s d p i) k = getReg s k := by
  cases c
  · rfl
  · exact getReg_clearCounter h

theorem tbit_clearWhere (b : Nat) : tbit (reg (clearWhere c s d p i) d p 0x010) b =
    (tbit (reg s d p 0x010) b && !(c && (decide (b = i + 1) && wrapsNow s d p i))) := by
  cases c
  · simp [clearWhere]
  · simp [clearWhere, tbit_clearCounter]

theorem wrapsNow_clearWhere {j : Nat} (hi : i < 2) (hj : j < 2) (h : j ≠ i) : wrapsNow (clearWhere c s d p i) d p j = wrapsNow s d p j := by
  cases c
  · rfl
  · exact wrapsNow_clearCounter hi hj h

end

/-- The state with CNT_CTRL's enables stored, before any counter is cleared: the old selection is kept for the rest of the cycle (R17). -/
def storeEnables (s : State) (d p : Nat) (v : Word) : State := setReg (markConfig s d p) d p 0x02C (v &&& 3#32)

theorem writeCntCtrl_eq (v : Word) : writeCntCtrl s d p v =
    clearWhere (tbit v 5) (clearWhere (tbit v 4) (storeEnables (settleCnt s d p) d p v) d p 0) d p 1 := rfl

/-- The selection kept for the rest of the cycle changes marks alone. -/
theorem markConfig_cases : ∃ m, (∀ i, cntMark m i = cntMark (pageMark s d p) i) ∧ (markConfig s d p = s ∨ markConfig s d p = putMark s d p m) := by
  unfold markConfig
  extract_lets m cyc
  refine ⟨{ m with cfgCyc := some cyc, sel := reg s d p 0x028, ctrl := reg s d p 0x02C }, fun i => rfl, ?_⟩
  split
  · exact .inl rfl
  · exact .inr rfl

theorem markConfig_cnt : (markConfig s d p).cnt = s.cnt := by
  obtain ⟨m, _, h | h⟩ := markConfig_cases (s := s) (d := d) (p := p) <;> rw [h]
  rfl

theorem sameMemory_markConfig : SameMemory s (markConfig s d p) := by
  obtain ⟨m, _, h | h⟩ := markConfig_cases (s := s) (d := d) (p := p) <;> rw [h] <;> exact .of_fields rfl rfl rfl

theorem getReg_markConfig (k : Nat) : getReg (markConfig s d p) k = getReg s k := by
  obtain ⟨m, _, h | h⟩ := markConfig_cases (s := s) (d := d) (p := p) <;> rw [h]
  rfl

theorem wrapsNow_markConfig (i : Nat) : wrapsNow (markConfig s d p) d p i = wrapsNow s d p i := by
  obtain ⟨m, hm, h | h⟩ := markConfig_cases (s := s) (d := d) (p := p)
  · rw [h]
  · rw [h, wrapsNow, pageMark_putMark, hm]
    rfl

theorem storeEnables_cnt (v : Word) : (storeEnables s d p v).cnt = s.cnt := by rw [storeEnables, setReg_cnt, markConfig_cnt]

theorem sameMemory_storeEnables (v : Word) : SameMemory s (storeEnables s d p v) :=
  sameMemory_markConfig.trans (.of_fields (setReg_t1 ..) (setReg_t2 ..) (setReg_cores ..))

theorem getReg_storeEnables (v : Word) (k : Nat) :
    getReg (storeEnables s d p v) k = if k = barOff d p 0x02C then v &&& 3#32 else getReg s k := by
  rw [storeEnables, getReg_setReg, getReg_markConfig]

theorem wrapsNow_storeEnables (v : Word) (i : Nat) : wrapsNow (storeEnables s d p v) d p i = wrapsNow s d p i := by
  rw [storeEnables, wrapsNow, pageMark_setReg, pageCycle_setReg]
  exact wrapsNow_markConfig i

/-- Everything a write of CNT_CTRL does to the counters of its page (R16, R17), as seen from the state `s2` in which the counters have taken the events of
earlier cycles. -/
theorem writeCntCtrl_spec (v : Word) :
    let s2 := settleCnt s d p
    let u := writeCntCtrl s d p v
    reg u d p 0x02C = v &&& 3#32 ∧
      (∀ n, n < 2 → mapGet u.cnt (pageKey d p * 2 + n) 0#64 = (if tbit v (4 + n) then 0#64 else mapGet s2.cnt (pageKey d p * 2 + n) 0#64) ∧
        tbit (reg u d p 0x010) (n + 1) = (tbit (reg s2 d p 0x010) (n + 1) && !(tbit v (4 + n) && wrapsNow s2 d p n))) ∧
      (∀ b, b ≠ 1 → b ≠ 2 → tbit (reg u d p 0x010) b = tbit (reg s2 d p 0x010) b) ∧
      SameRegsBut (fun k => k = barOff d p 0x02C ∨ k = barOff d p 0x010) s2 u ∧ SameMemory s2 u := by
  intro s2 u
  have hu : u = clearWhere (tbit v 5) (clearWhere (tbit v 4) (storeEnables s2 d p v) d p 0) d p 1 := writeCntCtrl_eq v
  have hne : barOff d p 0x02C ≠ barOff d p 0x010 := by simp [barOff]
  have hstatus : reg (storeEnables s2 d p v) d p 0x010 = reg s2 d p 0x010 := by
    rw [reg, getReg_storeEnables, if_neg hne.symm, reg]
  have hbit (b : Nat) : tbit (reg u d p 0x010) b = ((tbit (reg s2 d p 0x010) b && !(tbit v 4 && (decide (b = 1) && wrapsNow s2 d p 0))) &&
      !(tbit v 5 && (decide (b = 2) && wrapsNow s2 d p 1))) := by
    rw [hu, tbit_clearWhere, tbit_clearWhere, hstatus, wrapsNow_clearWhere (by omega) (by omega) (by omega),
      wrapsNow_storeEnables, wrapsNow_storeEnables]
  have hcnt (k : Nat) : mapGet u.cnt k 0#64 = if tbit v 5 = true ∧ k = pageKey d p * 2 + 1 then 0#64
      else if tbit v 4 = true ∧ k = pageKey d p * 2 + 0 then 0#64 else mapGet s2.cnt k 0#64 := by
    rw [hu, cnt_clearWhere, cnt_clearWhere, storeEnables_cnt]
  refine ⟨?_, fun n hn => ?_, fun b h1 h2 => ?_, fun k hk => ?_, ?_⟩
  · rw [hu, reg, getReg_clearWhere hne, getReg_clearWhere hne, getReg_storeEnables, if_pos rfl]
  · obtain rfl | rfl : n = 0 ∨ n = 1 := by omega
    · simp [hbit, hcnt]
    · simp [hbit, hcnt]
  · simp [hbit, h1, h2]
  · rw [hu, getReg_clearWhere (fun e => hk (.inr e)), getReg_clearWhere (fun e => hk (.inr e)), getReg_storeEnables,
      if_neg (fun e => hk (.inl e))]
  · rw [hu]
    exact ((sameMemory_storeEnables v).trans sameMemory_clearWhere).trans sameMemory_clearWhere

/-! ### Counting -/

/-- A counter that is enabled, selected and neither cleared nor set up anew in this cycle counts modulo 2^64, and a wrap sets its overflow bit (R16). -/
theorem countOne_counts {code n i : Nat} (hi : i < 2) (he : tbit (reg s d p 0x02C) i = true) (hc : fld (reg s d p 0x028) (8 * i) 8 = code)
    (hclr : (cntMark (pageMark s d p) i).clr ≠ some (pageCycle s d p)) (hcfg : (pageMark s d p).cfgCyc ≠ some (pageCycle s d p)) :
    mapGet (countOne s d p code n i).cnt (pageKey d p * 2 + i) 0#64 =
        BitVec.ofNat 64 ((mapGet s.cnt (pageKey d p * 2 + i) 0#64).toNat + n) ∧
      ((mapGet s.cnt (pageKey d p * 2 + i) 0#64).toNat + n ≥ 2 ^ 64 → tbit (reg (countOne s d p code n i) d p 0x010) (i + 1) = true) := by
  unfold countOne
  extract_lets m cyc k ctrl sel key old v pre wraps wrap s1
  have hctrl : ctrl = reg s d p 0x02C := if_neg hcfg
  have hsel : sel = reg s d p 0x028 := if_neg hcfg
  have hcond : (tbit ctrl i && decide (fld sel (8 * i) 8 = code) && decide (k.clr ≠ some cyc)) = true := by
    simp only [hctrl, hsel, he, hc, Bool.true_and, decide_true, decide_eq_true_eq]
    exact hclr
  rw [if_pos hcond]
  have hs1 : mapGet s1.cnt key 0#64 = BitVec.ofNat 64 v := mapGet_mapPut_same _ _ _ _
  by_cases hw : v ≥ 2 ^ 64
  · have hwr : wraps = true := decide_eq_true hw
    rw [if_pos hwr]
    exact ⟨hs1, fun _ => setIrq_sets _ _ _ _ (by omega)⟩
  · have hwr : ¬ wraps = true := by simpa [wraps] using hw
    rw [if_neg hwr]
    exact ⟨hs1, fun h => absurd h hw⟩

end

section

variable {s : State} {d p : Nat} {v : Word}

/-! ## PAGE_CTRL without a reset (R13 to R15) -/

/-- ENABLE and POWER_REQ of a write stored without a reset. -/
def storeCtrl (s : State) (d p : Nat) (v : Word) : State :=
  writePowerReq (setRegFld s d p 0x008 0 1 (fld v 0 1)) d p (fld v 4 4)

theorem writePageCtrl_unlocked (h : pageLocked s d p = false) :
    writePageCtrl s d p v = storeCtrl (if tbit v 1 then softResetPage s d p else s) d p v := by
  simp only [writePageCtrl, h, Bool.false_eq_true, if_false, storeCtrl]

/-- Whether a write of PAGE_CTRL would change more of a locked page than its POWER_REQ (R15). -/
def ctrlDiffers (s : State) (d p : Nat) (v : Word) : Bool := decide (fld v 0 1 ≠ fld (reg s d p 0x008) 0 1) || tbit v 1

theorem writePageCtrl_locked (h : pageLocked s d p = true) :
    writePageCtrl s d p v = writePowerReq (if ctrlDiffers s d p v then lockedWrite s d p 0x008 else s) d p (fld v 4 4) := by
  rw [writePageCtrl, if_pos h, ctrlDiffers]

/-- A stored PAGE_CTRL leaves every other register. -/
theorem getReg_storeCtrl (hq : fld v 4 4 ≤ 3) {k : Nat} (hk : k ≠ barOff d p 0x008) : getReg (storeCtrl s d p v) k = getReg s k := by
  rw [storeCtrl, getReg_writePowerReq hq hk, getReg_setRegFld_ne _ hk]

theorem powerReq_storeCtrl (hq : fld v 4 4 ≤ 3) : powerReq (storeCtrl s d p v) d p = fld v 4 4 := powerReq_writePowerReq hq

theorem enable_storeCtrl (hq : fld v 4 4 ≤ 3) : tbit (reg (storeCtrl s d p v) d p 0x008) 0 = tbit v 0 := by
  rw [storeCtrl, tbit_writePowerReq hq, reg_setRegFld_same, tbit_setFld_low]

theorem sameMemory_storeCtrl (hq : fld v 4 4 ≤ 3) : SameMemory s (storeCtrl s d p v) :=
  (sameMemory_setRegFld ..).trans (writePowerReq_sameMemory hq)

/-- A stored PAGE_CTRL changes registers and running transitions alone. -/
theorem storeCtrl_only (hq : fld v 4 4 ≤ 3) : ∃ R T, storeCtrl s d p v = { s with regs := R, trans := T } := by
  obtain ⟨R, T, h⟩ := writePowerReq_only (s := setRegFld s d p 0x008 0 1 (fld v 0 1)) (d := d) (p := p) hq
  exact ⟨R, T, by rw [storeCtrl, h, setRegFld_only]⟩

theorem storeCtrl_cnt (hq : fld v 4 4 ≤ 3) : (storeCtrl s d p v).cnt = s.cnt := by
  obtain ⟨R, T, h⟩ := storeCtrl_only (s := s) (d := d) (p := p) hq
  rw [h]

theorem storeCtrl_cores (hq : fld v 4 4 ≤ 3) : (storeCtrl s d p v).cores = s.cores := by
  obtain ⟨R, T, h⟩ := storeCtrl_only (s := s) (d := d) (p := p) hq
  rw [h]

theorem storeCtrl_routers (hq : fld v 4 4 ≤ 3) : (storeCtrl s d p v).routers = s.routers := by
  obtain ⟨R, T, h⟩ := storeCtrl_only (s := s) (d := d) (p := p) hq
  rw [h]

/-- PAGE_CTRL's ENABLE taken while a reserved POWER_REQ code is refused. -/
theorem storeCtrl_reserved (hq : fld v 4 4 > 3) :
    storeCtrl s d p v = recordErrorFree (setRegFld s d p 0x008 0 1 (fld v 0 1)) d p 0x1002 := writePowerReq_reserved hq

/-- The error registers do not change where ENABLE is stored. -/
theorem getReg_enable_errRegs {k x : Nat} (h : errRegs d p k) : getReg (setRegFld s d p 0x008 0 1 x) k = getReg s k :=
  getReg_setRegFld_ne s (errRegs_ne h (by decide)) 0 1 x

/-- With a reserved code ENABLE is taken, POWER_REQ kept and 0x1002 recorded (R14). -/
theorem storeCtrl_reserved_spec (hq : fld v 4 4 > 3) : CodeTaken d p 0x1002 s (storeCtrl s d p v) ∧
    powerReq (storeCtrl s d p v) d p = powerReq s d p ∧ tbit (reg (storeCtrl s d p v) d p 0x008) 0 = tbit v 0 ∧ SameMemory s (storeCtrl s d p v) := by
  have hctrl : reg (storeCtrl s d p v) d p 0x008 = setFld (reg s d p 0x008) 0 1 (fld v 0 1) := by
    rw [storeCtrl_reserved hq, reg, getReg_recordErrorFree not_errRegs_ctrl]
    exact reg_setRegFld_same ..
  refine ⟨?_, ?_, ?_, ?_⟩
  · rw [storeCtrl_reserved hq]
    exact (recordErrorFree_taken (setRegFld s d p 0x008 0 1 (fld v 0 1)) (by omega)).congr
      (fun k hk => (getReg_enable_errRegs hk).symm) (fun k _ => rfl)
  · rw [powerReq, hctrl, fld_setFld_apart _ _ _ _ _ _ (by omega) (by omega), powerReq]
  · rw [hctrl, tbit_setFld_low]
  · rw [storeCtrl_reserved hq]
    exact (sameMemory_setRegFld ..).trans (recordErrorFree_regsOnly ..).sameMemory

/-! ## PAGE_CTRL of a locked page (R15) -/

/-- A write that changes more than POWER_REQ records 0x1003 and still stores the request. -/
theorem locked_differs_spec (hq : fld v 4 4 ≤ 3) :
    let u := writePowerReq (lockedWrite s d p 0x008) d p (fld v 4 4)
    CodeTaken d p 0x1003 s u ∧ SameRegsBut (fun k => k = barOff d p 0x008 ∨ errRegs d p k) s u ∧ SameMemory s u := by
  have hl := recordError_regsOnly s d p 0x1003 0x008
  have ht : ErrorTaken d p 0x1003 0x008 s (lockedWrite s d p 0x008) := recordError_taken s (by omega) (by omega)
  refine ⟨ht.1.congr (fun _ _ => rfl) (fun k hk => getReg_writePowerReq hq (errRegs_ne hk (by decide))), fun k hk => ?_,
    hl.sameMemory.trans (writePowerReq_sameMemory hq)⟩
  rw [getReg_writePowerReq hq (fun e => hk (.inl e))]
  exact hl.2 k (fun e => hk (.inr e))

/-- Of the two errors of one write 0x1003 is the first (log entry 109). -/
theorem locked_differs_reserved_spec :
    let u := recordErrorFree (lockedWrite s d p 0x008) d p 0x1002
    (errHeld s d p = false → reg u d p 0x020 = 0x1003#32) ∧ RegsOnly (errRegs d p) s u := by
  refine ⟨fun h => ?_, ((recordError_regsOnly s d p 0x1003 0x008).draw _).recordError _ _⟩
  obtain ⟨herr, hcode, _⟩ := recordError_first s (d := d) (p := p) (c := 0x1003) (i := 0x008) (by omega) (by omega) h
  have hheld : errHeld (lockedWrite s d p 0x008) d p = true := by
    rw [errHeld, lockedWrite, herr, hcode]
    decide
  rw [reg_recordErrorFree_later (by omega) hheld]
  exact hcode

/-! ## PAGE_LOCK (R15) -/

/-- A write of 1 sets LOCK, and a write of 0 leaves it. -/
theorem writeHeader_lock : reg (writeHeader s d p 0x01C v) d p 0x01C = (if tbit v 0 then 1#32 else reg s d p 0x01C) ∧
    RegsOnly (fun k => k = barOff d p 0x01C) s (writeHeader s d p 0x01C v) := by
  have he : writeHeader s d p 0x01C v = if tbit v 0 then setReg s d p 0x01C 1#32 else s := rfl
  rw [he]
  split
  · exact ⟨reg_setReg_same .., (RegsOnly.refl s _).setReg d p 0x01C _ rfl⟩
  · exact ⟨rfl, RegsOnly.refl s _⟩

/-! ## Reads that latch a high half (R16, R172) -/

section
variable {o : Nat}

theorem readReg_unreachable (hp : p < 256) (ho : o < 4096) (hr : reachable s d p = false) : readReg s (barOff d p o) = (allOnes, s) := by
  simp only [readReg, barOff_die hp ho, barOff_page hp ho, hr]
  split
  · rfl
  · split <;> rfl

/-- A read of a page that can be reached is a read of its header or of its block. -/
theorem readReg_reachable (hd : d < 100) (hp : p < 256) (ho : o < 4096) (hr : reachable s d p = true) {b : Block} (hb : pageBlock d p = some b) :
    readReg s (barOff d p o) = if o < 0x040 then readHeader s d p o else readBlock s b d p o := by
  have hd' : ¬ d ≥ 100 := by omega
  simp only [readReg, barOff_die hp ho, barOff_page hp ho, barOff_mod, Nat.mod_eq_of_lt ho, if_neg hd', hb, hr, Bool.not_true,
    Bool.false_eq_true, if_false]

end

/-- A word of 32 bits takes a number modulo 2^32. -/
theorem w32_mod (n : Nat) : w32 (n % 2 ^ 32) = BitVec.ofNat 32 n := by
  refine BitVec.eq_of_toNat_eq ?_
  simp [w32]

/-- A read of a counter's low half returns it and latches the high half. -/
theorem readCntLo_spec (n : Nat) :
    let s2 := settleCnt s d p
    let c := (counter s2 d p n).toNat
    (readCntLo s d p n).1 = BitVec.ofNat 32 (c % 2 ^ 32) ∧
      mapGet (readCntLo s d p n).2.cntLatch (pageKey d p * 2 + n) 0#32 = BitVec.ofNat 32 (c / 2 ^ 32) := by
  intro s2 c
  refine ⟨rfl, ?_⟩
  have hl : fld (counter s2 d p n) 32 32 = c / 2 ^ 32 % 2 ^ 32 := by rw [fld, Nat.shiftRight_eq_div_pow]
  have hw : w32 (fld (counter s2 d p n) 32 32) = BitVec.ofNat 32 (c / 2 ^ 32) := by rw [hl, w32_mod]
  exact (mapGet_mapPut_same ..).trans hw

theorem readAcct_spec (n : Nat) :
    let c := mapGet (if n = 0 then (frsOf s 0).acctSteps else (frsOf s 0).acctSlots) (fld (reg s 0 1 0x0D0) 0 8) 0
    (readAcct s n).1 = BitVec.ofNat 32 c ∧ mapGet (frsOf (readAcct s n).2 0).acctLatch n 0#32 = BitVec.ofNat 32 (c / 2 ^ 32) := by
  intro c
  refine ⟨w32_mod c, ?_⟩
  have hf : frsOf (readAcct s n).2 0 = { frsOf s 0 with acctLatch := mapPut 0#32 (frsOf s 0).acctLatch n (w32 (c / 2 ^ 32 % 2 ^ 32)) } :=
    frsOf_putFrs_same ..
  rw [hf, mapGet_mapPut_same, w32_mod]

/-- A latched high half is the only register that changes. -/
theorem setReg_latch (q o : Nat) (x : Word) :
    SameRegsBut (fun k => k = barOff d q o) s (setReg s d q o x) ∧ SameMemory s (setReg s d q o x) :=
  ⟨fun k hk => by rw [getReg_setReg, if_neg hk], .of_fields (setReg_t1 ..) (setReg_t2 ..) (setReg_cores ..)⟩

end

section

/-! ## PAGE_CTRL of every page stays (R538)

A soft reset reaches far: the counters of the page take the events of earlier cycles, ports and crossbars are served, frames may stop. None of it writes a
PAGE_CTRL register. -/

/-- Every PAGE_CTRL register holds what it held. -/
structure CtrlKept (s u : State) : Prop where
  same : ∀ k, k % 0x1000 = 0x008 → getReg u k = getReg s k

theorem CtrlKept.refl (s : State) : CtrlKept s s := ⟨fun _ _ => rfl⟩

variable {s u : State}

/-! ### The shared operations -/

/-- What a register reads depends on the register file and the carrier alone. -/
theorem getReg_congr {w : State} {k : Nat} (hr : w.regs = u.regs) (hb : w.bench = u.bench) : getReg w k = getReg u k := by
  rw [getReg, hr, hb, getReg]

/-- A state with the registers of another keeps what that one keeps. -/
theorem CtrlKept.of_regs {w : State} (h : CtrlKept s u) (hr : w.regs = u.regs) (hb : w.bench = u.bench) : CtrlKept s w := ⟨fun k hk => by
  rw [getReg_congr hr hb, h.same k hk]⟩

theorem ctrlKept_setReg (h : CtrlKept s u) (d p : Nat) {o : Nat} (v : Word) (ho : o % 0x1000 ≠ 0x008) : CtrlKept s (setReg u d p o v) :=
  ⟨fun k hk => by rw [getReg_setReg, if_neg (ne_barOff (by omega)), h.same k hk]⟩

theorem ctrlKept_setRegFld (h : CtrlKept s u) (d p : Nat) {o : Nat} (lo n v : Nat) (ho : o % 0x1000 ≠ 0x008) :
    CtrlKept s (setRegFld u d p o lo n v) := ctrlKept_setReg h d p _ ho

theorem ctrlKept_setIrq (h : CtrlKept s u) (d p i : Nat) : CtrlKept s (setIrq u d p i) :=
  ⟨fun k hk => by rw [getReg_setIrq _ (ne_barOff (by omega)), h.same k hk]⟩

theorem ctrlKept_recordError (h : CtrlKept s u) (d p c i : Nat) : CtrlKept s (recordError u d p c i) := ⟨fun k hk => by
  have hk' : ¬ errRegs d p k := fun he => by
    obtain rfl | rfl | rfl := he <;> simp [barOff_mod] at hk
  rw [(recordError_regsOnly u d p c i).2 k hk', h.same k hk]⟩

theorem ctrlKept_count (h : CtrlKept s u) (d p c n : Nat) : CtrlKept s (count u d p c n) :=
  ⟨fun k hk => by rw [getReg_count _ (ne_barOff (by omega)), h.same k hk]⟩

/-- Counting events of earlier cycles changes the page's IRQ_STATUS at most, besides counters and marks (R16, R17). -/
theorem getReg_countPastOne {d p c n i k : Nat} (h : k ≠ barOff d p 0x010) : getReg (countPastOne s d p c n i) k = getReg s k := by
  unfold countPastOne
  extract_lets
  split
  · split
    · exact getReg_setIrq _ h
    · rfl
  · rfl

theorem getReg_countPast {d p c n k : Nat} (h : k ≠ barOff d p 0x010) : getReg (countPast s d p c n) k = getReg s k := by
  rw [countPast, getReg_countPastOne h, getReg_countPastOne h]

theorem ctrlKept_countPast (h : CtrlKept s u) (d p c n : Nat) : CtrlKept s (countPast u d p c n) :=
  ⟨fun k hk => by rw [getReg_countPast (ne_barOff (by omega)), h.same k hk]⟩

theorem ctrlKept_putCore (h : CtrlKept s u) (c : Nat) (x : CoreSt) : CtrlKept s (putCore u c x) :=
  ⟨fun k hk => by rw [getReg_putCore, h.same k hk]⟩

theorem ctrlKept_updCore (h : CtrlKept s u) (c : Nat) (f : CoreSt → CoreSt) : CtrlKept s (updCore u c f) := ctrlKept_putCore h c _

theorem ctrlKept_putRouter (h : CtrlKept s u) (d : Nat) (x : Router) : CtrlKept s (putRouter u d x) :=
  h.of_regs (putRouter_regs ..) (putRouter_bench ..)

theorem ctrlKept_putFrs (h : CtrlKept s u) (d : Nat) (x : Frs) : CtrlKept s (putFrs u d x) := h.of_regs (putFrs_regs ..) (putFrs_bench ..)

theorem ctrlKept_updFrs (h : CtrlKept s u) (d : Nat) (f : Frs → Frs) : CtrlKept s (updFrs u d f) := ctrlKept_putFrs h d _

theorem ctrlKept_putPort (h : CtrlKept s u) (p : Nat) (x : PortSt) : CtrlKept s (putPort u p x) :=
  h.of_regs (putPort_regs ..) (putPort_bench ..)

theorem ctrlKept_updPort (h : CtrlKept s u) (p : Nat) (f : PortSt → PortSt) : CtrlKept s (updPort u p f) := ctrlKept_putPort h p _

theorem ctrlKept_foldState {α : Type} {f : State → α → State} (hf : ∀ w x, CtrlKept s w → CtrlKept s (f w x)) (l : List α) (h : CtrlKept s u) :
    CtrlKept s (foldState f u l) := foldState_keeps hf l u h

/-- A map of which only the keys that satisfy a test are kept. -/
theorem mapGet_filter {α : Type} (m : Map α) (f : Nat → Bool) (k : Nat) (d : α) :
    mapGet (m.filter (fun r => f r.1)) k d = if f k then mapGet m k d else d := by
  induction m with
  | nil => simp
  | cons x r ih =>
    obtain ⟨a, w⟩ := x
    by_cases hk : a = k
    · subst hk
      cases hf : f a <;> simp [List.filter, hf, mapGet, ih]
    · cases hf : f a <;> simp [List.filter, hf, mapGet, ih, hk]

/-- The block-specific registers of a page return to their reset values, but for those that stay; all others hold what they held (R538). -/
theorem getReg_clearRegs (s : State) (d p k : Nat) (keep : Nat → Bool) : getReg (clearRegs s d p keep) k =
    if k < barOff d p 0x040 ∨ barOff d p 0x1000 ≤ k ∨ keep (k - barOff d p 0) = true then getReg s k else regReset s.bench k := by
  have h := mapGet_filter s.regs (fun a => decide (a < barOff d p 0x040) || decide (barOff d p 0x1000 ≤ a) || keep (a - barOff d p 0)) k
    (regReset s.bench k)
  simp only [Bool.or_eq_true, decide_eq_true_eq, or_assoc] at h
  exact h

theorem ctrlKept_clearRegs (h : CtrlKept s u) (d p : Nat) (keep : Nat → Bool) : CtrlKept s (clearRegs u d p keep) := ⟨fun k hk => by
  have hout : k < barOff d p 0x040 ∨ barOff d p 0x1000 ≤ k := by simp only [barOff]; omega
  rw [getReg_clearRegs, if_pos (or_assoc.mp (.inl hout)), h.same k hk]⟩

/-! ### Counters that take the events of earlier cycles -/

theorem ctrlKept_settleEmpty (h : CtrlKept s u) (d k : Nat) : CtrlKept s (settleEmpty u d k) := by
  unfold settleEmpty
  extract_lets
  refine ctrlKept_countPast ?_ ..
  exact ctrlKept_putRouter h ..

theorem ctrlKept_settleHeld (h : CtrlKept s u) (d c : Nat) : CtrlKept s (settleHeld u d c) := by
  unfold settleHeld
  extract_lets
  split
  · exact h
  · extract_lets
    split
    · refine ctrlKept_countPast ?_ ..
      exact ctrlKept_putFrs h ..
    · exact h

theorem ctrlKept_settleAccruals (h : CtrlKept s u) (d p cyc : Nat) : CtrlKept s (settleAccruals u d p cyc) := by
  unfold settleAccruals
  extract_lets
  exact (ctrlKept_foldState (fun w a hw => ctrlKept_countPast hw ..) _ h).of_regs rfl rfl

theorem ctrlKept_servePort (h : CtrlKept s u) (c : Nat) : CtrlKept s (servePort u c) := by
  unfold servePort
  extract_lets l x cyc r s1
  split
  · exact h
  · have h1 : CtrlKept s s1 := ctrlKept_foldState (fun w i hw => ctrlKept_updCore hw ..) _ (ctrlKept_updCore h ..)
    exact ctrlKept_foldState (fun w c hw => ctrlKept_countPast hw ..) _ h1

theorem ctrlKept_servePorts (h : CtrlKept s u) (c : Nat) : CtrlKept s (servePorts u c) :=
  ctrlKept_foldState (fun _ c hw => ctrlKept_servePort hw c) _ h

/-! ### Fabric ports -/

theorem ctrlKept_stopInj (h : CtrlKept s u) (p : Nat) : CtrlKept s (stopInj u p) := ctrlKept_setRegFld h _ _ _ _ _ (by decide)

theorem ctrlKept_affected (h : CtrlKept s u) (p : Nat) : CtrlKept s (affected u p) := by
  unfold affected lnkCount
  refine ctrlKept_count ?_ ..
  exact ctrlKept_setRegFld h _ _ _ _ _ (by decide)

theorem ctrlKept_applyMode (h : CtrlKept s u) (p mode cls : Nat) (f : LinkFlit) : CtrlKept s (applyMode u p mode cls f).2 := by
  unfold applyMode
  split
  · exact h
  · exact h
  · dsimp only
    exact ctrlKept_updPort h p _
  · dsimp only
    exact ctrlKept_updPort h p _
  · exact h

theorem ctrlKept_injectFlitOut (h : CtrlKept s u) (p mode cls : Nat) (f : LinkFlit) : CtrlKept s (injectFlitOut u p mode cls f) := by
  unfold injectFlitOut
  extract_lets c s0 rel s1 live x n r s2
  have h0 : CtrlKept s s0 := by
    unfold s0
    split
    · exact ctrlKept_stopInj h p
    · exact h
  have h1 : CtrlKept s s1 := ctrlKept_putPort h0 ..
  have h2 : CtrlKept s s2 :=
    ctrlKept_count (ctrlKept_updPort (ctrlKept_applyMode (ctrlKept_affected (ctrlKept_putPort h1 ..) _) ..) ..) ..
  split
  · split
    · exact ctrlKept_setIrq (ctrlKept_stopInj h2 p) ..
    · exact h2
  · exact ctrlKept_count (ctrlKept_putPort h1 ..) ..

theorem ctrlKept_emitFlit (h : CtrlKept s u) (p : Nat) (f : Nat × LinkFlit) : CtrlKept s (emitFlit u p f) := by
  unfold emitFlit
  extract_lets
  exact ctrlKept_updPort (ctrlKept_injectFlitOut h ..) p _

theorem ctrlKept_servePositions (fuel : Nat) (h : CtrlKept s u) (p o : Nat) (half : Bool) (runs : List LinkRun) (z : Nat) :
    CtrlKept s (servePositions fuel u p o half runs z) := by
  induction fuel generalizing u with
  | zero => exact h
  | succ k ih =>
    unfold servePositions
    extract_lets x
    split
    · exact h
    · split
      · exact h
      · extract_lets r tx s1
        have h1 : CtrlKept s s1 := ctrlKept_updPort h p _
        refine ih ?_
        split
        · exact ctrlKept_emitFlit h1 ..
        · exact h1

theorem ctrlKept_serveLink (h : CtrlKept s u) (p : Nat) : CtrlKept s (serveLink u p) := by
  unfold serveLink
  extract_lets x half o z from_ runs tx s0 s1 used empty s2
  have h0 : CtrlKept s s0 := ctrlKept_putPort h ..
  have h2 : CtrlKept s s2 := ctrlKept_updPort (ctrlKept_servePositions _ (ctrlKept_updPort h0 ..) ..) ..
  split
  · exact ctrlKept_updPort h0 ..
  · split
    · exact h2
    · exact ctrlKept_count h2 ..

theorem ctrlKept_settleCnt (h : CtrlKept s u) (d p : Nat) : CtrlKept s (settleCnt u d p) := by
  unfold settleCnt
  split
  · split
    · exact ctrlKept_settleEmpty h ..
    · exact h
  · split
    · exact ctrlKept_foldState (fun w c hw => ctrlKept_settleHeld hw ..) _ h
    · split
      · extract_lets c
        refine ctrlKept_settleAccruals ?_ ..
        split
        · exact ctrlKept_servePorts h c
        · exact h
      · split
        · extract_lets q
          split
          · exact ctrlKept_serveLink h q
          · exact h
        · exact h

/-! ### Frames that stop -/

theorem ctrlKept_writeFrameCtrl (h : CtrlKept s u) (d : Nat) (v : Word) : CtrlKept s (writeFrameCtrl u d v) := by
  unfold writeFrameCtrl
  extract_lets run lenSame s0 s1
  have h0 : CtrlKept s s0 := by
    unfold s0
    split
    · split
      · exact h
      · exact ctrlKept_recordError h ..
    · exact ctrlKept_setRegFld h _ _ _ _ _ (by decide)
  have hrun (x : Nat) : CtrlKept s (setRegFld s0 d 1 0x040 24 1 x) := ctrlKept_setRegFld h0 _ _ _ _ _ (by decide)
  split
  · split
    · exact h0
    · split
      · exact ctrlKept_updFrs (hrun 1) d _
      · split
        · exact ctrlKept_setRegFld (hrun 1) _ _ _ _ _ (by decide)
        · exact ctrlKept_recordError h ..
  · have h1 : CtrlKept s s1 := hrun 0
    split
    · exact ctrlKept_setRegFld h1 _ _ _ _ _ (by decide)
    · split
      · exact ctrlKept_updFrs h1 d _
      · exact h1

theorem ctrlKept_stopModule (h : CtrlKept s u) : CtrlKept s (stopModule u) := by
  refine ctrlKept_foldState (fun w d hw => ?_) _ h
  unfold runZero
  split
  · exact ctrlKept_writeFrameCtrl hw ..
  · exact hw

/-! ### What a soft reset resets -/

theorem ctrlKept_endMirror (h : CtrlKept s u) (c : Nat) : CtrlKept s (endMirror u c) := by
  unfold endMirror
  extract_lets src s1
  have h1 : CtrlKept s s1 := ctrlKept_updCore h ..
  exact ctrlKept_setRegFld (ctrlKept_setRegFld h1 _ _ _ _ _ (by decide)) _ _ _ _ _ (by decide)

theorem ctrlKept_resetCore (h : CtrlKept s u) (c : Nat) : CtrlKept s (resetCore u c) := by
  unfold resetCore
  extract_lets s1 s2
  have h2 : CtrlKept s s2 := ctrlKept_clearRegs (ctrlKept_endMirror h c) ..
  exact ctrlKept_updCore h2 c _

theorem ctrlKept_settle (h : CtrlKept s u) (c : Nat) : CtrlKept s (settle u c) := by
  unfold settle
  extract_lets x cyc s1
  have h1 : CtrlKept s s1 := by
    unfold s1
    split
    · exact h
    · exact ctrlKept_updCore (ctrlKept_updCore h ..) ..
  split
  · exact h1
  · exact ctrlKept_updCore h1 ..

theorem ctrlKept_resetSpm (h : CtrlKept s u) (c : Nat) : CtrlKept s (resetSpm u c) := by
  unfold resetSpm
  extract_lets s1
  have h1 : CtrlKept s s1 :=
    ctrlKept_foldState (fun w n hw => ctrlKept_setRegFld hw _ _ _ _ _ (by omega)) _ (ctrlKept_settle h c)
  exact ctrlKept_updCore (ctrlKept_setReg h1 _ _ _ (by decide)) ..

theorem ctrlKept_finishSoftWait (h : CtrlKept s u) (c q : Nat) : CtrlKept s (finishSoftWait u c q) := by
  unfold finishSoftWait
  extract_lets k s1
  have h1 : CtrlKept s s1 := h.of_regs rfl rfl
  split
  · split
    · exact ctrlKept_updCore h1 ..
    · exact h1
  · exact h

theorem ctrlKept_resetEngine (h : CtrlKept s u) (c q : Nat) : CtrlKept s (resetEngine u c q) := by
  unfold resetEngine
  refine ctrlKept_finishSoftWait ?_ ..
  exact h.of_regs rfl rfl

theorem ctrlKept_resetRouter (h : CtrlKept s u) (d : Nat) : CtrlKept s (resetRouter u d) := by
  unfold resetRouter updRouter
  exact ctrlKept_putRouter (ctrlKept_clearRegs h ..) ..

theorem ctrlKept_resetFrs (h : CtrlKept s u) (d : Nat) : CtrlKept s (resetFrs u d) := by
  unfold resetFrs
  exact ctrlKept_updFrs (ctrlKept_clearRegs h ..) d _

theorem ctrlKept_portLost (h : CtrlKept s u) (p : Nat) : CtrlKept s (portLost u p) := by
  unfold portLost
  extract_lets s1
  have h1 : CtrlKept s s1 := ctrlKept_setIrq (ctrlKept_updPort h ..) ..
  split
  · exact ctrlKept_stopModule h1
  · exact h1

theorem ctrlKept_resetPort (h : CtrlKept s u) (p : Nat) : CtrlKept s (resetPort u p) := by
  unfold resetPort
  extract_lets s1
  have h1 : CtrlKept s s1 := by
    unfold s1
    split
    · exact ctrlKept_portLost h p
    · exact h
  exact ctrlKept_putPort (ctrlKept_clearRegs h1 ..) ..

theorem ctrlKept_putHomeQ (h : CtrlKept s u) (d : Nat) (x : HomeQ) : CtrlKept s (putHomeQ u d x) := by
  unfold putHomeQ
  extract_lets old s1
  have h1 : CtrlKept s s1 := by
    unfold s1
    split
    · exact h
    · exact ctrlKept_count h ..
  exact h1.of_regs rfl rfl

theorem ctrlKept_dropWork (h : CtrlKept s u) (b : Block) (d : Nat) : CtrlKept s (dropWork u b d) := by
  cases b with
  | clk =>
    simp only [dropWork]
    split
    · refine CtrlKept.of_regs ?_ (updPower_regs ..) (updPower_bench ..)
      exact ctrlKept_foldState (fun w c hw => ctrlKept_updCore hw c _) _ h
    · exact ctrlKept_foldState (fun w c hw => ctrlKept_updCore hw c _) _ h
  | pwr => exact h.of_regs (updPower_regs ..) (updPower_bench ..)
  | bst => exact h.of_regs (putBst_regs ..) (putBst_bench ..)
  | trc => exact h.of_regs rfl rfl
  | mbc =>
    simp only [dropWork]
    refine ctrlKept_putHomeQ ?_ ..
    exact h.of_regs (putMbc_regs ..) (putMbc_bench ..)
  | hlk =>
    simp only [dropWork]
    split
    · refine ctrlKept_putHomeQ ?_ ..
      exact h.of_regs (putMover_regs ..) (putMover_bench ..)
    · exact h.of_regs (updLoader_regs ..) (updLoader_bench ..)
  | tcc =>
    simp only [dropWork]
    split
    · exact h.of_regs rfl rfl
    · exact h
  | req => exact h.of_regs (updTracker_regs ..) (updTracker_bench ..)
  | _ => exact h

/-- A soft reset of the header leaves its other registers. -/
theorem ctrlKept_clearHeader (h : CtrlKept s u) (d p : Nat) : CtrlKept s (clearHeader u d p) := by
  unfold clearHeader
  extract_lets s1 s2 k
  have h1 : CtrlKept s s1 := ctrlKept_setReg (ctrlKept_setReg (ctrlKept_setReg h _ _ _ (by decide)) _ _ _ (by decide)) _ _ _ (by decide)
  have h2 : CtrlKept s s2 := ctrlKept_setRegFld h1 _ _ _ _ _ (by decide)
  clear_value s2
  exact h2.of_regs rfl rfl

end

section

variable {s : State} {d p : Nat} {v : Word}

/-! ## SOFT_RESET of a header (R13, R14) -/

/-- The state with a header's registers cleared: IRQ_STATUS, ERR_CODE, ERR_INFO and FAULT. -/
def clearedRegs (s : State) (d p : Nat) : State :=
  setRegFld (setReg (setReg (setReg s d p 0x010 0#32) d p 0x020 0#32) d p 0x024 0#32) d p 0x00C 2 1 0

theorem clearHeader_regs : (clearHeader s d p).regs = (clearedRegs s d p).regs := by rw [clearHeader, clearedRegs]

theorem clearHeader_bench : (clearHeader s d p).bench = (clearedRegs s d p).bench := by rw [clearHeader, clearedRegs]

/-- The registers of a header after its soft reset, in the order of their writes: PAGE_STATUS last, with FAULT cleared. -/
theorem getReg_clearHeader (k : Nat) : getReg (clearHeader s d p) k =
    if k = barOff d p 0x00C then setFld (reg s d p 0x00C) 2 1 0
    else if k = barOff d p 0x024 then 0#32 else if k = barOff d p 0x020 then 0#32 else if k = barOff d p 0x010 then 0#32 else getReg s k := by
  have hne (o : Nat) (ho : 0x00C % 0x1000 ≠ o % 0x1000) : barOff d p 0x00C ≠ barOff d p o := ne_barOff (by rwa [barOff_mod])
  rw [getReg_congr clearHeader_regs clearHeader_bench, clearedRegs, setRegFld, reg_setReg_ne _ (hne _ (by decide)),
    reg_setReg_ne _ (hne _ (by decide)), reg_setReg_ne _ (hne _ (by decide)), getReg_setReg, getReg_setReg, getReg_setReg, getReg_setReg]

/-- The error record reads 0 (R14). -/
theorem getReg_clearHeader_error {k : Nat} (h : errRegs d p k) : getReg (clearHeader s d p) k = 0#32 := by
  rw [getReg_clearHeader, if_neg (errRegs_ne h (by decide))]
  rcases h with h | h | h <;> subst h <;> simp

/-- FAULT reads 0 (R13). -/
theorem fault_clearHeader : tbit (reg (clearHeader s d p) d p 0x00C) 2 = false := by
  rw [reg, getReg_clearHeader, if_pos rfl, tbit_setFld _ _ _ _ _ (by omega)]
  rfl

/-- The block's own registers are not the header's. -/
theorem reg_clearHeader_block {q o : Nat} (ho : 0x040 ≤ o % 0x1000) : reg (clearHeader s d p) d q o = reg s d q o := by
  have h (x : Nat) (hx : x % 0x1000 < 0x040) : barOff d q o ≠ barOff d p x := ne_barOff (by rw [barOff_mod]; omega)
  rw [reg, getReg_clearHeader, if_neg (h _ (by decide)), if_neg (h _ (by decide)), if_neg (h _ (by decide)), if_neg (h _ (by decide)), reg]

/-- Both counters read 0 (R14). -/
theorem cnt_clearHeader : mapGet (clearHeader s d p).cnt (pageKey d p * 2) 0#64 = 0#64 ∧
    mapGet (clearHeader s d p).cnt (pageKey d p * 2 + 1) 0#64 = 0#64 := by
  have h : (clearHeader s d p).cnt = mapErase (mapErase s.cnt (pageKey d p * 2)) (pageKey d p * 2 + 1) := by
    simp only [clearHeader, setRegFld_cnt, setReg_cnt]
  rw [h]
  exact ⟨by rw [mapGet_mapErase_ne _ (by omega), mapGet_mapErase_same], mapGet_mapErase_same ..⟩

theorem clearHeader_cores : (clearHeader s d p).cores = s.cores := by simp only [clearHeader, setRegFld_cores, setReg_cores]

theorem clearHeader_routers : (clearHeader s d p).routers = s.routers := by simp only [clearHeader, setRegFld_routers, setReg_routers]

theorem sameMemory_clearHeader : SameMemory s (clearHeader s d p) :=
  .of_fields (by simp only [clearHeader, setRegFld_t1, setReg_t1]) (by simp only [clearHeader, setRegFld_t2, setReg_t2]) clearHeader_cores

/-! ## SOFT_RESET of a page (R538) -/

/-- A soft reset ends with that of the header, whatever block the page has, and leaves every PAGE_CTRL. -/
theorem softResetPage_cases (s : State) (d p : Nat) : ∃ w, softResetPage s d p = clearHeader w d p ∧ CtrlKept s w := by
  unfold softResetPage
  extract_lets s0 c q s1
  refine ⟨s1, rfl, ?_⟩
  have h0 : CtrlKept s s0 := ctrlKept_settleCnt (.refl s) d p
  unfold s1
  split
  · exact h0
  · split
    · exact ctrlKept_resetCore h0 c
    · exact ctrlKept_resetSpm h0 c
    · exact ctrlKept_resetEngine h0 c 0
    · exact ctrlKept_resetEngine h0 c 1
    · exact ctrlKept_updCore (ctrlKept_setReg h0 _ _ _ (by decide)) c _
    · exact ctrlKept_resetRouter h0 d
    · exact ctrlKept_resetFrs h0 d
    · exact ctrlKept_resetPort h0 q
    · exact ctrlKept_dropWork (ctrlKept_clearRegs h0 d p _) _ d

/-- A soft reset keeps POWER_REQ (R14). -/
theorem powerReq_softResetPage : powerReq (softResetPage s d p) d p = powerReq s d p := by
  obtain ⟨w, he, hw⟩ := softResetPage_cases s d p
  rw [he]
  exact powerReq_congr ((ctrlKept_clearHeader hw d p).same _ (by rw [barOff_mod]))

/-- After a soft reset no error is held. -/
theorem errHeld_softResetPage : errHeld (softResetPage s d p) d p = false := by
  obtain ⟨w, he, _⟩ := softResetPage_cases s d p
  rw [he, errHeld, reg, getReg_clearHeader_error (.inl rfl)]
  rfl

/-! ### The write of PAGE_CTRL that resets -/

/-- With a reserved POWER_REQ code the error that the write records is captured after the reset (R538). -/
theorem storeCtrl_softReset_reserved (hq : fld v 4 4 > 3) :
    let u := storeCtrl (softResetPage s d p) d p v
    reg u d p 0x020 = 0x1002#32 ∧ powerReq u d p = powerReq s d p ∧ tbit (reg u d p 0x008) 0 = tbit v 0 := by
  obtain ⟨hcode, hreq, hen, _⟩ := storeCtrl_reserved_spec (s := softResetPage s d p) (d := d) (p := p) hq
  refine ⟨?_, hreq.trans powerReq_softResetPage, hen⟩
  simpa [CodeTaken, errHeld_softResetPage] using hcode.2

/-- The header after a soft reset with the rest of the write applied (R13, R14, R538). -/
theorem storeCtrl_softReset_header (hq : fld v 4 4 ≤ 3) :
    let u := storeCtrl (softResetPage s d p) d p v
    (∀ k, errRegs d p k → getReg u k = 0#32) ∧ tbit (reg u d p 0x00C) 2 = false ∧
      mapGet u.cnt (pageKey d p * 2) 0#64 = 0#64 ∧ mapGet u.cnt (pageKey d p * 2 + 1) 0#64 = 0#64 ∧
      tbit (reg u d p 0x008) 0 = tbit v 0 ∧ powerReq u d p = fld v 4 4 := by
  obtain ⟨w, he, _⟩ := softResetPage_cases s d p
  have hcnt : (storeCtrl (softResetPage s d p) d p v).cnt = (clearHeader w d p).cnt := by rw [storeCtrl_cnt hq, he]
  refine ⟨fun k hk => ?_, ?_, ?_, ?_, enable_storeCtrl hq, powerReq_storeCtrl hq⟩
  · rw [getReg_storeCtrl hq (errRegs_ne hk (by decide)), he, getReg_clearHeader_error hk]
  · rw [reg, getReg_storeCtrl hq (by simp [barOff]), he]
    exact fault_clearHeader
  · rw [hcnt, cnt_clearHeader.1]
  · rw [hcnt, cnt_clearHeader.2]

/-! ### DMR pages -/

/-- The counters of a DMR page take their events without any block register changing. -/
theorem getReg_settleCnt_dmr {k : Nat} (hk : k % 0x1000 ≠ 0x010) : getReg (settleCnt s d 0) k = getReg s k := by
  have he : settleCnt s d 0 = if frsRunning s (frsDieOf d) then settleEmpty s d (plannedIndex (frameCyc s d)) else s := rfl
  rw [he]
  split
  · unfold settleEmpty
    extract_lets
    rw [getReg_countPast (ne_barOff hk)]
    rfl
  · rfl

theorem softResetPage_dmr : softResetPage s d 0 = clearHeader (resetRouter (settleCnt s d 0) d) d 0 := rfl

/-- Every schedule and protection bank is empty. -/
theorem router_resetRouter : (router (resetRouter s d) d).bankA.runs = [] ∧ (router (resetRouter s d) d).bankB.runs = [] ∧
    (router (resetRouter s d) d).protA.entries = [] ∧ (router (resetRouter s d) d).protB.entries = [] := by
  rw [resetRouter, updRouter, router_putRouter_same]
  exact ⟨rfl, rfl, rfl, rfl⟩

theorem getReg_resetRouter (k : Nat) : getReg (resetRouter s d) k = getReg (clearRegs s d 0 (fun o => decide (o = 0x044))) k := rfl

/-- ROUTER_CTRL returns to 0 (R538). -/
theorem routerCtrl_resetRouter : reg (resetRouter s d) d 0 0x040 = 0#32 := by
  have hend : ¬ barOff d 0 0x1000 ≤ barOff d 0 0x040 := by simp only [barOff]; omega
  have hoff : barOff d 0 0x040 - barOff d 0 0 ≠ 0x044 := by simp only [barOff]; omega
  rw [reg, getReg_resetRouter, getReg_clearRegs, if_neg (by simp [hend, hoff]), regReset_barOff (b := .dmr) _ (by omega) (by omega) rfl, if_neg (by omega)]
  rfl

/-- ROUTER_STATUS is kept (R538). -/
theorem routerStatus_resetRouter : reg (resetRouter s d) d 0 0x044 = reg s d 0 0x044 := by
  have hc : barOff d 0 0x044 - barOff d 0 0 = 0x044 := by simp only [barOff]; omega
  rw [reg, getReg_resetRouter, getReg_clearRegs, if_pos (by simp [hc]), reg]

/-- A soft reset of a DMR page with the rest of the write applied. -/
theorem storeCtrl_softReset_dmr (hq : fld v 4 4 ≤ 3) :
    let u := storeCtrl (softResetPage s d 0) d 0 v
    (router u d).bankA.runs = [] ∧ (router u d).bankB.runs = [] ∧ (router u d).protA.entries = [] ∧ (router u d).protB.entries = [] ∧
      reg u d 0 0x040 = 0#32 ∧ reg u d 0 0x044 = reg s d 0 0x044 := by
  intro u
  have hreg (o : Nat) (ho : 0x040 ≤ o % 0x1000) : reg u d 0 o = reg (resetRouter (settleCnt s d 0) d) d 0 o := by
    rw [reg, getReg_storeCtrl hq (ne_barOff (by rw [barOff_mod]; omega)), softResetPage_dmr]
    exact reg_clearHeader_block ho
  have hrouters : u.routers = (resetRouter (settleCnt s d 0) d).routers :=
    (storeCtrl_routers hq).trans (by rw [softResetPage_dmr, clearHeader_routers])
  have hrouter : router u d = router (resetRouter (settleCnt s d 0) d) d := by rw [router, hrouters, router]
  obtain ⟨ha, hb, hpa, hpb⟩ := router_resetRouter (s := settleCnt s d 0) (d := d)
  rw [hrouter, hreg _ (by decide), hreg _ (by decide), routerCtrl_resetRouter, routerStatus_resetRouter]
  exact ⟨ha, hb, hpa, hpb, rfl, getReg_settleCnt_dmr (by rw [barOff_mod]; decide)⟩

/-! ### MVE pages -/

/-- A core replaced by one with the same scratchpad: nothing is mirrored and nothing noted (R47, R452). -/
theorem putCore_sameSpm {c : Nat} {x : CoreSt} (h : (core s c).spm = x.spm) (hp : (core s c).poison = x.poison) :
    putCore s c x = { s with cores := mapPut CoreSt.reset s.cores c x } := by
  unfold putCore
  rw [noteWrite_same _ h hp]
  extract_lets s1
  split
  · rfl
  · exact if_pos (.inr ⟨h, hp⟩)

/-- Such a core reads back, and every memory stays. -/
theorem core_putCore_sameSpm {c : Nat} {x : CoreSt} (h : (core s c).spm = x.spm) (hp : (core s c).poison = x.poison) :
    core (putCore s c x) c = x ∧ SameMemory s (putCore s c x) := by
  rw [putCore_sameSpm h hp]
  refine ⟨mapGet_mapPut_same .., fun a => rfl, fun a => rfl, fun e a => ?_⟩
  by_cases he : e = c
  · subst he
    have hx : core { s with cores := mapPut CoreSt.reset s.cores e x } e = x := mapGet_mapPut_same ..
    rw [spmByteAt, hx, ← h, spmByteAt]
  · have hx : core { s with cores := mapPut CoreSt.reset s.cores c x } e = core s e := mapGet_mapPut_ne _ he _ _ _
    rw [spmByteAt, hx, spmByteAt]

/-- The state that a soft reset of an MVE page leaves, before its header is reset. -/
def resetMve (s : State) (d p : Nat) : State :=
  updCore (setReg s d p 0x04C 0#32) (pageCore d p) (fun x => { x with mveHigh := 0 })

theorem softResetPage_mve (hb : pageBlock d p = some .mve) : softResetPage s d p = clearHeader (resetMve (settleCnt s d p) d p) d p := by
  simp only [softResetPage, hb, resetMve, pageCore]

theorem resetMve_spec : (core (resetMve s d p) (pageCore d p)).mveHigh = 0 ∧ reg (resetMve s d p) d p 0x04C = 0#32 ∧ SameMemory s (resetMve s d p) := by
  have hcore := core_putCore_sameSpm (s := setReg s d p 0x04C 0#32) (c := pageCore d p)
    (x := { core (setReg s d p 0x04C 0#32) (pageCore d p) with mveHigh := 0 }) rfl rfl
  refine ⟨?_, ?_, (setReg_latch p 0x04C 0#32).2.trans hcore.2⟩
  · rw [resetMve, updCore, hcore.1]
  · rw [resetMve, updCore, reg, getReg_putCore]
    exact reg_setReg_same ..

/-- A soft reset of an MVE page with the rest of the write applied. -/
theorem storeCtrl_softReset_mve (hb : pageBlock d p = some .mve) (hq : fld v 4 4 ≤ 3) :
    let u := storeCtrl (softResetPage s d p) d p v
    (core u (pageCore d p)).mveHigh = 0 ∧ reg u d p 0x04C = 0#32 ∧ SameMemory (settleCnt s d p) u := by
  intro u
  obtain ⟨hhigh, hlast, hmem⟩ := resetMve_spec (s := settleCnt s d p) (d := d) (p := p)
  have hcores : u.cores = (resetMve (settleCnt s d p) d p).cores :=
    (storeCtrl_cores hq).trans (by rw [softResetPage_mve hb, clearHeader_cores])
  have hcore : core u (pageCore d p) = core (resetMve (settleCnt s d p) d p) (pageCore d p) := by rw [core, hcores, core]
  have hreg : reg u d p 0x04C = reg (resetMve (settleCnt s d p) d p) d p 0x04C := by
    rw [reg, getReg_storeCtrl hq (ne_barOff (by rw [barOff_mod]; decide)), softResetPage_mve hb]
    exact reg_clearHeader_block (by decide)
  have hsame : SameMemory (softResetPage s d p) u := sameMemory_storeCtrl hq
  rw [softResetPage_mve hb] at hsame
  exact ⟨by rw [hcore, hhigh], by rw [hreg, hlast], (hmem.trans sameMemory_clearHeader).trans hsame⟩

/-- A write of PAGE_CTRL that reaches an unlocked page: the reset first, then the rest of the write (R538). -/
theorem headerAccess_ctrl_unlocked (hr : reachable s d p = true) (hs : sealedPage d p = false) (hl : pageLocked s d p = false) :
    headerAccess s d p 0x008 v =
      storeCtrl (if tbit v 1 then softResetPage (traceRec s d 5 0) d p else traceRec s d 5 0) d p v :=
  (headerAccess_open 0x008 v hr hs).trans (writePageCtrl_unlocked (s := traceRec s d 5 0) hl)

/-- Settles O7. -/
theorem softResetClearsThePageHeader : Obligations.SoftResetClearsThePageHeader := by
  intro t die page v s s1 d p hr hs hl hv hq
  have hw : exec (.softReset t die page v) s = .next (storeCtrl (softResetPage (traceRec s1 d 5 0) d p) d p v) := by
    refine congrArg Host.Outcome.next ?_
    rw [headerAccess_ctrl_unlocked hr hs hl, if_pos hv]
  obtain ⟨herr, hfault, hc0, hc1, hen, hreq⟩ := storeCtrl_softReset_header (s := traceRec s1 d 5 0) (d := d) (p := p) hq
  refine ⟨_, hw, herr _ (.inl rfl), herr _ (.inr (.inl rfl)), herr _ (.inr (.inr rfl)), hfault, hc0, hc1, hen, hreq, fun hp => ?_, fun hb => ?_⟩
  · rw [hp]
    exact storeCtrl_softReset_dmr (s := traceRec s1 d 5 0) hq
  · exact storeCtrl_softReset_mve (s := traceRec s1 d 5 0) hb hq

end

section

variable {s : State} {d p : Nat} {v : Word}

/-! ## The header's control registers as commands (R13 to R17) -/

/-- A write of PAGE_CTRL that reaches a locked page (R15). -/
theorem headerAccess_ctrl_locked (hr : reachable s d p = true) (hs : sealedPage d p = false) (hl : pageLocked s d p = true) :
    headerAccess s d p 0x008 v = writePowerReq
      (if ctrlDiffers s d p v then lockedWrite (traceRec s d 5 0) d p 0x008 else traceRec s d 5 0) d p (fld v 4 4) :=
  (headerAccess_open 0x008 v hr hs).trans (writePageCtrl_locked (s := traceRec s d 5 0) hl)

/-- A write that a sealed page turns away records 0x8054 on the Heartwood page (R537). -/
theorem turnedAway_sealed {off : Nat} (ho : off < 0x1000) (hr : reachable s d p = true) (hs : sealedPage d p = true) :
    TurnedAway 9 8 0x8054 s (headerAccess s d p off v) := by
  have hp := page_le_of_sealed hs
  rw [headerAccess_sealed off v hr hs]
  exact ⟨(recordError_taken s (by omega) (by omega)).1, recordError_regsOnly ..⟩

/-- POWER_REQ_WRITE, PAGE_LOCK and CNT_CLR are header accesses. -/
theorem exec_control {t : Time} {die : Die} {page : Fin 256} {i : Instr}
    (hi : i ∈ [Instr.powerReqWrite t die page v, .pageLock t die page v, .cntClr t die page v]) :
    ∃ off < 0x1000, exec i s = .next (headerAccess (advance s t) die.val page.val off v) := by
  simp only [List.mem_cons, List.not_mem_nil, or_false] at hi
  obtain rfl | rfl | rfl := hi
  · exact ⟨0x008, by omega, rfl⟩
  · exact ⟨0x01C, by omega, rfl⟩
  · exact ⟨0x02C, by omega, rfl⟩

/-- What a write of PAGE_CTRL does at a page that is reachable and not sealed, by the page's lock, the reset and the POWER_REQ code (R13 to R15, R538). -/
theorem headerAccess_ctrl_spec (hr : reachable s d p = true) (hs : sealedPage d p = false) :
    let u := headerAccess s d p 0x008 v
    (pageLocked s d p = false → tbit v 1 = false → fld v 4 4 ≤ 3 →
      powerReq u d p = fld v 4 4 ∧ tbit (reg u d p 0x008) 0 = tbit v 0 ∧ powerState u d p = powerState s d p ∧
        SameRegsBut (fun k => k = barOff d p 0x008) s u ∧ SameMemory s u) ∧
    (pageLocked s d p = false → tbit v 1 = false → fld v 4 4 > 3 →
      CodeTaken d p 0x1002 s u ∧ powerReq u d p = powerReq s d p ∧ tbit (reg u d p 0x008) 0 = tbit v 0 ∧ SameMemory s u) ∧
    (pageLocked s d p = false → tbit v 1 = true → fld v 4 4 > 3 →
      reg u d p 0x020 = 0x1002#32 ∧ powerReq u d p = powerReq s d p ∧ tbit (reg u d p 0x008) 0 = tbit v 0) ∧
    (pageLocked s d p = true → ctrlDiffers s d p v = false → fld v 4 4 ≤ 3 →
      powerReq u d p = fld v 4 4 ∧ powerState u d p = powerState s d p ∧
        SameRegsBut (fun k => k = barOff d p 0x008) s u ∧ SameMemory s u) ∧
    (pageLocked s d p = true → ctrlDiffers s d p v = false → fld v 4 4 > 3 → TurnedAway d p 0x1002 s u) ∧
    (pageLocked s d p = true → ctrlDiffers s d p v = true → fld v 4 4 ≤ 3 →
      CodeTaken d p 0x1003 s u ∧ powerReq u d p = fld v 4 4 ∧
        SameRegsBut (fun k => k = barOff d p 0x008 ∨ errRegs d p k) s u ∧ SameMemory s u) ∧
    (pageLocked s d p = true → ctrlDiffers s d p v = true → fld v 4 4 > 3 →
      (errHeld s d p = false → reg u d p 0x020 = 0x1003#32) ∧ RegsOnly (errRegs d p) s u) := by
  intro u
  have hstatus : barOff d p 0x00C ≠ barOff d p 0x008 := by simp [barOff]
  have hmem : SameMemory s (traceRec s d 5 0) := .of_fields rfl rfl rfl
  have hopen (hl : pageLocked s d p = false) : u = storeCtrl _ d p v := headerAccess_ctrl_unlocked hr hs hl
  have hshut (hl : pageLocked s d p = true) : u = writePowerReq _ d p (fld v 4 4) := headerAccess_ctrl_locked hr hs hl
  refine ⟨fun hl hv hq => ?_, fun hl hv hq => ?_, fun hl hv hq => ?_, fun hl hd hq => ?_, fun hl hd hq => ?_, fun hl hd hq => ?_, fun hl hd hq => ?_⟩
  · rw [hopen hl, if_neg (by simp [hv])]
    exact ⟨powerReq_storeCtrl hq, enable_storeCtrl hq, powerState_congr (getReg_storeCtrl hq hstatus),
      fun k hk => getReg_storeCtrl hq hk, hmem.trans (sameMemory_storeCtrl hq)⟩
  · rw [hopen hl, if_neg (by simp [hv])]
    obtain ⟨hcode, hreq, hen, hsame⟩ := storeCtrl_reserved_spec (s := traceRec s d 5 0) (d := d) (p := p) hq
    exact ⟨hcode, hreq, hen, hmem.trans hsame⟩
  · rw [hopen hl, if_pos hv]
    exact storeCtrl_softReset_reserved (s := traceRec s d 5 0) hq
  · rw [hshut hl, if_neg (by simp [hd])]
    exact ⟨powerReq_writePowerReq hq, powerState_congr (getReg_writePowerReq hq hstatus), fun k hk => getReg_writePowerReq hq hk,
      hmem.trans (writePowerReq_sameMemory hq)⟩
  · rw [hshut hl, if_neg (by simp [hd]), writePowerReq_reserved hq]
    exact (turnedAway_recordErrorFree (traceRec s d 5 0) (by omega)).of_traceRec
  · rw [hshut hl, if_pos hd]
    obtain ⟨hcode, hregs, hsame⟩ := locked_differs_spec (s := traceRec s d 5 0) (d := d) (p := p) hq
    exact ⟨hcode, powerReq_writePowerReq hq, hregs, hmem.trans hsame⟩
  · rw [hshut hl, if_pos hd, writePowerReq_reserved hq]
    obtain ⟨hcode, hregs⟩ := locked_differs_reserved_spec (s := traceRec s d 5 0) (d := d) (p := p)
    exact ⟨hcode, hregs.of_traceRec⟩

/-- What POWER_TRANSITION_COMPLETE does at a page in transition (R14). -/
theorem endTransition_spec (h : inTransition s d p = true) :
    let u := endTransition s d p
    powerState u d p = mapGet s.trans (pageKey d p) (powerReq s d p) % 16 ∧ powerReq u d p = powerReq s d p ∧
      SameRegsBut (fun k => k = barOff d p 0x00C) s u ∧ SameMemory s u := by
  intro u
  have hu : u = setRegFld { s with trans := mapErase s.trans (pageKey d p) } d p 0x00C 4 4 (mapGet s.trans (pageKey d p) (powerReq s d p)) :=
    endTransition_running h
  have hsame : SameRegsBut (fun k => k = barOff d p 0x00C) s u := fun k hk => by
    rw [hu, getReg_setRegFld_ne _ hk]
    rfl
  refine ⟨?_, powerReq_congr (hsame _ (by simp [barOff])), hsame, ?_⟩
  · rw [hu]
    exact fld_setRegFld _ _ _ _ _ _ _ (by omega)
  · rw [hu]
    have h1 : SameMemory s { s with trans := mapErase s.trans (pageKey d p) } := .of_fields rfl rfl rfl
    exact h1.trans (sameMemory_setRegFld ..)

/-! ## Reads of 64-bit registers as commands (R16, R172, R367, R418) -/

/-- LO_READ_LATCH at an aligned offset shows what the read of that register returns. -/
theorem exec_loReadLatch_aligned {t : Time} {die : Die} {page : Fin 256} {off : Fin 4096} {o : Nat} (ho : off.val = o) (ha : o % 4 = 0)
    {lo : Word} {w : State} (hr : readReg (advance s t) (barOff die.val page.val o) = (lo, w)) :
    exec (.loReadLatch t die page off) s = .next { w with lastRead := lo } := by
  have hal : off.val / 4 * 4 = o := by omega
  rw [exec_loReadLatch, hal, hr]

theorem readHeader_cntLo {n : Nat} (hn : n < 2) : readHeader s d p (0x030 + 8 * n) = readCntLo s d p n := by
  obtain rfl | rfl : n = 0 ∨ n = 1 := by omega
  · rfl
  · rfl

theorem readBlock_acct {n : Nat} (hn : n < 2) : readBlock s .frs 0 p (0x0D4 + 8 * n) = readAcct s n := by
  obtain rfl | rfl : n = 0 ∨ n = 1 := by omega
  · simp [readBlock, readFrsPage, readFrs0]
  · simp [readBlock, readFrsPage, readFrs0]

theorem readBlock_logSeq : readBlock s .tcc d p 0x0B0 =
    (reg s d 8 0x0B0, setReg s d 8 0x0B4 (w32 ((nth s.host.logN (dieOrd d) 0 - 1) / 2 ^ 32 % 2 ^ 32))) := by
  simp [readBlock, readTccPage]

theorem readBlock_energy : readBlock s .pwr d p 0x0B0 =
    (w32 (s.power.energy / 100 % 2 ^ 32), setReg s 90 9 0x0B4 (w32 (s.power.energy / 100 / 2 ^ 32 % 2 ^ 32))) := by
  simp [readBlock, readPwrPage]

/-- The domain estimates of the power page are free values, drawn low half first (R418, log entry 9). -/
theorem readBlock_domain {n : Nat} (hn : n < 6) : readBlock s .pwr d p (0x0C0 + 8 * n) =
    (Config.freeWord 418 (0x0C0 + 8 * n) s.fresh,
      setReg { s with fresh := s.fresh + 1 + 1 } 90 9 (0x0C0 + 8 * n + 4) (Config.freeWord 418 (0x0C0 + 8 * n + 4) (s.fresh + 1))) := by
  have h1 : 0x0C0 + 8 * n ≠ 0x040 ∧ 0x0C0 + 8 * n ≠ 0x060 ∧ 0x0C0 + 8 * n ≠ 0x0A8 ∧ 0x0C0 + 8 * n ≠ 0x0B0 := by omega
  have h2 : 0x0C0 ≤ 0x0C0 + 8 * n ∧ 0x0C0 + 8 * n < 0x0F0 ∧ (0x0C0 + 8 * n) % 8 = 0 := by omega
  obtain ⟨a, b, c, e⟩ := h1
  simp only [readBlock, readPwrPage, if_neg a, if_neg b, if_neg c, if_neg e, if_pos h2, drawFree]

section
variable {t : Time} {die : Die} {page : Fin 256} {off : Fin 4096} {n : Nat}

/-- A read of a block's register at a page that can be reached, as LO_READ_LATCH makes it. -/
theorem exec_loReadLatch_block (hr : reachable (advance s t) die.val page.val = true) {b : Block} (hb : pageBlock die.val page.val = some b)
    {o : Nat} (ho : off.val = o) (ha : o % 4 = 0) (hge : 0x040 ≤ o) {lo : Word} {w : State}
    (hw : readBlock (advance s t) b die.val page.val o = (lo, w)) : exec (.loReadLatch t die page off) s = .next { w with lastRead := lo } :=
  exec_loReadLatch_aligned ho ha (((readReg_reachable die.isLt page.isLt (by omega) hr hb).trans (if_neg (by omega))).trans hw)

/-- A read of CNTn_LO (R16). -/
theorem loReadLatch_cnt (hr : reachable (advance s t) die.val page.val = true) (hn : n < 2) (ho : off.val = 0x030 + 8 * n) :
    let s2 := settleCnt (advance s t) die.val page.val
    let c := (counter s2 die.val page.val n).toNat
    ∃ u, exec (.loReadLatch t die page off) s = .next u ∧ u.lastRead = BitVec.ofNat 32 (c % 2 ^ 32) ∧
      mapGet u.cntLatch (pageKey die.val page.val * 2 + n) 0#32 = BitVec.ofNat 32 (c / 2 ^ 32) ∧
        u = { s2 with lastRead := u.lastRead, cntLatch := u.cntLatch } := by
  obtain ⟨b, hb⟩ := block_of_reachable hr
  obtain ⟨hlo, hlatch⟩ := readCntLo_spec (s := advance s t) (d := die.val) (p := page.val) n
  have hw : readReg (advance s t) (barOff die.val page.val (0x030 + 8 * n)) = readCntLo (advance s t) die.val page.val n := by
    rw [readReg_reachable die.isLt page.isLt (by omega) hr hb, if_pos (by omega), readHeader_cntLo hn]
  exact ⟨_, exec_loReadLatch_aligned ho (by omega) hw, hlo, hlatch, rfl⟩

/-- A read of ACCT_STEPS or ACCT_SLOTSTEPS (R172). -/
theorem loReadLatch_acct (hr : reachable (advance s t) die.val page.val = true) (hn : n < 2) (hd : die.val = 0) (hp : page.val = 1)
    (ho : off.val = 0x0D4 + 8 * n) :
    let fr := frsOf (advance s t) 0
    let c := mapGet (if n = 0 then fr.acctSteps else fr.acctSlots) (fld (reg (advance s t) 0 1 0x0D0) 0 8) 0
    ∃ u, exec (.loReadLatch t die page off) s = .next u ∧ u.lastRead = BitVec.ofNat 32 c ∧
      mapGet (frsOf u 0).acctLatch n 0#32 = BitVec.ofNat 32 (c / 2 ^ 32) ∧ u = { advance s t with lastRead := u.lastRead, frs := u.frs } := by
  have hb : pageBlock die.val page.val = some .frs := by rw [hd, hp]; rfl
  obtain ⟨hlo, hlatch⟩ := readAcct_spec (s := advance s t) n
  have hw : readBlock (advance s t) .frs die.val page.val (0x0D4 + 8 * n) = readAcct (advance s t) n := by rw [hd, readBlock_acct hn]
  exact ⟨_, exec_loReadLatch_block hr hb ho (by omega) (by omega) hw, hlo, hlatch, rfl⟩

/-- A read of LOG_SEQ_LO (R367). -/
theorem loReadLatch_logSeq (hr : reachable (advance s t) die.val page.val = true) (hb : pageBlock die.val page.val = some .tcc)
    (ho : off.val = 0x0B0) : ∃ u, exec (.loReadLatch t die page off) s = .next u ∧ u.lastRead = reg (advance s t) die.val 8 0x0B0 ∧
      reg u die.val 8 0x0B4 = BitVec.ofNat 32 ((nth (advance s t).host.logN (dieOrd die.val) 0 - 1) / 2 ^ 32) ∧
        SameRegsBut (fun k => k = barOff die.val 8 0x0B4) (advance s t) u ∧ SameMemory s u := by
  obtain ⟨hsame, hmem⟩ := setReg_latch (s := advance s t) (d := die.val) 8 0x0B4
    (w32 ((nth (advance s t).host.logN (dieOrd die.val) 0 - 1) / 2 ^ 32 % 2 ^ 32))
  exact ⟨_, exec_loReadLatch_block hr hb ho (by omega) (by omega) readBlock_logSeq, rfl, (reg_setReg_same ..).trans (w32_mod _), hsame, hmem⟩

/-- A read of the energy of the power page (R418). -/
theorem loReadLatch_energy (hr : reachable (advance s t) die.val page.val = true) (hd : die.val = 90) (hp : page.val = 9) (ho : off.val = 0x0B0) :
    let e := (advance s t).power.energy / 100
    ∃ u, exec (.loReadLatch t die page off) s = .next u ∧ u.lastRead = BitVec.ofNat 32 e ∧
      reg u 90 9 0x0B4 = BitVec.ofNat 32 (e / 2 ^ 32) ∧ SameRegsBut (fun k => k = barOff 90 9 0x0B4) (advance s t) u ∧ SameMemory s u := by
  have hb : pageBlock die.val page.val = some .pwr := by rw [hd, hp]; rfl
  obtain ⟨hsame, hmem⟩ := setReg_latch (s := advance s t) (d := 90) 9 0x0B4 (w32 ((advance s t).power.energy / 100 / 2 ^ 32 % 2 ^ 32))
  exact ⟨_, exec_loReadLatch_block hr hb ho (by omega) (by omega) readBlock_energy, w32_mod _, (reg_setReg_same ..).trans (w32_mod _), hsame, hmem⟩

/-- A read of a domain's estimate, a free value (R418, log entry 9). -/
theorem loReadLatch_domain (hr : reachable (advance s t) die.val page.val = true) (hn : n < 6) (hd : die.val = 90) (hp : page.val = 9)
    (ho : off.val = 0x0C0 + 8 * n) : ∃ u, exec (.loReadLatch t die page off) s = .next u ∧
      u.lastRead = Config.freeWord 418 off.val (advance s t).fresh ∧
      reg u 90 9 (off.val + 4) = Config.freeWord 418 (off.val + 4) ((advance s t).fresh + 1) ∧
        SameRegsBut (fun k => k = barOff 90 9 (off.val + 4)) (advance s t) u ∧ SameMemory s u := by
  have hb : pageBlock die.val page.val = some .pwr := by rw [hd, hp]; rfl
  obtain ⟨hsame, hmem⟩ := setReg_latch (s := { advance s t with fresh := (advance s t).fresh + 1 + 1 }) (d := 90) 9 (0x0C0 + 8 * n + 4)
    (Config.freeWord 418 (0x0C0 + 8 * n + 4) ((advance s t).fresh + 1))
  rw [ho]
  exact ⟨_, exec_loReadLatch_block hr hb ho (by omega) (by omega) (readBlock_domain hn), rfl, reg_setReg_same .., hsame, hmem⟩

end

/-- Settles O8. -/
theorem headerControlsActAsStated : Obligations.HeaderControlsActAsStated := by
  refine ⟨fun t die page v s => ?_, fun t die page s => ⟨fun hr ht => ?_, fun h => ?_⟩, fun t die page off s => ⟨fun hr => ?_, fun hr => ?_⟩,
    fun s d p code n i hi he hc hclr hcfg => countOne_counts hi he hc hclr hcfg⟩
  · intro s1 d p q differs s2
    refine ⟨rfl, fun i hi => ?_, fun hr hs => ?_⟩
    · obtain ⟨off, ho, he⟩ := exec_control hi
      rw [he]
      exact ⟨fun hr => by rw [headerAccess_unreachable off v hr], fun hr hs => ⟨_, rfl, turnedAway_sealed ho hr hs⟩⟩
    · have hctrl : exec (.powerReqWrite t die page v) s = .next (headerAccess s1 d p 0x008 v) := rfl
      have hlock : exec (.pageLock t die page v) s = .next (writeHeader (traceRec s1 d 5 0) d p 0x01C v) :=
        congrArg Host.Outcome.next (headerAccess_open 0x01C v hr hs)
      have hclr : exec (.cntClr t die page v) s = .next (writeCntCtrl (traceRec s1 d 5 0) d p v) :=
        congrArg Host.Outcome.next (headerAccess_open 0x02C v hr hs)
      obtain ⟨c1, c2, c3, c4, c5, c6, c7⟩ := headerAccess_ctrl_spec (v := v) hr hs
      refine ⟨fun hl hv hq => ⟨_, hctrl, c1 hl hv hq⟩, fun hl hv hq => ⟨_, hctrl, c2 hl hv hq⟩, fun hl hv hq => ⟨_, hctrl, c3 hl hv hq⟩,
        fun hl hd hq => ⟨_, hctrl, c4 hl hd hq⟩, fun hl hd hq => ⟨_, hctrl, c5 hl hd hq⟩, fun hl hd hq => ⟨_, hctrl, c6 hl hd hq⟩,
        fun hl hd hq => ⟨_, hctrl, c7 hl hd hq⟩, ⟨_, hlock, ?_⟩, ⟨_, hclr, writeCntCtrl_spec (s := traceRec s1 d 5 0) v⟩⟩
      obtain ⟨hset, hregs⟩ := writeHeader_lock (s := traceRec s1 d 5 0) (d := d) (p := p) (v := v)
      exact ⟨hset, hregs.of_traceRec⟩
  · have he : exec (.powerTransitionComplete t die page) s = .next (endTransition (advance s t) die.val page.val) :=
      congrArg Host.Outcome.next (if_pos hr)
    exact ⟨_, he, endTransition_spec ht⟩
  · have he : exec (.powerTransitionComplete t die page) s = .next (if reachable (advance s t) die.val page.val = true then
        endTransition (advance s t) die.val page.val else advance s t) := rfl
    rw [he]
    obtain hr | ht := h
    · rw [if_neg (by simp [hr])]
    · rw [endTransition_idle ht, ite_self]
  · rw [exec_loReadLatch, readReg_unreachable page.isLt (by omega) hr]
    rfl
  · exact ⟨fun n hn ho _ => loReadLatch_cnt hr hn ho, fun n hn hd hp ho => loReadLatch_acct hr hn hd hp ho,
      fun hb ho => loReadLatch_logSeq hr hb ho, fun hd hp ho => loReadLatch_energy hr hd hp ho,
      fun n hn hd hp ho => loReadLatch_domain hr hn hd hp ho⟩

end

end Sys2Proof.Machine
end
